-- ==== Sys2Proof/Word.lean ====
section
/-! DEFINITION. Words, bytes, and the name of a bit field of a 32-bit register. -/

namespace Sys2Proof

/-- A 32-bit register or memory word (R11). -/
abbrev Word := BitVec 32

/-- One byte of a packet, a frame or a memory. -/
abbrev Byte := BitVec 8

/-- A field of a memory-mapped register: the register's byte address, the field's lowest bit and its width (R10). -/
structure Fld where
  reg : Nat
  lo : Nat
  width : Nat
  deriving DecidableEq, Repr

end Sys2Proof
end

