-- ==== Sys2Proof/Syntax.lean ====
section
/-! DEFINITION. The commands of the block: one constructor of `Instr` for each row of the spec's table of operations and
events, with its operands. The types before it are the shapes of the operands that are not plain numbers. -/

namespace Sys2Proof

/-- Width of a bus transfer (R11). -/
inductive AccSize where
  | byte | half | word
  deriving DecidableEq, Repr

/-- The registers of a timer that an immediate write reaches (R196). -/
inductive GptImm where
  | per | cmp0 | cmp1
  deriving DecidableEq, Repr

/-- An inbound link of the carafe ring (R371). -/
inductive RingDir where
  | east | west
  deriving DecidableEq, Repr

/-- A link of the carafe ring, inbound or outbound, in the order of RING.STAT.LINK (R371). -/
inductive RingLink where
  | eIn | wIn | eOut | wOut
  deriving DecidableEq, Repr

/-- Who sent a Gnorum request: an internal mailbox (R238) or an external port (R236). `eth` carries the requester's
IPv4 address and UDP port, to which the reply goes. -/
inductive Source where
  | mailbox (box : Fin 5)
  | hspi (p : Fin 2)
  | eth (p : Fin 2) (ip : Word) (port : BitVec 16)
  | can (p : Fin 4)
  | uart (p : Fin 2) (bcast : Bool)
  deriving DecidableEq, Repr

/-- A Gnorum request after framing: the header of R226, the parameter words and the session tag. -/
structure Req where
  src : Source
  opc : BitVec 8
  flg : BitVec 8
  seq : BitVec 16
  len : BitVec 16
  unit : BitVec 8
  sess : BitVec 8
  params : List Word
  tag : Option (BitVec 64)
  deriving DecidableEq, Repr

/-- What an Ethernet frame carries, as R414 tells the cases apart. -/
inductive EthKind where
  | arp (target : Word)
  | icmpEcho (dst : Word) (data : List Byte)
  | udp (dst src : Word) (sport dport : BitVec 16) (payload : List Byte)
  | otherIp (dst : Word) (payload : List Byte)
  | other
  deriving DecidableEq, Repr

/-- A received Ethernet frame: what the MAC and the IPv4 check found, and its content (R414). -/
structure EthFrame where
  badFcs : Bool
  badHeader : Bool
  options : Bool
  fragment : Bool
  kind : EthKind
  deriving DecidableEq, Repr

/-- A received CAN frame (R237, R415). -/
structure CanFrame where
  id : BitVec 29
  ide : Bool
  fd : Bool
  data : List Byte
  deriving DecidableEq, Repr

/-- Where an error of a protected word arises: in a memory, in the copy that a cache of a core holds, or in the pool word of an item of a
queue, 0 the oldest (R276, R296, R329). -/
inductive ErrorSite where
  | memory (a : Word)
  | item (q : Fin 32) (i : Nat)
  | dcache (core : Fin 4) (a : Word)
  | icache (core : Fin 4) (a : Word)
  deriving DecidableEq, Repr

/-- A received SENT message, with the checks of R417 made on it. -/
structure SentMsg where
  /-- tk since the falling edge of the message's calibration pulse -/
  calAgo : Nat
  crcOk : Bool
  calOver25 : Bool
  succDev : Bool
  data : Word
  deriving DecidableEq, Repr

/-- The published values of one tracker in a ring frame (R373). -/
structure TrkBlock where
  angle : BitVec 24
  sync : BitVec 3
  dir : Bool
  phv : Bool
  guarded : Bool
  rate : Word
  acc : BitVec 16
  deriving DecidableEq, Repr

/-- The slot of one member in a ring frame (R373). -/
structure RingSlot where
  dig : Word
  sts : Byte
  vote : Byte
  brw : Byte
  deriving DecidableEq, Repr

/-- A ring frame as it arrives (R373): `arrival` is the arrival of its SOF in the member's own TB, in 1/32 tk, and
`crcOk` says that no code or CRC error was found. -/
structure RingFrame where
  westbound : Bool
  orig : Fin 4
  turn : Bool
  dly : BitVec 12
  tbf : BitVec 56
  trk : List TrkBlock
  slots : List RingSlot
  crcOk : Bool
  arrival : Nat
  deriving DecidableEq, Repr

/-- Cause of a lockstep mismatch (R278, CPR.PAIRSTATp.CAUSE). -/
inductive MismatchCause where
  | mismatch | ecc | stack
  deriving DecidableEq, Repr

/-- Cause of a Kettle reset (KTL.STAT.LCAUSE). -/
inductive KettleCause where
  | heartbeat | command | trap
  deriving DecidableEq, Repr

/-- An occurrence offered to the log (R339, R341). -/
structure LogEvent where
  cls : BitVec 2
  src : BitVec 6
  code : BitVec 16
  arg0 : Word
  arg1 : Word
  deriving DecidableEq, Repr

/-- A request newly raised at an arbiter (R306): its master, its beats, whether it may be preempted (R308), the address of its first
beat, and whether it writes. -/
structure BusReq where
  mid : Fin 64
  beats : Nat
  preemptible : Bool
  addr : Word
  write : Bool
  deriving DecidableEq, Repr

/-- The commands: one constructor per row of the table, in the table's order. -/
inductive Instr where
  /-- REGISTER_WRITE (R12). A bus write to a register or memory word that has no row of its own, applied under its access codes, locks and refusal rules. -/
  | registerWrite (mid : Fin 64) (addr : Word) (size : AccSize) (val : Word)
  /-- RC_FIELD_READ (R12). A read of a register with an RC field returns the value and then clears the field. -/
  | rcFieldRead (mid : Fin 64) (addr : Word)
  /-- LOW_WORD_READ (R15). A read of the low word of a 64-bit register captures the high word into a holding copy for the same master. -/
  | lowWordRead (mid : Fin 64) (addr : Word)
  /-- TOOTH_ENTRY_WRITE (R41). A bus write to a tooth table entry inside a range in use: word 0 is refused with a bus error, and word 1 writes CORR only. -/
  | toothEntryWrite (mid : Fin 64) (entry : Fin 8192) (word1 : Bool) (val : Word)
  /-- TI_PIN_EDGE (R48). A level change on a TI pin is synchronised and sampled into the digital filter. -/
  | tiPinEdge (n : Fin 16) (level : Bool)
  /-- FILTERED_EDGE (R49). The filter passes a new level; the edge is timestamped, passes fixed blanking and enters the capture queue. -/
  | filteredEdge (n : Fin 16)
  /-- DIRPW_WIDTH_SATURATE (R59). A DIRPW pulse reaches 0xFFFF tk without a trailing edge, and the entry is pushed with WSAT = 1 and DIRV = 0. -/
  | dirpwWidthSaturate (n : Fin 16)
  /-- INPUT_ENABLE (R47). Setting TIn.CFG.EN flushes the queue, clears OVR, restarts the filter and blanking, and puts a VR front end into PRIME. -/
  | inputEnable (n : Fin 16)
  /-- INPUT_DISABLE (R47). Clearing TIn.CFG.EN stops capture at once, and an edge still in the filter is discarded. -/
  | inputDisable (n : Fin 16)
  /-- VR_GENUINE_CROSSING (R54). A genuine crossing of the arming comparator counts in PRIME or sets the armed flag in RUN. -/
  | vrGenuineCrossing (n : Fin 4) (risingTHR : Bool)
  /-- VR_ZERO_CROSSING (R54). The timing comparator crosses zero; if the front end is armed, the edge is delivered and THR is updated. -/
  | vrZeroCrossing (n : Fin 4) (peak : BitVec 16)
  /-- VR_TIMEOUT (R54). No edge is delivered for VRTO × 4096 tk; THR returns to ARM and TOUT is set. -/
  | vrTimeout (n : Fin 4)
  /-- CAP_TSL_READ (R60). A bus read of CAPn.TSL pops the head entry when DEST = bus, and captures TSH and INFO as holding copies. -/
  | capTslRead (mid : Fin 64) (n : Fin 16)
  /-- TOOTH_ENTRY_POP (R87). A tracker pops a capture entry and classifies it, updating angle, rate, segment and sync state within 12 tk. -/
  | toothEntryPop (n : Fin 4)
  /-- VIRTUAL_TOOTH (R88). The deadline t_ref + Thi + D passes in NORMAL mode with no entry; a virtual tooth is inserted and the next segment opens from t_v. -/
  | virtualTooth (n : Fin 4)
  /-- CATCHUP_COMPLETE (R91). The catch-up accumulator reaches its target and returns to rate_new. -/
  | catchupComplete (n : Fin 4)
  /-- ACCUMULATOR_HALT (R90). The accumulator reaches its halt point and stands there with PSTAT.HALT set. -/
  | accumulatorHalt (n : Fin 4)
  /-- TOOTH_PERIOD_STALL (R76). The tooth-period counter saturates and the tracker takes STALLED. -/
  | toothPeriodStall (n : Fin 4)
  /-- CAMMISS (R71). The angle advances by L in SYNC720 with no cam edge; CAMMISS is set and the measure restarts. -/
  | cammiss (n : Fin 4)
  /-- ANGLE_CYCLE_WRAP (R100). The published angle wraps through zero; WCYL ages advance and the MAXPC pulse count restarts. -/
  | angleCycleWrap (n : Fin 4)
  /-- WCYL_WRITE (R100). A write of ATn.WCYLc sets WVAL bit c and resets the cylinder's age. -/
  | wcylWrite (mid : Fin 64) (n : Fin 4) (c : Fin 24) (work : Word)
  /-- TRACKER_ENABLE (R40). Setting ATn.CTL.EN enables the tracker after the range and symmetry checks. -/
  | trackerEnable (n : Fin 4)
  /-- TRACKER_DISABLE (R64). Clearing ATn.CTL.EN takes the tracker to NONE. -/
  | trackerDisable (n : Fin 4)
  /-- WHEEL_SWITCH_REQUEST (R43). Setting WCFG.SWREQ asks for a switch to the pending descriptor at the next REF tooth, after the range and symmetry checks. -/
  | wheelSwitchRequest (n : Fin 4)
  /-- SYNC_RESTART (R64). A write of SCTL.RESTART takes the tracker to NONE. -/
  | syncRestart (n : Fin 4)
  /-- SYNC_DROP (R64). A write of SCTL.DROP takes the tracker to LOST with cause 9. -/
  | syncDrop (n : Fin 4)
  /-- SETPH0 (R64). A write of SCTL.SETPH0 in SYNC360 resolves phase to the first half and enters SYNC720. -/
  | setph0 (n : Fin 4)
  /-- SETPH1 (R64). A write of SCTL.SETPH1 in SYNC360 resolves phase to the second half and enters SYNC720. -/
  | setph1 (n : Fin 4)
  /-- PASS_STROBE (R133). At TB mod 64 = 0 every ESQ takes its ABUS snapshot, sets its flags and starts an evaluation pass. `parity` names the
  ESQs, by bit, whose snapshot has a parity error. -/
  | passStrobe (parity : BitVec 8)
  /-- COAST_EXPIRY (R144). COASTCNT reaches COASTMAX and the ESQ takes a fault of cause COAST. -/
  | coastExpiry (n : Fin 8)
  /-- COMMITTED_EDGE_OUTPUT (R111). TB reaches a committed edge time; the TO pin changes and the linked loop is told of the start or end. -/
  | committedEdgeOutput (c : Fin 64)
  /-- MAXDUR_CUT (R124). A pulse that has been active for its latched MAXDUR is ended by the output unit, and MAXCUT is set. -/
  | maxdurCut (c : Fin 64)
  /-- OUTPUT_UNIT_SYNC_LOSS (R119). A tracker leaves SYNC720; committed starts not yet reached are cancelled and uncommitted pulse ends are forced. -/
  | outputUnitSyncLoss (n : Fin 4)
  /-- DIRECTION_CHANGE_CANCEL (R120). A direction change that an event's DIR does not allow ends its pulse at once and cancels its committed start. -/
  | directionChangeCancel (n : Fin 4)
  /-- OUTEN_WRITE (R126). A write of SCH.OUTENL or OUTENH enables channels, or takes them to their safe state and cancels their remaining edges. -/
  | outenWrite (high : Bool) (val : Word)
  /-- BANK_SWITCH_REQUEST (R121). Setting SCH.BCTL.REQ requests a bank switch for the trackers in TRKMSK, or is refused with REFUSED. -/
  | bankSwitchRequest (image : Word)
  /-- BANK_COPY_START (R121). Setting SCH.BCTL.COPY starts a copy of bank SRC over the other bank. -/
  | bankCopyStart (image : Word)
  /-- BANK_COPY_DONE (R121). The bank copy completes after 4096 BUSCLK cycles and COPYBUSY clears. -/
  | bankCopyDone
  /-- STAGED_WRITE_APPLY (R231). The staged ATCOMMIT writes of a tracker are applied before the pass that reaches BANGn, and their replies are sent. -/
  | stagedWriteApply (n : Fin 4)
  /-- NOP (R137). ESQ instruction with no effect. -/
  | esqNop (n : Fin 8)
  /-- ADD (R137). ESQ instruction DST := SA + SB. -/
  | esqAdd (n : Fin 8) (dst sa sb : Fin 16)
  /-- SUB (R137). ESQ instruction DST := SA − SB. -/
  | esqSub (n : Fin 8) (dst sa sb : Fin 16)
  /-- AND (R137). ESQ instruction DST := SA and SB. -/
  | esqAnd (n : Fin 8) (dst sa sb : Fin 16)
  /-- OR (R137). ESQ instruction DST := SA or SB. -/
  | esqOr (n : Fin 8) (dst sa sb : Fin 16)
  /-- XOR (R137). ESQ instruction DST := SA xor SB. -/
  | esqXor (n : Fin 8) (dst sa sb : Fin 16)
  /-- SHL (R137). ESQ instruction shifting left by SB[4:0]. -/
  | esqShl (n : Fin 8) (dst sa sb : Fin 16)
  /-- SHR (R137). ESQ instruction logical right shift by SB[4:0]. -/
  | esqShr (n : Fin 8) (dst sa sb : Fin 16)
  /-- SRA (R137). ESQ instruction arithmetic right shift by SB[4:0]. -/
  | esqSra (n : Fin 8) (dst sa sb : Fin 16)
  /-- MUL (R137). ESQ instruction giving the low 32 bits of SA × SB. -/
  | esqMul (n : Fin 8) (dst sa sb : Fin 16)
  /-- ADDI (R137). ESQ instruction adding a sign-extended immediate. -/
  | esqAddi (n : Fin 8) (dst sa : Fin 16) (imm : BitVec 18)
  /-- ANDI (R137). ESQ instruction ANDing a zero-extended immediate. -/
  | esqAndi (n : Fin 8) (dst sa : Fin 16) (imm : BitVec 18)
  /-- ORI (R137). ESQ instruction ORing a zero-extended immediate. -/
  | esqOri (n : Fin 8) (dst sa : Fin 16) (imm : BitVec 18)
  /-- XORI (R137). ESQ instruction XORing a zero-extended immediate. -/
  | esqXori (n : Fin 8) (dst sa : Fin 16) (imm : BitVec 18)
  /-- SHLI (R137). ESQ instruction shifting left by an immediate. -/
  | esqShli (n : Fin 8) (dst sa : Fin 16) (imm : BitVec 18)
  /-- SHRI (R137). ESQ instruction logical right shift by an immediate. -/
  | esqShri (n : Fin 8) (dst sa : Fin 16) (imm : BitVec 18)
  /-- SRAI (R137). ESQ instruction arithmetic right shift by an immediate. -/
  | esqSrai (n : Fin 8) (dst sa : Fin 16) (imm : BitVec 18)
  /-- LUI (R137). ESQ instruction loading IMM << 14. -/
  | esqLui (n : Fin 8) (dst : Fin 16) (imm : BitVec 18)
  /-- LD (R137). ESQ instruction loading a word from local data memory. -/
  | esqLd (n : Fin 8) (dst sa : Fin 16) (imm : BitVec 18)
  /-- ST (R137). ESQ instruction storing a word to local data memory. -/
  | esqSt (n : Fin 8) (dst sa : Fin 16) (imm : BitVec 18)
  /-- LDE (R137). ESQ instruction reading a word of the scheduling memories, faulting with ADDR outside them. -/
  | esqLde (n : Fin 8) (dst sa : Fin 16) (imm : BitVec 18)
  /-- ABR (R134). ESQ instruction reading a tracker field from the snapshot or live from ABUS. -/
  | esqAbr (n : Fin 8) (dst : Fin 16) (imm : BitVec 18)
  /-- TBR (R137). ESQ instruction reading TB[31:0] and capturing, or returning, TB[63:32]. -/
  | esqTbr (n : Fin 8) (dst : Fin 16) (imm : BitVec 18)
  /-- FLG (R137). ESQ instruction reading FLAGS and clearing the selected bits. -/
  | esqFlg (n : Fin 8) (dst : Fin 16) (imm : BitVec 18)
  /-- ERES (R137). ESQ instruction reading the pass result counts. -/
  | esqEres (n : Fin 8) (dst : Fin 16)
  /-- BEQ (R137). ESQ branch taken if SA = SB. -/
  | esqBeq (n : Fin 8) (sa sb : Fin 16) (tgt : BitVec 11)
  /-- BNE (R137). ESQ branch taken if SA ≠ SB. -/
  | esqBne (n : Fin 8) (sa sb : Fin 16) (tgt : BitVec 11)
  /-- BLT (R137). ESQ branch taken if SA < SB, signed. -/
  | esqBlt (n : Fin 8) (sa sb : Fin 16) (tgt : BitVec 11)
  /-- BGE (R137). ESQ branch taken if SA ≥ SB, signed. -/
  | esqBge (n : Fin 8) (sa sb : Fin 16) (tgt : BitVec 11)
  /-- BLTU (R137). ESQ branch taken if SA < SB, unsigned. -/
  | esqBltu (n : Fin 8) (sa sb : Fin 16) (tgt : BitVec 11)
  /-- BGEU (R137). ESQ branch taken if SA ≥ SB, unsigned. -/
  | esqBgeu (n : Fin 8) (sa sb : Fin 16) (tgt : BitVec 11)
  /-- JMP (R137). ESQ jump to TGT. -/
  | esqJmp (n : Fin 8) (tgt : BitVec 11)
  /-- CALL (R137). ESQ call that saves PC + 1 in GP15. -/
  | esqCall (n : Fin 8) (tgt : BitVec 11)
  /-- JR (R138). ESQ jump to SA[10:0], illegal when SA has higher bits set. -/
  | esqJr (n : Fin 8) (sa : Fin 16)
  /-- WPASS (R137). ESQ instruction that drains the pipeline and waits for the next pass strobe. -/
  | esqWpass (n : Fin 8)
  /-- EVAL (R139). ESQ instruction that issues descriptors to the forecast-and-commit pipeline, two per cycle, within the R140 limits. -/
  | esqEval (n : Fin 8) (imm : BitVec 18)
  /-- EDRAIN (R137). ESQ instruction that waits until every issued descriptor has written its commits. -/
  | esqEdrain (n : Fin 8)
  /-- CHSAFE (R145). ESQ instruction that takes the named channels of the owned group to their safe state and clears their OUTEN bits. -/
  | esqChsafe (n : Fin 8) (imm : BitVec 18)
  /-- SWI (R137). ESQ instruction that sets STAT.SWI. -/
  | esqSwi (n : Fin 8) (imm : BitVec 18)
  /-- HALT (R145). ESQ instruction that stops the core with fault HALT. -/
  | esqHalt (n : Fin 8)
  /-- WTB (R137). ESQ instruction that waits until TB[31:0] reaches SA. -/
  | esqWtb (n : Fin 8) (sa : Fin 16)
  /-- ILLEGAL_INSTRUCTION (R138). An illegal ESQ instruction or unlisted opcode is fetched, causing a fault of cause ILL. -/
  | illegalInstruction (n : Fin 8) (word : Word)
  /-- ESQ_RUN (R146). Setting ESQn.CTL.RUN in STOPPED starts execution at address 0 of SBANK. -/
  | esqRun (n : Fin 8)
  /-- ESQ_STOP (R146). Clearing ESQn.CTL.RUN stops the core and discards the pipeline. -/
  | esqStop (n : Fin 8)
  /-- ESQ_FCLR (R145). A write of ESQn.CTL.FCLR in FAULT clears FLT and returns the ESQ to STOPPED. -/
  | esqFclr (n : Fin 8)
  /-- ESQ_UBREQ (R143). Setting ESQn.CTL.UBREQ requests a microcode bank switch at the next cycle boundary. -/
  | esqUbreq (n : Fin 8)
  /-- ESQ_SELFTEST_START (R147). Setting ESQn.CTL.STEST in STOPPED with OWN.VALID = 0 starts the self-test. -/
  | esqSelftestStart (n : Fin 8)
  /-- ESQ_SELFTEST_DONE (R147). The ESQ self-test ends after 100,000 cycles, writing STRES and returning to STOPPED. -/
  | esqSelftestDone (n : Fin 8) (pass : Bool)
  /-- ESQ_OWN_WRITE (R131). A write of ESQn.OWN assigns or releases a channel group, or is refused. -/
  | esqOwnWrite (n : Fin 8) (image : Word)
  /-- CRL_COMPARATOR_CROSSING (R160). A loop comparator crosses its threshold outside blanking and regulation switches the source or ends a phase. -/
  | crlComparatorCrossing (k : Fin 12) (upper : Bool) (level : Bool)
  /-- BLANKING_END (R160). The BLNKC comparator blanking ends, and a condition that already holds acts at once. -/
  | blankingEnd (k : Fin 12)
  /-- PHASE_TIME_ELAPSED (R160). A phase's TIME elapses; the loop moves to the next phase or detects OPEN. -/
  | phaseTimeElapsed (k : Fin 12)
  /-- DEAD_TIME_END (R151). The dead time DT after a gate turned off ends, and the complementary gate comes on. -/
  | deadTimeEnd (k : Fin 12)
  /-- OVC_TIMEOUT (R168). The upper comparator still reads 1 OCT tk after the sources went off, detecting OVC. -/
  | ovcTimeout (k : Fin 12)
  /-- WATCH_WINDOW_OPEN (R163). At t_end + WDLY the closure-watch window opens and the trace converter starts sampling. -/
  | watchWindowOpen (k : Fin 12)
  /-- TRACE_SAMPLE (R163). A trace conversion of CRLk_VS ends and every DEC-th sample is stored; the last sample starts ANALYSE. -/
  | traceSample (k : Fin 12) (code : BitVec 10)
  /-- ANALYSE_COMPLETE (R165). Closure analysis ends; result registers, ring record and trim compare-and-set are written and the loop returns to IDLE. -/
  | analyseComplete (k : Fin 12)
  /-- LOOP_ENABLE (R157). Setting CRLk.CFG.EN takes the loop to IDLE and takes over its comparators. -/
  | loopEnable (k : Fin 12)
  /-- LOOP_DISABLE (R157). Clearing CRLk.CFG.EN takes the loop to OFF with gates off and any calibration ended. -/
  | loopDisable (k : Fin 12)
  /-- LOOP_FCLR (R157). A write of CRLk.CTL.FCLR in FAULT returns the loop to IDLE. -/
  | loopFclr (k : Fin 12)
  /-- CRL_CALREQ (R171). Setting CRLk.CTL.CALREQ requests a sense-offset calibration, answered ACCEPTED, DEFERRED or CAL_BUSY. -/
  | crlCalreq (k : Fin 12)
  /-- IDLE_TIMER_CAL_START (R171). The idle timer reaches 40,000 tk with a calibration pending, and the loop enters CAL. -/
  | idleTimerCalStart (k : Fin 12)
  /-- CRL_CAL_COMPLETE (R171). The 64 offset conversions end; IOFS and CALST are written and the loop returns to IDLE or OFF. -/
  | crlCalComplete (k : Fin 12) (sum : Int)
  /-- CRL_CAL_STARVED (R171). A calibration request has been pending for 1 s and CALST becomes STARVED. -/
  | crlCalStarved (k : Fin 12)
  /-- PROGRAM_BANK_REQUEST (R162). Setting CSEn.CTL.PBREQ requests a program bank switch, taken by each loop in OFF or IDLE. -/
  | programBankRequest (n : Fin 2)
  /-- SAMPLING_MARK (R172). The pacing tracker's angle reaches a sampling mark; every present channel is held and the open channels are assigned to cores. -/
  | samplingMark
  /-- PADC_CONVERSION_DONE (R177). A PADC core ends a conversion and stores the corrected sample; the last sample of a window closes it. -/
  | padcConversionDone (core : Fin 4) (raw : Int)
  /-- PADC_ENABLE (R176). Setting PADC.CFG.EN computes LOAD and starts sampling, or is refused. -/
  | padcEnable
  /-- PADC_CALREQ (R179). Setting a PADC.CAL.CALREQ bit requests calibration of a converter core. -/
  | padcCalreq (core : Fin 4)
  /-- PADC_CAL_COMPLETE (R179). A core calibration ends after 600,000 tk, writing coefficients or FAIL and returning the core to service. -/
  | padcCalComplete (core : Fin 4) (zeroSum refSum : Int)
  /-- PADC_CAL_ROTATION (R179). The automatic rotation period elapses and the PADC requests calibration of the next core. -/
  | padcCalRotation
  /-- CAE_ANALYSIS_COMPLETE (R183). The CAE ends a window's analysis and writes the cycle record and result item. -/
  | caeAnalysisComplete (c : Fin 24)
  /-- PHASE_TRIM_REPLY (R187). The FCP reply to the controller's trim write arrives; a rejection takes the controller to REJECT, and acceptance writes EVB. -/
  | phaseTrimReply (c : Fin 24)
  /-- CAE_ANALYSIS_TIMEOUT (R191). An analysis has not ended 8000 tk after its close, and the CAE stops in FAULT. -/
  | caeAnalysisTimeout (c : Fin 24)
  /-- CAE_RUN (R182). Setting CAE.CTL.RUN builds the volume table and starts analysis, or is refused. -/
  | caeRun
  /-- CAE_STOP (R182). Clearing CAE.CTL.RUN stops analysis. -/
  | caeStop
  /-- CAE_FCLR (R191). A write of CAE.CTL.FCLR returns the CAE from FAULT to STOPPED. -/
  | caeFclr
  /-- KERNEL_BANK_REQUEST (R190). Setting CAE.CTL.KBREQ requests a kernel bank switch. -/
  | kernelBankRequest
  /-- GPT_PERIOD_END (R193). A timer's count passes PER; the count becomes 0, PEV is set and the shadows load. -/
  | gptPeriodEnd (t : Fin 32)
  /-- GPT_COMPARE_EVENT (R197). A timer's count becomes CMPx and the channel raises its compare event. -/
  | gptCompareEvent (t : Fin 32) (x : Fin 2)
  /-- GPT_WIDTH_SATURATE (R200). A WIDTH measurement reaches 0xFFFF_FFFF ticks and is pushed saturated. -/
  | gptWidthSaturate (t : Fin 32) (x : Fin 2)
  /-- GPT_CAPTURE_READ (R199). A read of GPTt.CAPx pops the head entry of the channel's capture queue. -/
  | gptCaptureRead (mid : Fin 64) (t : Fin 32) (x : Fin 2)
  /-- GPT_PER_IMMEDIATE (R196). An immediate write of PER or CMPx acts at once, possibly ending the period with PSHORT. -/
  | gptPerImmediate (t : Fin 32) (reg : GptImm) (val : Word)
  /-- BREW_MASK_WRITE (R202). A write of GPT.BREW.MASK starts the selected timers from 0 in one tk. -/
  | brewMaskWrite (mask : Word)
  /-- RING_BREW_WRITE (R203). A BREW write with RING = 1 schedules a carafe-wide start at TBS and sends it in four frames. -/
  | ringBrewWrite
  /-- RING_BREW_START (R203). TB reaches TBS of a ring BREW and each member starts the timers of its RBMSK. -/
  | ringBrewStart
  /-- HADC_SWTRG (R212). A write of HADC.SWTRG.TRG triggers a sequence. -/
  | hadcSwtrg (seqs : BitVec 4)
  /-- HADC_SEQ_STOP (R213). A write of HADC.SWTRG.STOP ends a sequence after the current conversion. -/
  | hadcSeqStop (seqs : BitVec 4)
  /-- HADC_ANGLE_TRIGGER (R212). A tracker's angle reaches or passes ANG and triggers the sequence. -/
  | hadcAngleTrigger (s : Fin 4)
  /-- HADC_ENTRY_DELAY_END (R213). The trigger or entry delay ends and the entry's first conversion starts. -/
  | hadcEntryDelayEnd (s : Fin 4)
  /-- HADC_CONVERSION_DONE (R208). An HADC conversion ends; the entry's result is written after its repeats and the sequence continues or completes. -/
  | hadcConversionDone (code : Int)
  /-- RES_READ (R215). A read of HADC.RESj returns the result and clears NEW. -/
  | resRead (mid : Fin 64) (j : Fin 32)
  /-- HADC_CALREQ (R218). Setting HADC.CTL.CALREQ starts or defers a calibration, or is ignored while one runs. -/
  | hadcCalreq
  /-- HADC_CAL_STEP (R217). A calibration step runs in a gap; after step 31 the coefficients are applied or CALST becomes FAILED. -/
  | hadcCalStep (code : Int)
  /-- HADC_CAL_STARVED (R218). 10 ms pass without a gap for calibration and CALSTRV is set. -/
  | hadcCalStarved
  /-- HADC_DISABLE (R218). Clearing HADC.CTL.EN abandons a running calibration and sets CALST to NONE. -/
  | hadcDisable
  /-- COMPARATOR_CROSSING (R219). A comparator input crosses a threshold and changes OUT; a selected edge sets the latch, routes a capture, interrupt or wake, or counts in ELOST. -/
  | comparatorCrossing (n : Fin 48) (input : Int)
  /-- THRESHOLD_WRITE (R220). A write of CMPn.THR that moves a threshold past the input is a genuine crossing. -/
  | thresholdWrite (n : Fin 48) (val : Word)
  /-- COMPARATOR_ENABLE (R221). A comparator is enabled or powered again; its first resolution sets OUT or INBAND with no edge. -/
  | comparatorEnable (n : Fin 48) (input : Int)
  /-- HSPI_REQUEST_TRANSACTION (R412). A host SPI transaction beginning with 0x47 delivers a Gnorum packet, or is discarded. -/
  | hspiRequestTransaction (p : Fin 2) (bytes : List Byte)
  /-- HSPI_READ_TRANSACTION (R413). A host SPI transaction beginning with 0x52 returns the oldest pending reply. -/
  | hspiReadTransaction (p : Fin 2) (complete : Bool)
  /-- ETH_FRAME_RECEIVE (R414). An Ethernet frame is received and handled as ARP, ICMP, a Gnorum packet, an application frame or a discard. -/
  | ethFrameReceive (p : Fin 2) (frame : EthFrame)
  /-- CAN_FRAME_RECEIVE (R237). A CAN FD frame is received and reassembled into a Gnorum packet or passed to the acceptance filters. -/
  | canFrameReceive (p : Fin 4) (frame : CanFrame)
  /-- CAN_REASSEMBLY_TIMEOUT (R237). More than 10 ms pass between segments and the partial packet is discarded. -/
  | canReassemblyTimeout (p : Fin 4)
  /-- UART_FRAME_RECEIVE (R236). A UART frame addressed to the port, or broadcast, delivers a Gnorum packet. -/
  | uartFrameReceive (p : Fin 2) (bytes : List Byte) (lineError : Bool)
  /-- UART_REPLY_SEND (R416). After two idle character times, the UART sends a pending reply with DE asserted. -/
  | uartReplySend (p : Fin 2)
  /-- MAILBOX_WRITE (R238). The last word of an internal request is pushed to its request queue and the FCP takes it. -/
  | mailboxWrite (box : Fin 5) (word : Word)
  /-- CHAIN_TIMEOUT (R232). More than 1 ms passes between chain members; the members received are answered CHAIN_ABORT. -/
  | chainTimeout (src : Source)
  /-- PERC_WRITE_GROUP (R242). PERC passes the effect of a slow request to the FCP, which applies it between two passes and sends the reply. -/
  | percWriteGroup
  /-- PING (R255). Opcode 0x00 returns TB at execution. -/
  | ping (r : Req)
  /-- INFO (R255). Opcode 0x01 returns part ID, versions and debug state. -/
  | info (r : Req)
  /-- STATUS (R255). Opcode 0x02 returns tracker states, pair service, safe mode and OUTEN. -/
  | status (r : Req)
  /-- REG_READ (R255). Opcode 0x03 reads 1 to 64 register words as judged by ACT. -/
  | regRead (r : Req)
  /-- REG_WRITE (R255). Opcode 0x04 has PERC write a masked register value as a bus write. -/
  | regWrite (r : Req)
  /-- JOB_QUERY (R255). Opcode 0x05 reports the state and final status of a job, freeing the slot when it has ended. -/
  | jobQuery (r : Req)
  /-- RESET_UNIT (R255). Opcode 0x06 resets pair A, pair B or PERC, refusing the last pair without FORCE. -/
  | resetUnit (r : Req)
  /-- TRK_CFG (R256). Opcode 0x10 writes a tracker's configuration images. -/
  | trkCfg (r : Req)
  /-- TRK_EN (R256). Opcode 0x11 enables or disables a tracker. -/
  | trkEn (r : Req)
  /-- WHEEL_STAGE (R256). Opcode 0x12 fills the PERC wheel staging buffer. -/
  | wheelStage (r : Req)
  /-- WHEEL_LOAD (R256). Opcode 0x13 checks the staged wheel under R38 and writes it with a descriptor and NGAP. -/
  | wheelLoad (r : Req)
  /-- WHEEL_SWITCH (R256). Opcode 0x14 requests a wheel switch as a long-running job. -/
  | wheelSwitch (r : Req)
  /-- SYNC_CTL (R256). Opcode 0x15 writes one SCTL bit. -/
  | syncCtl (r : Req)
  /-- CORR_LOAD (R256). Opcode 0x16 loads CORR values and restarts learning. -/
  | corrLoad (r : Req)
  /-- PROF_LOAD (R256). Opcode 0x17 loads acceleration profile slots. -/
  | profLoad (r : Req)
  /-- TRK_READ (R256). Opcode 0x18 returns tracker state registers. -/
  | trkRead (r : Req)
  /-- PSTORE_READ (R256). Opcode 0x19 returns tooth period store words. -/
  | pstoreRead (r : Req)
  /-- TI_CFG (R256). Opcode 0x1A writes an input's configuration images. -/
  | tiCfg (r : Req)
  /-- TI_READ (R256). Opcode 0x1B returns an input's status registers. -/
  | tiRead (r : Req)
  /-- EVT_WRITE (R257). Opcode 0x20 writes an event descriptor to a selected bank after the envelope check. -/
  | evtWrite (r : Req)
  /-- EVT_EN (R257). Opcode 0x21 sets or clears EN of a descriptor. -/
  | evtEn (r : Req)
  /-- TRIM_WRITE (R257). Opcode 0x22 writes ATRIM and/or DTRIM of an event. -/
  | trimWrite (r : Req)
  /-- TRIM_ADD (R257). Opcode 0x23 adds signed increments to the trims, saturating before the envelope check. -/
  | trimAdd (r : Req)
  /-- EVT_FIRE (R257). Opcode 0x24 triggers a TD event with TRIG 32 at the FCP completion tk. -/
  | evtFire (r : Req)
  /-- EVT_WRITE_N (R257). Opcode 0x25 writes up to eight descriptors all together or not at all. -/
  | evtWriteN (r : Req)
  /-- EVT_READ (R257). Opcode 0x26 returns a descriptor and its trim. -/
  | evtRead (r : Req)
  /-- CH_READ (R257). Opcode 0x27 returns a channel's envelope and status. -/
  | chRead (r : Req)
  /-- ENV_WRITE (R257). Opcode 0x28 writes a channel's envelope registers. -/
  | envWrite (r : Req)
  /-- BANK_SWITCH (R257). Opcode 0x29 requests an event bank switch as a long-running job. -/
  | bankSwitch (r : Req)
  /-- BANK_COPY (R257). Opcode 0x2A copies one event bank over the other as a long-running job. -/
  | bankCopy (r : Req)
  /-- BANK_ANG (R257). Opcode 0x2B writes BANGn and optional CREF angles. -/
  | bankAng (r : Req)
  /-- HORIZON (R257). Opcode 0x2C writes HTn and HAn. -/
  | horizon (r : Req)
  /-- ESQ_ASSIGN (R257). Opcode 0x2D writes an ESQ's OWN, EVRNG and CFG. -/
  | esqAssign (r : Req)
  /-- ESQ_CTL (R257). Opcode 0x2E writes an ESQ's FCLR and RUN. -/
  | esqCtl (r : Req)
  /-- ESQ_UBANK (R257). Opcode 0x2F requests a microcode bank switch as a long-running job. -/
  | esqUbank (r : Req)
  /-- CRL_CFG (R258). Opcode 0x30 writes a loop's CFG, LIM and DTLIM. -/
  | crlCfg (r : Req)
  /-- CRL_CTL (R258). Opcode 0x31 writes a loop's FCLR. -/
  | crlCtl (r : Req)
  /-- CSE_PROF (R258). Opcode 0x32 writes a profile into a program bank that is not in use. -/
  | cseProf (r : Req)
  /-- CSE_PBANK (R258). Opcode 0x33 requests a program bank switch as a long-running job. -/
  | csePbank (r : Req)
  /-- CRL_READ (R258). Opcode 0x34 returns a loop's status and last result. -/
  | crlRead (r : Req)
  /-- CSE_RING (R258). Opcode 0x35 writes a CSE's result ring base and configuration. -/
  | cseRing (r : Req)
  /-- GPT_CFG (R258). Opcode 0x38 writes a timer's configuration images in order. -/
  | gptCfg (r : Req)
  /-- BREW (R258). Opcode 0x39 writes GPT.BREW and returns the start TB. -/
  | brew (r : Req)
  /-- BREW_RING (R258). Opcode 0x3A writes RBMSK and then a ring BREW. -/
  | brewRing (r : Req)
  /-- GPT_READ (R258). Opcode 0x3B returns a timer's registers. -/
  | gptRead (r : Req)
  /-- WORK_WRITE (R259). Opcode 0x40 writes ATn.WCYLc. -/
  | workWrite (r : Req)
  /-- CAE_PARAM (R259). Opcode 0x41 writes consecutive CAE parameter registers. -/
  | caeParam (r : Req)
  /-- CAE_CYL (R259). Opcode 0x42 writes a cylinder's CAE parameters. -/
  | caeCyl (r : Req)
  /-- CAE_CTL (R259). Opcode 0x43 writes CAE FCLR and RUN. -/
  | caeCtl (r : Req)
  /-- PADC_CFG (R259). Opcode 0x44 writes the sampling configuration. -/
  | padcCfg (r : Req)
  /-- REC_READ (R259). Opcode 0x45 returns cycle records. -/
  | recRead (r : Req)
  /-- CAE_KBANK (R259). Opcode 0x46 requests a kernel bank switch as a long-running job. -/
  | caeKbank (r : Req)
  /-- HADC_SEQ (R259). Opcode 0x50 writes a sequence and its entries. -/
  | hadcSeq (r : Req)
  /-- HADC_READ (R259). Opcode 0x51 reads HADC results, clearing NEW. -/
  | hadcRead (r : Req)
  /-- HADC_TRG (R259). Opcode 0x52 writes HADC.SWTRG. -/
  | hadcTrg (r : Req)
  /-- CMP_CFG (R259). Opcode 0x53 writes a comparator's configuration and thresholds. -/
  | cmpCfg (r : Req)
  /-- CMP_READ (R259). Opcode 0x54 returns a comparator's status and latch, optionally clearing set latch bits. -/
  | cmpRead (r : Req)
  /-- HADC_CTL (R259). Opcode 0x55 writes HADC.CTL. -/
  | hadcCtl (r : Req)
  /-- Q_CFG (R260). Opcode 0x58 writes a queue's configuration, refusing Q0 to Q9. -/
  | qCfg (r : Req)
  /-- Q_STAT (R260). Opcode 0x59 returns a queue's status words. -/
  | qStat (r : Req)
  /-- DMA_CTL (R260). Opcode 0x5A writes a DMA channel's control word. -/
  | dmaCtl (r : Req)
  /-- DMA_STAT (R260). Opcode 0x5B returns a DMA channel's status. -/
  | dmaStat (r : Req)
  /-- PWR_ENTER (R260). Opcode 0x60 requests a power state with wake sources and retention. -/
  | pwrEnter (r : Req)
  /-- PWR_READ (R260). Opcode 0x61 returns the power state and last wake source. -/
  | pwrRead (r : Req)
  /-- OUTEN_SET (R260). Opcode 0x68 sets all masked OUTEN bits or none. -/
  | outenSet (r : Req)
  /-- OUTEN_CLR (R260). Opcode 0x69 clears the masked OUTEN bits. -/
  | outenClr (r : Req)
  /-- OUT_READ (R260). Opcode 0x6A returns OUTEN, OREL_N and standby state. -/
  | outRead (r : Req)
  /-- LOG_READ (R262). Opcode 0x70 returns log records. -/
  | logRead (r : Req)
  /-- LOG_CFG (R262). Opcode 0x71 sets a source's log rate and burst. -/
  | logCfg (r : Req)
  /-- SENSOR_READ (R262). Opcode 0x72 returns sensor readings and clears the clock monitor history bits. -/
  | sensorRead (r : Req)
  /-- ALARM_SUB (R262). Opcode 0x73 opens or closes an alarm subscription. -/
  | alarmSub (r : Req)
  /-- KETTLE_READ (R262). Opcode 0x74 returns Kettle reset information. -/
  | kettleRead (r : Req)
  /-- UPD_BEGIN (R359). Opcode 0x80 opens an update, erasing the inactive slot or resuming an interrupted update. -/
  | updBegin (r : Req)
  /-- UPD_DATA (R262). Opcode 0x81 writes image data at the next offset. -/
  | updData (r : Req)
  /-- UPD_VERIFY (R360). Opcode 0x82 checks the slot's header, signature, digest, SVN and content. -/
  | updVerify (r : Req)
  /-- UPD_ACTIVATE (R361). Opcode 0x83 loads a verified image and switches it in at its safe point. -/
  | updActivate (r : Req)
  /-- UPD_REVERT (R365). Opcode 0x84 makes the other verified slot active again. -/
  | updRevert (r : Req)
  /-- UPD_ABORT (R263). Opcode 0x85 closes the update and marks the inactive slot invalid. -/
  | updAbort (r : Req)
  /-- CAR_CFG (R264). Opcode 0x90 writes the carafe configuration. -/
  | carCfg (r : Req)
  /-- CAR_READ (R264). Opcode 0x91 returns members, roles and tallies. -/
  | carRead (r : Req)
  /-- CAR_HANDOVER (R386). Opcode 0x92 schedules a handover of the outputs to a member at TBS. -/
  | carHandover (r : Req)
  /-- CAR_UBANK (R264). Opcode 0x93 schedules a carafe-wide microcode bank request at TBS. -/
  | carUbank (r : Req)
  /-- OREL_SET (R264). Opcode 0x94 asserts or releases a peer's OREL_N. -/
  | orelSet (r : Req)
  /-- SESS_OPEN (R265). Opcode 0xA0 opens a session and derives its key from the nonces. -/
  | sessOpen (r : Req)
  /-- SESS_CLOSE (R264). Opcode 0xA1 closes a session. -/
  | sessClose (r : Req)
  /-- DBG_CHAL (R369). Opcode 0xA2 returns a debug challenge. -/
  | dbgChal (r : Req)
  /-- DBG_RESP (R369). Opcode 0xA3 verifies a signed response and enters AUTH. -/
  | dbgResp (r : Req)
  /-- SEC_READ (R264). Opcode 0xA4 returns the security state. -/
  | secRead (r : Req)
  /-- KEY_REVOKE (R265). Opcode 0xA5 burns a root-key revocation fuse, refusing the last key. -/
  | keyRevoke (r : Req)
  /-- CAL_CRL (R266). Opcode 0xB0 requests a loop sense-offset calibration. -/
  | calCrl (r : Req)
  /-- CAL_PADC (R266). Opcode 0xB1 requests a PADC core calibration. -/
  | calPadc (r : Req)
  /-- CAL_HADC (R266). Opcode 0xB2 requests an HADC calibration. -/
  | calHadc (r : Req)
  /-- TEST_ESQ (R266). Opcode 0xB3 runs an ESQ self-test as a job. -/
  | testEsq (r : Req)
  /-- TEST_LOCK (R266). Opcode 0xB4 runs a pair's lockstep self-test as a job. -/
  | testLock (r : Req)
  /-- SRAM_OFFLINE (R266). Opcode 0xB5 takes an SRAM bank offline or online. -/
  | sramOffline (r : Req)
  /-- TEST_SRAM (R266). Opcode 0xB6 runs a bank test on an offline bank. -/
  | testSram (r : Req)
  /-- TRK_GEN (R266). Opcode 0xB7 drives a tracker from an edge generator for a number of revolutions. -/
  | trkGen (r : Req)
  /-- GENERATOR_EDGE (R266). The TRK_GEN generator produces an edge for the next wheel entry at the given rate. -/
  | generatorEdge (n : Fin 4)
  /-- JOB_SLOT_TIMEOUT (R252). A job slot is freed 60 s after its job ended. -/
  | jobSlotTimeout (job : Fin 16)
  /-- STAGING_BUFFER_TIMEOUT (R256). 1 s passes with no staging write and the wheel staging buffer's owner is released. -/
  | stagingBufferTimeout
  /-- CORE_INSTRUCTION (R269). An application core executes an RV32IMFC instruction as the RISC-V specifications define. -/
  | coreInstruction (core : Fin 4) (word : Word)
  /-- FENCE (R315). A core waits until every earlier store's write response has returned. -/
  | fence (core : Fin 4)
  /-- FENCE_I (R274). A core invalidates its whole instruction cache. -/
  | fenceI (core : Fin 4)
  /-- WFI (R291). A core clock-gates itself until a wake. -/
  | wfi (core : Fin 4)
  /-- MRET (R289). A core pops a context, restoring it or tail-chaining into an eligible handler. -/
  | mret (core : Fin 4)
  /-- CACHE_OPERATION (R274). A write of dzcmop runs a clean or invalidate over a range or the whole cache. -/
  | cacheOperation (core : Fin 4) (val : Word)
  /-- DZMATT_WRITE (R273). A write of a dzmatt CSR sets an attribute region, or raises an illegal-instruction exception. -/
  | dzmattWrite (core : Fin 4) (k : Fin 8) (val : Word)
  /-- EXCEPTION_TRAP (R288). An exception pushes a context and enters at mtvec. -/
  | exceptionTrap (core : Fin 4) (cause : BitVec 5) (tval : Word)
  /-- INTERRUPT_DELIVERY_COMMIT (R286). A core fetches the handler; the source becomes active and the running level takes its PRIO. -/
  | interruptDeliveryCommit (target : Fin 5)
  /-- CORE_WAKE (R291). A core in WFI or a sleep state is woken by a request with WAKE = 1. -/
  | coreWake (core : Fin 4)
  /-- IRQ_ENSET (R292). A write to IRQC.ENSETw sets source enables. -/
  | irqEnset (w : Fin 8) (bits : Word)
  /-- IRQ_ENCLR (R292). A write to IRQC.ENCLRw clears source enables. -/
  | irqEnclr (w : Fin 8) (bits : Word)
  /-- IRQ_PNDSET (R292). A write to IRQC.PNDSETw sets pending states, raising SGIs. -/
  | irqPndset (w : Fin 8) (bits : Word)
  /-- IRQ_PNDCLR (R292). A write to IRQC.PNDCLRw clears pending states. -/
  | irqPndclr (w : Fin 8) (bits : Word)
  /-- IRQ_TARGET_WRITE (R290). A write of SRCCFG.TARGET moves a pending request to the new target. -/
  | irqTargetWrite (src : Fin 256) (image : Word)
  /-- LOCKSTEP_MISMATCH (R278). The checker finds a difference, an uncorrectable error or a stack overflow; the pair stops in FAULT. -/
  | lockstepMismatch (p : Fin 2) (cause : MismatchCause)
  /-- PAIR_HEARTBEAT (R280). A write of CPR.PAIRHBp restarts the pair's heartbeat timer. -/
  | pairHeartbeat (p : Fin 2)
  /-- PAIR_HEARTBEAT_TIMEOUT (R280). An ACTIVE pair misses its heartbeat and takes FAULT with cause WDOG. -/
  | pairHeartbeatTimeout (p : Fin 2)
  /-- PAIR_POWER_ON (R279). Setting PAIRCTLp.PWR powers the pair into RESET. -/
  | pairPowerOn (p : Fin 2)
  /-- PAIR_POWER_OFF (R279). Clearing PAIRCTLp.PWR takes the pair to OFF. -/
  | pairPowerOff (p : Fin 2)
  /-- PAIR_RUN (R279). Setting PAIRCTLp.RUN releases the pair to BOOT. -/
  | pairRun (p : Fin 2)
  /-- PAIR_RUN_CLEAR (R279). Clearing PAIRCTLp.RUN takes the pair to RESET and releases its locks BROKEN. -/
  | pairRunClear (p : Fin 2)
  /-- PAIR_TEST (R279). Setting PAIRCTLp.TEST starts the 400 µs lockstep self-test. -/
  | pairTest (p : Fin 2)
  /-- PAIR_TEST_COMPLETE (R279). The lockstep self-test ends, writes STRES and returns the pair to RESET. -/
  | pairTestComplete (p : Fin 2) (pass : Bool)
  /-- PAIR_ROLE_WRITE (R279). Pair firmware writes ROLE in BOOT to become ACTIVE or STANDBY. -/
  | pairRoleWrite (p : Fin 2) (role : BitVec 2)
  /-- CKCOMMIT (R281). A write of CPR.CKCOMMIT commits a checkpoint, or is refused with CKREF. -/
  | ckcommit (seq : BitVec 16)
  /-- CKACK (R281). The standby writes CPR.CKACK for the checkpoint it has copied. -/
  | ckack (seq : BitVec 16)
  /-- TKACK (R282). The new active pair writes DPXSTAT.TKACK, completing the takeover. -/
  | tkack (p : Fin 2)
  /-- TAKEOVER_TIMEOUT (R282). TKACK is missing 40,000 tk after the mismatch and the takeover ends in FAULT with cause TKTMO. -/
  | takeoverTimeout
  /-- SCRUB_READ (R297). The scrubber reads and corrects one word of a bank every SDIV cycles. -/
  | scrubRead (b : Fin 12)
  /-- BANK_OFFLINE (R298). A write of BANKCTLb.OFFL takes a bank offline or returns it with zero contents, or is refused while in use. -/
  | bankOffline (b : Fin 12) (offl : Bool)
  /-- BANK_BIST_START (R298). Setting BANKCTLb.BIST starts a march test on an offline bank. -/
  | bankBistStart (b : Fin 12)
  /-- BANK_BIST_DONE (R298). The bank test ends after 40 ms with the bank zeroed and BISTRES written. -/
  | bankBistDone (b : Fin 12) (pass : Bool)
  /-- ACT_BANK_SWITCH (R302). Setting ACT.CTL.SWREQ switches the active access table bank in one cycle. -/
  | actBankSwitch
  /-- MID_REVOKE (R303). Setting a REVOKE bit denies a MID everything and releases its locks. -/
  | midRevoke (mid : Fin 64)
  /-- ARBITER_GRANT (R306). At the end of a burst the arbiter grants the highest-ranked request, or the oldest on a refill grant. -/
  | arbiterGrant (target : Fin 17) (beats : Nat) (raised : List BusReq)
  /-- LOCK_ACQUIRE (R310). A read of LKB.ACQn acquires, waits for, or reports deadlock on a lock. -/
  | lockAcquire (mid : Fin 64) (lock : Fin 64)
  /-- LOCK_TRY (R310). A read of LKB.TRYn acquires a lock if free, without waiting. -/
  | lockTry (mid : Fin 64) (lock : Fin 64)
  /-- LOCK_RELEASE (R311). A write of LKB.RELn by the owner releases the lock to the oldest waiter. -/
  | lockRelease (mid : Fin 64) (lock : Fin 64)
  /-- LOCK_WAIT_TIMEOUT (R314). A registered wait not granted within TMO is removed and TOUT is set. -/
  | lockWaitTimeout (mid : Fin 64)
  /-- DMA_KICK (R325). A write of DMAn.CTL.KICK sets the fetch request of an enabled channel. -/
  | dmaKick (n : Fin 16)
  /-- DMA_RST (R327). A write of DMAn.CTL.RST stops the channel with no write-back and resets CUR. -/
  | dmaRst (n : Fin 16)
  /-- DMA_CLRERR (R325). A write of DMAn.CTL.CLRERR takes the channel from ERROR to IDLE. -/
  | dmaClrerr (n : Fin 16)
  /-- DMA_DESCRIPTOR_FETCH (R325). The channel reads the descriptor at CUR and starts its transfer, goes idle or writes back PARAM. -/
  | dmaDescriptorFetch (n : Fin 16)
  /-- DMA_TRANSFER_COMPLETE (R322). Every write response of a descriptor's transfer has returned and the channel writes back. -/
  | dmaTransferComplete (n : Fin 16)
  /-- DMA_ERROR_RESPONSE (R323). A transfer beat receives an error response; the channel drains and writes back RERR or WERR. -/
  | dmaErrorResponse (n : Fin 16) (write : Bool) (offset : Nat)
  /-- DMA_WRITEBACK_COMPLETE (R322). The descriptor write-back completes; DONEF and DCNT update and the channel fetches again or halts in ERROR. -/
  | dmaWritebackComplete (n : Fin 16) (errResp : Bool)
  /-- QUEUE_PUSH (R330). A write of Qq.PUSH stores an item with a credit, or is rejected, or overwrites in LEGACY_OVW. -/
  | queuePush (mid : Fin 64) (q : Fin 32) (val : Word)
  /-- QUEUE_POP (R329). A read of Qq.POP returns the oldest item, captures POPSTAT and returns a credit. -/
  | queuePop (mid : Fin 64) (q : Fin 32)
  /-- QUEUE_GRANT (R330). A consumer write of Qq.GRANT moves reserved credits to the producer. -/
  | queueGrant (mid : Fin 64) (q : Fin 32) (k : BitVec 15)
  /-- QUEUE_ENABLE (R328). Setting Qq.CFG.EN empties the queue and loads its credits, or is refused. -/
  | queueEnable (q : Fin 32)
  /-- SENSOR_SAMPLE (R335). Every 10 ms PERC triggers SEQ3 and compares its sensor readings with the limits. -/
  | sensorSample
  /-- SENSOR_SEQ_TIMEOUT (R336). SEQ3 has not completed 20 ms after its trigger; PERC logs WARN and marks the readings stale. -/
  | sensorSeqTimeout
  /-- PERC_FAULT_OBSERVE (R338). PERC reads a block's fault status after its interrupt and writes the log record. -/
  | percFaultObserve (ev : LogEvent)
  /-- LOG_RECORD_OFFER (R341). A record is offered to coalescing, incident mode, the rate bucket and the on-chip ring. -/
  | logRecordOffer (ev : LogEvent)
  /-- LOG_ITEM_TAKE (R340). PERC pops an application log item from Q31 and offers it as a record, or discards it as BADITEM. -/
  | logItemTake
  /-- COALESCE_WINDOW_CLOSE (R342). A coalescing window closes 1 s after its first occurrence. -/
  | coalesceWindowClose (slot : Fin 64)
  /-- LOG_BUCKET_REFILL (R341). A source's rate bucket gains tokens up to BURST. -/
  | logBucketRefill (src : Fin 64)
  /-- INCIDENT_INTERVAL (R344). A 10 ms interval ends and PERC decides whether incident mode begins or ends. -/
  | incidentInterval
  /-- INCIDENT_SUMMARY (R344). At the end of each second in incident mode, a summary record is written per source. -/
  | incidentSummary
  /-- FLASH_LOG_COPY (R345). The flash writer copies a pending record whose window has closed, erasing the next sector at the head. -/
  | flashLogCopy
  /-- LOG_LOSS_INCREMENT (R346). A write of PST.LINC increments the selected loss tally. -/
  | logLossIncrement (bits : BitVec 4)
  /-- KETTLE_HEARTBEAT (R349). A write of KTL.HB by MID 15 restarts the Kettle count. -/
  | kettleHeartbeat
  /-- KETTLE_WARN (R349). Half the heartbeat timeout passes; WARN is set and source 255 raised. -/
  | kettleWarn
  /-- KETTLE_RESET (R350). The full timeout passes, or a command or trap demands it, and the Kettle resets PERC alone. -/
  | kettleReset (cause : KettleCause)
  /-- PERC_FIRMWARE_RUN (R350). PERC firmware runs again after a restart, resumes slow commands and writes the missed records. -/
  | percFirmwareRun
  /-- RECOVERY_PAIR_RESTART (R353). PERC restarts a failed pair with a self-test under RPOL. -/
  | recoveryPairRestart (p : Fin 2)
  /-- RECOVERY_ESQ_SPARE (R353). PERC moves a faulted ESQ's group to a spare and starts it. -/
  | recoveryEsqSpare (n : Fin 8)
  /-- RECOVERY_CAE_RESTART (R353). PERC writes FCLR and RUN to restart a faulted CAE. -/
  | recoveryCaeRestart
  /-- PEER_OREL_ASSERT (R355). PERC asserts a peer's OREL_N after a peer safe-mode coast or 200 ms of peer heartbeat absence. -/
  | peerOrelAssert (m : Fin 4)
  /-- SLOT_ERASE_DONE (R359). The background erase of an inactive flash slot completes. -/
  | slotEraseDone (comp : Fin 9) (unit : BitVec 8)
  /-- TRIAL_PERIOD_END (R363). Activated PERC firmware runs 10 s without a Kettle reset and becomes ACTIVE. -/
  | trialPeriodEnd
  /-- ROM_BOOT (R368). The ROM verifies and loads ACT bank 0 or the fallback bank, updates debug fuses and verifies PERC firmware. -/
  | romBoot
  /-- RING_ENABLE (R377). Setting RING.CTL.EN starts link training. -/
  | ringEnable
  /-- RING_DISABLE (R377). Clearing RING.CTL.EN takes the member to OFF, refused while ACTIVE in active/standby mode. -/
  | ringDisable
  /-- LINK_TRAINED (R372). A link reaches comma alignment, and its delay is measured and written to LDLY. -/
  | linkTrained (link : RingLink) (delay : BitVec 12)
  /-- LINK_DOWN (R372). A link loses alignment or delivers four bad frames and retrains. -/
  | linkDown (link : RingLink)
  /-- RING_FRAME_START (R374). At each 128 tk boundary the ring master starts a frame on both outbound links. -/
  | ringFrameStart
  /-- RING_FRAME_RECEIVE (R374). A member receives a frame, disciplines TB, writes its slot and forwards, turns or absorbs it. -/
  | ringFrameReceive (link : RingDir) (frame : RingFrame)
  /-- FRAME_CLOSE (R375). At B + 320 a member closes frame B, judging slots, votes, losses and member state transitions. -/
  | frameClose
  /-- HANDOVER_AT_TBS (R386). TB reaches TBS of a HANDOVER; the ACTIVE member releases the pins and the target drives. -/
  | handoverAtTbs
  /-- RING_UBANK_START (R264). TB reaches TBS of a ring UBANK; each member sets UBREQ on the ESQs of UBMSK. -/
  | ringUbankStart
  /-- ORELD_WRITE (R384). A write of RING.OREL drives or releases the ORELDm_N outputs. -/
  | oreldWrite (val : BitVec 4)
  /-- OREL_N_ASSERT (R125). OREL_N is asserted; every TO and gate pin goes to high impedance, and an ACTIVE member goes to STANDBY. -/
  | orelNAssert
  /-- OREL_N_RELEASE (R425). OREL_N rises and drive resumes as R125 and R152 decide. -/
  | orelNRelease
  /-- POWER_STATE_REQUEST (R399). A write of CPR.PWRCTL.REQ starts entry to SIMMER, WARM, STEEP or CELLAR. -/
  | powerStateRequest (image : Word)
  /-- POWER_ENTRY_COMPLETE (R399). The last entry step completes the power state, or aborts with ABORT. -/
  | powerEntryComplete
  /-- WAKE_REQUEST (R401). An enabled wake source reaches CPR and the exit sequence starts. -/
  | wakeRequest (src : Fin 5)
  /-- POWER_EXIT_COMPLETE (R398). The exit sequence reaches its end point and the device is in RUN. -/
  | powerExitComplete
  /-- AON_TIMER_EXPIRE (R401). AON.TMR reaches zero and requests a wake. -/
  | aonTimerExpire
  /-- POWER_ON_RESET (R402). VAON falls below 0.78 V and everything is reset. -/
  | powerOnReset
  /-- UNDERVOLTAGE_RESET (R393). VSUP, VCORE or VIO falls below its threshold for 1 µs and a device reset follows. -/
  | undervoltageReset (rail : Fin 4)
  /-- RESET_PIN (R402). RESET_N is low for 1 µs and a device reset follows. -/
  | resetPin
  /-- SOFTWARE_RESET (R402). PERC writes CPR.SWRST.KEY = 0xA5A5 and a device reset follows. -/
  | softwareReset
  /-- DEBUG_RESET (R402). A debug reset in OPEN or AUTH causes a device reset. -/
  | debugReset
  /-- STARTUP_SEQUENCE (R408). After reset release the rails, clocks, angle domain, ACT, firmware, cold start and pairs come up in order. -/
  | startupSequence (step : Fin 6)
  /-- PLL_LOCK (R394). A PLL achieves lock and its clocks run. -/
  | pllLock (pll : Fin 3)
  /-- RAIL_WINDOW_VIOLATION (R393). A rail stays outside its window for 10 µs; MONSTAT.RAIL is set and source 243 raised. -/
  | railWindowViolation (rail : Fin 5)
  /-- VSUP_LOW_WARNING (R393). VSUP stays below 4.45 V for 1 µs; VLOW is set and source 246 raised. -/
  | vsupLowWarning
  /-- CURRENT_LIMIT (R393). VSUP current stays above LIM for 100 µs; ILIM is set and source 245 raised. -/
  | currentLimit
  /-- PLLS_LOSS_OF_LOCK (R395). PLLS loses lock; cores and CAE stop, pairs take RESET and the coast condition holds. -/
  | pllsLossOfLock
  /-- PLLT_LOSS_OF_LOCK (R395). PLLT loses lock and the angle domain is reset. -/
  | plltLossOfLock
  /-- ANGLE_DOMAIN_RESET_RELEASE (R407). PLLT relocks and the angle domain leaves reset; PERC logs and reapplies the images. -/
  | angleDomainResetRelease
  /-- PLLA_LOSS_OF_LOCK (R395). PLLA loses lock; HADC pauses, trace samples read 0 and PADC calibration fails. -/
  | pllaLossOfLock
  /-- CRYSTAL_LOSS (R395). The crystal shows no edge for 1 µs and the PLLs hold their frequency. -/
  | crystalLoss
  /-- CRYSTAL_HOLDOVER_EXPIRE (R395). 10 ms after crystal loss the PLLs lose lock. -/
  | crystalHoldoverExpire
  /-- MCLK_OUT_OF_RANGE (R395). MCLK is outside ±6 % for 100 µs and its monitor flags it. -/
  | mclkOutOfRange
  /-- AONCLK_OUT_OF_RANGE (R395). AONCLK is outside ±10 % for 10 ms; it is flagged and CPR switches to the RC. -/
  | aonclkOutOfRange
  /-- PSPI_LIST_START (R417). A software write or GPT compare event starts a PSPI transfer list, or is dropped with TOVR. -/
  | pspiListStart (p : Fin 2)
  /-- PSPI_LIST_DONE (R417). A PSPI transfer list completes. -/
  | pspiListDone (p : Fin 2)
  /-- SENT_MESSAGE_RECEIVE (R417). A SENT message is received and stamped with TB, or discarded for CRC or calibration error. -/
  | sentMessageReceive (p : Fin 4) (msg : SentMsg)
  /-- I2C_BUS_STUCK (R417). The I2C bus is held low for 35 ms and is released with nine clocks and a STOP. -/
  | i2cBusStuck
  /-- OSPI_XIP_SUSPEND (R417). An XIP read during a program or erase suspends the operation. -/
  | ospiXipSuspend
  /-- TRACE_OVERFLOW (R419). The trace buffer overflows; packets are discarded until 1 KiB is free and an OVERRUN marker is sent. -/
  | traceOverflow (discarded : BitVec 32)
  /-- JTAG_TAP_RESET (R417). TRST_N or power-on reset puts the TAP in Test-Logic-Reset. -/
  | jtagTapReset
  /-- FAILED_READ_ACCESS (R295). A bus read that is unmapped, misaligned, denied by ACT, to an offline bank or meeting an uncorrectable error returns zero with an error response, is recorded in BERR0/VREC0 and raises source 254 or 252. -/
  | failedReadAccess (mid : Fin 64) (addr : Word) (size : AccSize)
  /-- MEMORY_BIT_ERROR (R296). A single-bit or uncorrectable error arises in a SECDED- or parity-protected memory word. -/
  | memoryBitError (addr : ErrorSite) (uncorrectable : Bool)
  /-- VSUP_RAMP_THRESHOLD (R424). VSUP crosses 1.5 V or 3.0 V, changing whether the TO and gate pins are pulled down and whether OREL_N is honoured. -/
  | vsupRampThreshold (mv : BitVec 16)
  /-- CLOCK_RESTORED (R395). The crystal, MCLK or AONCLK returns within its monitored range and its CLKSTAT.OK bit sets again. -/
  | clockRestored (clk : Fin 6)
  /-- DEBUG_HALT (R369). In OPEN or AUTH the debug port halts a core, stopping its execution and, for a pair in service, its heartbeat. -/
  | debugHalt (core : Fin 4)
  /-- DEBUG_STEP (R369). In OPEN or AUTH the debug port makes a halted core execute one instruction. -/
  | debugStep (core : Fin 4) (word : Word)
  /-- DBG_CHALLENGE_EXPIRY (R369). A debug challenge becomes invalid 60 s after DBG_CHAL issued it. -/
  | dbgChallengeExpiry
  /-- VERIFY_JOB_FINAL (R360). PERC finishes the signature, digest, rollback and content checks of UPD_VERIFY or UPD_REVERT and writes the job's final status and slot state. -/
  | verifyJobFinal (job : Fin 16)
  /-- ETH_FRAME_TRANSMIT (R414). The MAC sends a queued Gnorum reply, hardware reply or application frame and completes its transmit descriptor. -/
  | ethFrameTransmit (p : Fin 2)
  /-- CAN_FRAME_TRANSMIT (R415). A CAN port wins arbitration and sends a queued Gnorum reply or application frame. -/
  | canFrameTransmit (p : Fin 4)
  deriving DecidableEq, Repr

end Sys2Proof
end

