-- ==== Sys2Proof/Decode.lean ====
section
/-! DEFINITION. The commands that a word of the table spells. The table gives no row any bits: a command reaches the block as a
bus access, a frame, a pin event or a passing of time, so no word spells one. -/

namespace Sys2Proof

/-- The command that the `nbits` bits `w` spell: none, since the table lays down no bits for any row. -/
def decodeTableWord (_nbits _w : Nat) : Option Instr := none

/-- A field of `k` bits at bit `lo` of a microcode word. -/
def ucodeField (w lo k : Nat) : Nat := w / 2 ^ lo % 2 ^ k

/-- A register number of a microcode word: DST at bit 22, SA at bit 18, SB at bit 14 (R136). -/
def ucodeReg (w lo : Nat) : Fin 16 := ⟨ucodeField w lo 4, Nat.mod_lt _ (by decide)⟩

/-- Whether a microcode word breaks its format: a field marked 0 that is not (R136, R137). -/
def ucodeBroken (w : Nat) : Bool :=
  let op := ucodeField w 26 6
  bif op < 0x0A || op == 0x2A || op == 0x30 || op == 0x32 || op == 0x35 || op == 0x36 then
    ucodeField w 0 14 != 0 || (op == 0x2A && (ucodeField w 22 4 != 0 || ucodeField w 14 4 != 0))
  else bif op == 0x17 then ucodeField w 18 4 != 0
  else bif 0x20 ≤ op && op < 0x28 then ucodeField w 11 7 != 0
  else (op == 0x28 || op == 0x29) && ucodeField w 11 15 != 0

/-- The command that the microcode word `w` of sequencer `n` spells: the fields of R136 and the operations of R137; a word that is no
instruction is the illegal one of R138. -/
def ucodeInstr (n : Fin 8) (w : Nat) : Instr :=
  let d := ucodeReg w 22
  let a := ucodeReg w 18
  let b := ucodeReg w 14
  let imm := BitVec.ofNat 18 w
  let tgt := BitVec.ofNat 11 w
  bif ucodeBroken w then .illegalInstruction n (BitVec.ofNat 32 w)
  else match ucodeField w 26 6 with
    | 0x00 => .esqNop n
    | 0x01 => .esqAdd n d a b
    | 0x02 => .esqSub n d a b
    | 0x03 => .esqAnd n d a b
    | 0x04 => .esqOr n d a b
    | 0x05 => .esqXor n d a b
    | 0x06 => .esqShl n d a b
    | 0x07 => .esqShr n d a b
    | 0x08 => .esqSra n d a b
    | 0x09 => .esqMul n d a b
    | 0x10 => .esqAddi n d a imm
    | 0x11 => .esqAndi n d a imm
    | 0x12 => .esqOri n d a imm
    | 0x13 => .esqXori n d a imm
    | 0x14 => .esqShli n d a imm
    | 0x15 => .esqShri n d a imm
    | 0x16 => .esqSrai n d a imm
    | 0x17 => .esqLui n d imm
    | 0x18 => .esqLd n d a imm
    | 0x19 => .esqSt n d a imm
    | 0x1A => .esqLde n d a imm
    | 0x1B => .esqAbr n d imm
    | 0x1C => .esqTbr n d imm
    | 0x1D => .esqFlg n d imm
    | 0x1E => .esqEres n d
    | 0x20 => .esqBeq n d a tgt
    | 0x21 => .esqBne n d a tgt
    | 0x22 => .esqBlt n d a tgt
    | 0x23 => .esqBge n d a tgt
    | 0x24 => .esqBltu n d a tgt
    | 0x25 => .esqBgeu n d a tgt
    | 0x28 => .esqJmp n tgt
    | 0x29 => .esqCall n tgt
    | 0x2A => .esqJr n a
    | 0x30 => .esqWpass n
    | 0x31 => .esqEval n imm
    | 0x32 => .esqEdrain n
    | 0x33 => .esqChsafe n imm
    | 0x34 => .esqSwi n imm
    | 0x35 => .esqHalt n
    | 0x36 => .esqWtb n a
    | _ => .illegalInstruction n (BitVec.ofNat 32 w)

end Sys2Proof
end

