-- ==== Sys2Proof/Config.lean ====
section
/-! DEFINITION. What the spec leaves open: the free values. Each constant here is opaque and has no body, so that no proof can
see a value of it; a statement that mentions one holds for every value. The meanings apply `freeWord` and its kin to the
counter `State.draws`, which each use advances, or to the operands that the value depends on. -/

namespace Sys2Proof.Config

/-- A word on which the spec lays down no value: the n-th such word drawn. -/
opaque freeWord : Nat → Word

/-- A number on which the spec lays down no value. -/
opaque freeNat : Nat → Nat

/-- A condition on which the spec lays down no value. -/
opaque freeBool : Nat → Bool

/-- Whether the kernels of the combustion analysis round the cosine and the sine of `n` times 0.05 degrees, and a power of two binary32
numbers, up or down: the spec states no rounding of these functions (R182, R183). -/
opaque cosUp : Int → Bool
opaque sinUp : Int → Bool
opaque powUp : Word → Word → Bool

/-- The power of operands of which the spec states none: a base that is not positive, an infinity, or no number (R183). -/
opaque powF : Word → Word → Word

/-- The fixed-point value recorded for a result that is not a number: the spec states none (R185). -/
opaque nanFixed : Word → Int

/-- The network parameters stored in flash (R414). -/
opaque macAddress : BitVec 48
opaque ipAddress : Word
opaque ipMask : Word
opaque ipGateway : Word

/-- How many of the 32 acceptance filters of CAN port `p` an identifier matches; the spec gives no register of a filter (R415). -/
opaque canMatches : Nat → BitVec 29 → Bool → Nat

end Sys2Proof.Config
end

