-- ==== Sys2Proof/Machine/Regs.lean ====
section
/-! DEFINITION. The memory-mapped registers of the block: the address of each register (`Reg.*`), each field of it (`Fields.*`),
and the table of access codes and reset values that the bus applies (R10 to R13). Base addresses are those of R294, offsets,
fields, access codes and reset values those of each chapter's register tables. -/

namespace Sys2Proof.Machine

/-- One register, or one array of registers, of the register tables: `dims` lists (count, stride) from the widest stride
to the narrowest, and each mask holds the bits of the fields that carry that access code (R12). -/
structure RegDesc where
  base : Nat
  dims : List (Nat × Nat)
  reset : Nat
  rw : Nat
  w1s : Nat
  w1c : Nat
  wo : Nat
  rc : Nat
  rwl : Nat
  deriving DecidableEq, Repr

namespace Reg

/-! ### AT -/
/-- AT.ANG (R35, 02_angle_units_and_wheel_tables.md). -/
def AT_ANG (n : Nat) : Nat := 0x50000000 + n * 0x10000
/-- AT.PHASEL (R35, 02_angle_units_and_wheel_tables.md). -/
def AT_PHASEL (n : Nat) : Nat := 0x50000004 + n * 0x10000
/-- AT.PHASEH (R35, 02_angle_units_and_wheel_tables.md). -/
def AT_PHASEH (n : Nat) : Nat := 0x50000008 + n * 0x10000
/-- AT.RATE (R35, 02_angle_units_and_wheel_tables.md). -/
def AT_RATE (n : Nat) : Nat := 0x5000000C + n * 0x10000
/-- AT.WCFG (R39, 02_angle_units_and_wheel_tables.md). -/
def AT_WCFG (n : Nat) : Nat := 0x50000100 + n * 0x10000
/-- AT.WDESC0 (R39, 02_angle_units_and_wheel_tables.md). -/
def AT_WDESC0 (n : Nat) : Nat := 0x50000104 + n * 0x10000
/-- AT.WDESC1 (R39, 02_angle_units_and_wheel_tables.md). -/
def AT_WDESC1 (n : Nat) : Nat := 0x50000108 + n * 0x10000
/-- AT.SCFG (R82, 04_synchronisation.md). -/
def AT_SCFG (n : Nat) : Nat := 0x50000200 + n * 0x10000
/-- AT.CAMCFG (R82, 04_synchronisation.md). -/
def AT_CAMCFG (n : Nat) : Nat := 0x50000204 + n * 0x10000
/-- AT.SSTAT (R82, 04_synchronisation.md). -/
def AT_SSTAT (n : Nat) : Nat := 0x50000208 + n * 0x10000
/-- AT.SCTL (R82, 04_synchronisation.md). -/
def AT_SCTL (n : Nat) : Nat := 0x5000020C + n * 0x10000
/-- AT.SFLT (R82, 04_synchronisation.md). -/
def AT_SFLT (n : Nat) : Nat := 0x50000210 + n * 0x10000
/-- AT.RVOFS (R82, 04_synchronisation.md). -/
def AT_RVOFS (n : Nat) : Nat := 0x50000214 + n * 0x10000
/-- AT.CTL (R102, 05_angle_prediction.md). -/
def AT_CTL (n : Nat) : Nat := 0x50000010 + n * 0x10000
/-- AT.ERRINFO (R102, 05_angle_prediction.md). -/
def AT_ERRINFO (n : Nat) : Nat := 0x50000014 + n * 0x10000
/-- AT.ACC (R102, 05_angle_prediction.md). -/
def AT_ACC (n : Nat) : Nat := 0x50000018 + n * 0x10000
/-- AT.TPER (R102, 05_angle_prediction.md). -/
def AT_TPER (n : Nat) : Nat := 0x50000040 + n * 0x10000
/-- AT.TCNT (R102, 05_angle_prediction.md). -/
def AT_TCNT (n : Nat) : Nat := 0x50000044 + n * 0x10000
/-- AT.PEXP (R102, 05_angle_prediction.md). -/
def AT_PEXP (n : Nat) : Nat := 0x50000050 + n * 0x10000
/-- AT.NGAP0 (R102, 05_angle_prediction.md). -/
def AT_NGAP0 (n : Nat) : Nat := 0x5000010C + n * 0x10000
/-- AT.NGAP1 (R102, 05_angle_prediction.md). -/
def AT_NGAP1 (n : Nat) : Nat := 0x50000110 + n * 0x10000
/-- AT.PCFG (R102, 05_angle_prediction.md). -/
def AT_PCFG (n : Nat) : Nat := 0x50000300 + n * 0x10000
/-- AT.GSPD (R102, 05_angle_prediction.md). -/
def AT_GSPD (n : Nat) : Nat := 0x50000304 + n * 0x10000
/-- AT.WIN0 (R102, 05_angle_prediction.md). -/
def AT_WIN0 (n : Nat) : Nat := 0x50000308 + n * 0x10000
/-- AT.WIN1 (R102, 05_angle_prediction.md). -/
def AT_WIN1 (n : Nat) : Nat := 0x5000030C + n * 0x10000
/-- AT.WIN2 (R102, 05_angle_prediction.md). -/
def AT_WIN2 (n : Nat) : Nat := 0x50000310 + n * 0x10000
/-- AT.WREF (R102, 05_angle_prediction.md). -/
def AT_WREF (n : Nat) : Nat := 0x50000314 + n * 0x10000
/-- AT.FF (R102, 05_angle_prediction.md). -/
def AT_FF (n : Nat) : Nat := 0x50000318 + n * 0x10000
/-- AT.PSTAT (R102, 05_angle_prediction.md). -/
def AT_PSTAT (n : Nat) : Nat := 0x5000031C + n * 0x10000
/-- AT.CFLT (R102, 05_angle_prediction.md). -/
def AT_CFLT (n : Nat) : Nat := 0x50000320 + n * 0x10000
/-- AT.CFLTEN (R102, 05_angle_prediction.md). -/
def AT_CFLTEN (n : Nat) : Nat := 0x50000324 + n * 0x10000
/-- AT.CCNT0 (R102, 05_angle_prediction.md). -/
def AT_CCNT0 (n : Nat) : Nat := 0x50000328 + n * 0x10000
/-- AT.CCNT1 (R102, 05_angle_prediction.md). -/
def AT_CCNT1 (n : Nat) : Nat := 0x5000032C + n * 0x10000
/-- AT.WCYL (R102, 05_angle_prediction.md). -/
def AT_WCYL (n i : Nat) : Nat := 0x50000380 + n * 0x10000 + i * 0x4
/-- AT.WVAL (R102, 05_angle_prediction.md). -/
def AT_WVAL (n : Nat) : Nat := 0x500003E0 + n * 0x10000
/-- AT.LCFG (R102, 05_angle_prediction.md). -/
def AT_LCFG (n : Nat) : Nat := 0x50000400 + n * 0x10000
/-- AT.LSTAT (R102, 05_angle_prediction.md). -/
def AT_LSTAT (n : Nat) : Nat := 0x50000404 + n * 0x10000
/-- AT.PSCFG (R102, 05_angle_prediction.md). -/
def AT_PSCFG (n : Nat) : Nat := 0x50000500 + n * 0x10000
/-- AT.PSPTR (R102, 05_angle_prediction.md). -/
def AT_PSPTR (n : Nat) : Nat := 0x50000504 + n * 0x10000

/-! ### TI -/
/-- TI.CFG (R47, 03_edge_inputs_and_vr_front_ends.md). -/
def TI_CFG (n : Nat) : Nat := 0x50008000 + n * 0x100
/-- TI.FLT (R51, 03_edge_inputs_and_vr_front_ends.md). -/
def TI_FLT (n : Nat) : Nat := 0x50008004 + n * 0x100
/-- TI.DWCFG (R51, 03_edge_inputs_and_vr_front_ends.md). -/
def TI_DWCFG (n : Nat) : Nat := 0x50008008 + n * 0x100
/-- TI.STAT (R51, 03_edge_inputs_and_vr_front_ends.md). -/
def TI_STAT (n : Nat) : Nat := 0x5000800C + n * 0x100
/-- TI.VRCFG (R56, 03_edge_inputs_and_vr_front_ends.md). -/
def TI_VRCFG (n : Nat) : Nat := 0x50008010 + n * 0x100
/-- TI.VRTO (R56, 03_edge_inputs_and_vr_front_ends.md). -/
def TI_VRTO (n : Nat) : Nat := 0x50008014 + n * 0x100
/-- TI.VRSTAT (R56, 03_edge_inputs_and_vr_front_ends.md). -/
def TI_VRSTAT (n : Nat) : Nat := 0x50008018 + n * 0x100

/-! ### CAP -/
/-- CAP.TSL (R61, 03_edge_inputs_and_vr_front_ends.md). -/
def CAP_TSL (n : Nat) : Nat := 0x50008040 + n * 0x100
/-- CAP.TSH (R61, 03_edge_inputs_and_vr_front_ends.md). -/
def CAP_TSH (n : Nat) : Nat := 0x50008044 + n * 0x100
/-- CAP.INFO (R61, 03_edge_inputs_and_vr_front_ends.md). -/
def CAP_INFO (n : Nat) : Nat := 0x50008048 + n * 0x100
/-- CAP.STAT (R61, 03_edge_inputs_and_vr_front_ends.md). -/
def CAP_STAT (n : Nat) : Nat := 0x5000804C + n * 0x100

/-! ### SCH -/
/-- SCH.BCTL (R127, 06_event_scheduling.md). -/
def SCH_BCTL : Nat := 0x5006A000
/-- SCH.BSTAT (R127, 06_event_scheduling.md). -/
def SCH_BSTAT : Nat := 0x5006A004
/-- SCH.ERRINFO (R127, 06_event_scheduling.md). -/
def SCH_ERRINFO : Nat := 0x5006A008
/-- SCH.BANG (R127, 06_event_scheduling.md). -/
def SCH_BANG (i : Nat) : Nat := 0x5006A010 + i * 0x4
/-- SCH.CREF (R127, 06_event_scheduling.md). -/
def SCH_CREF (i : Nat) : Nat := 0x5006A040 + i * 0x4
/-- SCH.HT (R127, 06_event_scheduling.md). -/
def SCH_HT (i : Nat) : Nat := 0x5006A0A0 + i * 0x8
/-- SCH.HA (R127, 06_event_scheduling.md). -/
def SCH_HA (i : Nat) : Nat := 0x5006A0A4 + i * 0x8
/-- SCH.OUTENL (R127, 06_event_scheduling.md). -/
def SCH_OUTENL : Nat := 0x5006A0C0
/-- SCH.OUTENH (R127, 06_event_scheduling.md). -/
def SCH_OUTENH : Nat := 0x5006A0C4
/-- SCH.CHCFG (R127, 06_event_scheduling.md). -/
def SCH_CHCFG (i : Nat) : Nat := 0x5006A800 + i * 0x20
/-- SCH.MAXDUR (R127, 06_event_scheduling.md). -/
def SCH_MAXDUR (i : Nat) : Nat := 0x5006A804 + i * 0x20
/-- SCH.WIDTH (R127, 06_event_scheduling.md). -/
def SCH_WIDTH (i : Nat) : Nat := 0x5006A808 + i * 0x20
/-- SCH.WLO (R127, 06_event_scheduling.md). -/
def SCH_WLO (i : Nat) : Nat := 0x5006A80C + i * 0x20
/-- SCH.WHI (R127, 06_event_scheduling.md). -/
def SCH_WHI (i : Nat) : Nat := 0x5006A810 + i * 0x20
/-- SCH.CHSTAT (R127, 06_event_scheduling.md). -/
def SCH_CHSTAT (i : Nat) : Nat := 0x5006A814 + i * 0x20

/-! ### ESQ -/
/-- ESQ.CTL (R148, 07_event_sequencers.md). -/
def ESQ_CTL (n : Nat) : Nat := 0x50070000 + n * 0x1000
/-- ESQ.CFG (R148, 07_event_sequencers.md). -/
def ESQ_CFG (n : Nat) : Nat := 0x50070004 + n * 0x1000
/-- ESQ.STAT (R148, 07_event_sequencers.md). -/
def ESQ_STAT (n : Nat) : Nat := 0x50070008 + n * 0x1000
/-- ESQ.FLAGS (R148, 07_event_sequencers.md). -/
def ESQ_FLAGS (n : Nat) : Nat := 0x5007000C + n * 0x1000
/-- ESQ.OWN (R148, 07_event_sequencers.md). -/
def ESQ_OWN (n : Nat) : Nat := 0x50070010 + n * 0x1000
/-- ESQ.EVRNG (R148, 07_event_sequencers.md). -/
def ESQ_EVRNG (n : Nat) : Nat := 0x50070014 + n * 0x1000
/-- ESQ.FLT (R148, 07_event_sequencers.md). -/
def ESQ_FLT (n : Nat) : Nat := 0x50070018 + n * 0x1000
/-- ESQ.INTEN (R148, 07_event_sequencers.md). -/
def ESQ_INTEN (n : Nat) : Nat := 0x5007001C + n * 0x1000
/-- ESQ.PERF (R148, 07_event_sequencers.md). -/
def ESQ_PERF (n : Nat) : Nat := 0x50070020 + n * 0x1000
/-- ESQ.ERRINFO (R148, 07_event_sequencers.md). -/
def ESQ_ERRINFO (n : Nat) : Nat := 0x50070024 + n * 0x1000
/-- ESQ.GP (R148, 07_event_sequencers.md). -/
def ESQ_GP (n i : Nat) : Nat := 0x50070040 + n * 0x1000 + i * 0x4
/-- ESQ.LDM (R148, 07_event_sequencers.md). -/
def ESQ_LDM (n i : Nat) : Nat := 0x50070400 + n * 0x1000 + i * 0x4

/-! ### CSE -/
/-- CSE.CTL (R171, 08_injector_current_shaping.md). -/
def CSE_CTL (n : Nat) : Nat := 0x50090000 + n * 0x1000
/-- CSE.STAT (R171, 08_injector_current_shaping.md). -/
def CSE_STAT (n : Nat) : Nat := 0x50090004 + n * 0x1000
/-- CSE.ERRINFO (R171, 08_injector_current_shaping.md). -/
def CSE_ERRINFO (n : Nat) : Nat := 0x50090008 + n * 0x1000
/-- CSE.EVT (R171, 08_injector_current_shaping.md). -/
def CSE_EVT (n : Nat) : Nat := 0x5009000C + n * 0x1000
/-- CSE.INTEN (R171, 08_injector_current_shaping.md). -/
def CSE_INTEN (n : Nat) : Nat := 0x50090010 + n * 0x1000
/-- CSE.RBASE (R171, 08_injector_current_shaping.md). -/
def CSE_RBASE (n : Nat) : Nat := 0x50090014 + n * 0x1000
/-- CSE.RCFG (R171, 08_injector_current_shaping.md). -/
def CSE_RCFG (n : Nat) : Nat := 0x50090018 + n * 0x1000
/-- CSE.RWIDX (R171, 08_injector_current_shaping.md). -/
def CSE_RWIDX (n : Nat) : Nat := 0x5009001C + n * 0x1000
/-- CSE.RRIDX (R171, 08_injector_current_shaping.md). -/
def CSE_RRIDX (n : Nat) : Nat := 0x50090020 + n * 0x1000

/-! ### CRL -/
/-- CRL.CFG (R171, 08_injector_current_shaping.md). -/
def CRL_CFG (k : Nat) : Nat := 0x50098000 + k * 0x100
/-- CRL.CTL (R171, 08_injector_current_shaping.md). -/
def CRL_CTL (k : Nat) : Nat := 0x50098004 + k * 0x100
/-- CRL.STAT (R171, 08_injector_current_shaping.md). -/
def CRL_STAT (k : Nat) : Nat := 0x50098008 + k * 0x100
/-- CRL.FLT (R171, 08_injector_current_shaping.md). -/
def CRL_FLT (k : Nat) : Nat := 0x5009800C + k * 0x100
/-- CRL.LIM (R171, 08_injector_current_shaping.md). -/
def CRL_LIM (k : Nat) : Nat := 0x50098010 + k * 0x100
/-- CRL.DTLIM (R171, 08_injector_current_shaping.md). -/
def CRL_DTLIM (k : Nat) : Nat := 0x50098014 + k * 0x100
/-- CRL.IOFS (R171, 08_injector_current_shaping.md). -/
def CRL_IOFS (k : Nat) : Nat := 0x50098018 + k * 0x100
/-- CRL.TALLY (R171, 08_injector_current_shaping.md). -/
def CRL_TALLY (k : Nat) : Nat := 0x5009801C + k * 0x100
/-- CRL.LRES0 (R171, 08_injector_current_shaping.md). -/
def CRL_LRES0 (k : Nat) : Nat := 0x50098020 + k * 0x100
/-- CRL.LRES1 (R171, 08_injector_current_shaping.md). -/
def CRL_LRES1 (k : Nat) : Nat := 0x50098024 + k * 0x100
/-- CRL.LRES2 (R171, 08_injector_current_shaping.md). -/
def CRL_LRES2 (k : Nat) : Nat := 0x50098028 + k * 0x100
/-- CRL.LRES3 (R171, 08_injector_current_shaping.md). -/
def CRL_LRES3 (k : Nat) : Nat := 0x5009802C + k * 0x100

/-! ### PADC -/
/-- PADC.CFG (R192, 09_combustion_analysis.md). -/
def PADC_CFG : Nat := 0x40070000
/-- PADC.WOFS (R192, 09_combustion_analysis.md). -/
def PADC_WOFS : Nat := 0x40070004
/-- PADC.LOAD (R192, 09_combustion_analysis.md). -/
def PADC_LOAD : Nat := 0x40070008
/-- PADC.STAT (R192, 09_combustion_analysis.md). -/
def PADC_STAT : Nat := 0x40070010
/-- PADC.ERRINFO (R192, 09_combustion_analysis.md). -/
def PADC_ERRINFO : Nat := 0x40070014
/-- PADC.CAL (R192, 09_combustion_analysis.md). -/
def PADC_CAL : Nat := 0x4007000C
/-- PADC.CORE (R192, 09_combustion_analysis.md). -/
def PADC_CORE (i : Nat) : Nat := 0x40070020 + i * 0x4
/-- PADC.CYL (R192, 09_combustion_analysis.md). -/
def PADC_CYL (i : Nat) : Nat := 0x40070100 + i * 0x4

/-! ### CAE -/
/-- CAE.CTL (R192, 09_combustion_analysis.md). -/
def CAE_CTL : Nat := 0x500A0000
/-- CAE.STAT (R192, 09_combustion_analysis.md). -/
def CAE_STAT : Nat := 0x500A0004
/-- CAE.ERRINFO (R192, 09_combustion_analysis.md). -/
def CAE_ERRINFO : Nat := 0x500A0008
/-- CAE.STAT2 (R192, 09_combustion_analysis.md). -/
def CAE_STAT2 : Nat := 0x500A000C
/-- CAE.EVT (R192, 09_combustion_analysis.md). -/
def CAE_EVT : Nat := 0x500A0010
/-- CAE.INTEN (R192, 09_combustion_analysis.md). -/
def CAE_INTEN : Nat := 0x500A0014
/-- CAE.PEG (R192, 09_combustion_analysis.md). -/
def CAE_PEG : Nat := 0x500A0040
/-- CAE.KWIN (R192, 09_combustion_analysis.md). -/
def CAE_KWIN : Nat := 0x500A0048
/-- CAE.RQCFG (R192, 09_combustion_analysis.md). -/
def CAE_RQCFG : Nat := 0x500A004C
/-- CAE.FF (R192, 09_combustion_analysis.md). -/
def CAE_FF : Nat := 0x500A0050
/-- CAE.PHCFG (R192, 09_combustion_analysis.md). -/
def CAE_PHCFG : Nat := 0x500A0058
/-- CAE.PHGAIN (R192, 09_combustion_analysis.md). -/
def CAE_PHGAIN : Nat := 0x500A005C
/-- CAE.PHLIM (R192, 09_combustion_analysis.md). -/
def CAE_PHLIM : Nat := 0x500A0060
/-- CAE.PHSTEP (R192, 09_combustion_analysis.md). -/
def CAE_PHSTEP : Nat := 0x500A0064
/-- CAE.TALLY (R192, 09_combustion_analysis.md). -/
def CAE_TALLY : Nat := 0x500A0068
/-- CAE.CYLW0 (R192, 09_combustion_analysis.md). -/
def CAE_CYLW0 (i : Nat) : Nat := 0x500A0100 + i * 0x10
/-- CAE.CYLW1 (R192, 09_combustion_analysis.md). -/
def CAE_CYLW1 (i : Nat) : Nat := 0x500A0104 + i * 0x10
/-- CAE.CYLW2 (R192, 09_combustion_analysis.md). -/
def CAE_CYLW2 (i : Nat) : Nat := 0x500A0108 + i * 0x10
/-- CAE.CYLW3 (R192, 09_combustion_analysis.md). -/
def CAE_CYLW3 (i : Nat) : Nat := 0x500A010C + i * 0x10
/-- CAE.BORE (R192, 09_combustion_analysis.md). -/
def CAE_BORE : Nat := 0x500A0020
/-- CAE.STROKE (R192, 09_combustion_analysis.md). -/
def CAE_STROKE : Nat := 0x500A0024
/-- CAE.ROD (R192, 09_combustion_analysis.md). -/
def CAE_ROD : Nat := 0x500A0028
/-- CAE.CR (R192, 09_combustion_analysis.md). -/
def CAE_CR : Nat := 0x500A002C
/-- CAE.GAMMA (R192, 09_combustion_analysis.md). -/
def CAE_GAMMA : Nat := 0x500A0030
/-- CAE.KPOLY (R192, 09_combustion_analysis.md). -/
def CAE_KPOLY : Nat := 0x500A0034
/-- CAE.QMIN (R192, 09_combustion_analysis.md). -/
def CAE_QMIN : Nat := 0x500A0038
/-- CAE.KTH (R192, 09_combustion_analysis.md). -/
def CAE_KTH : Nat := 0x500A003C
/-- CAE.PREF (R192, 09_combustion_analysis.md). -/
def CAE_PREF : Nat := 0x500A0044

/-! ### GPTt -/
/-- GPTt.CTL (R206, 10_timers_and_global_start.md). -/
def GPTt_CTL (t : Nat) : Nat := 0x40040000 + t / 8 * 0x4000 + t % 8 * 0x80
/-- GPTt.CNT (R206, 10_timers_and_global_start.md). -/
def GPTt_CNT (t : Nat) : Nat := 0x40040004 + t / 8 * 0x4000 + t % 8 * 0x80
/-- GPTt.PER (R206, 10_timers_and_global_start.md). -/
def GPTt_PER (t : Nat) : Nat := 0x40040008 + t / 8 * 0x4000 + t % 8 * 0x80
/-- GPTt.STAT (R206, 10_timers_and_global_start.md). -/
def GPTt_STAT (t : Nat) : Nat := 0x4004000C + t / 8 * 0x4000 + t % 8 * 0x80
/-- GPTt.CCFG (R206, 10_timers_and_global_start.md). -/
def GPTt_CCFG (t i : Nat) : Nat := 0x40040010 + t / 8 * 0x4000 + t % 8 * 0x80 + i * 0x10
/-- GPTt.CMP (R206, 10_timers_and_global_start.md). -/
def GPTt_CMP (t i : Nat) : Nat := 0x40040014 + t / 8 * 0x4000 + t % 8 * 0x80 + i * 0x10
/-- GPTt.CAP (R206, 10_timers_and_global_start.md). -/
def GPTt_CAP (t i : Nat) : Nat := 0x40040018 + t / 8 * 0x4000 + t % 8 * 0x80 + i * 0x10
/-- GPTt.CSTAT (R206, 10_timers_and_global_start.md). -/
def GPTt_CSTAT (t i : Nat) : Nat := 0x4004001C + t / 8 * 0x4000 + t % 8 * 0x80 + i * 0x10

/-! ### GPT -/
/-- GPT.BREW (R206, 10_timers_and_global_start.md). -/
def GPT_BREW : Nat := 0x40043000
/-- GPT.BREWC (R206, 10_timers_and_global_start.md). -/
def GPT_BREWC : Nat := 0x40043004
/-- GPT.RBMSK (R206, 10_timers_and_global_start.md). -/
def GPT_RBMSK : Nat := 0x40043008
/-- GPT.BSTAT (R206, 10_timers_and_global_start.md). -/
def GPT_BSTAT : Nat := 0x4004300C
/-- GPT.ERRINFO (R206, 10_timers_and_global_start.md). -/
def GPT_ERRINFO : Nat := 0x40043010

/-! ### HADC -/
/-- HADC.CTL (R225, 11_adc_sequencer_and_comparators.md). -/
def HADC_CTL : Nat := 0x40050000
/-- HADC.STAT (R225, 11_adc_sequencer_and_comparators.md). -/
def HADC_STAT : Nat := 0x40050004
/-- HADC.ERRINFO (R225, 11_adc_sequencer_and_comparators.md). -/
def HADC_ERRINFO : Nat := 0x40050008
/-- HADC.SWTRG (R225, 11_adc_sequencer_and_comparators.md). -/
def HADC_SWTRG : Nat := 0x4005000C
/-- HADC.COEF (R225, 11_adc_sequencer_and_comparators.md). -/
def HADC_COEF : Nat := 0x40050010
/-- HADC.TCAL (R225, 11_adc_sequencer_and_comparators.md). -/
def HADC_TCAL (i : Nat) : Nat := 0x40050020 + i * 0x4
/-- HADC.SEQCFG (R225, 11_adc_sequencer_and_comparators.md). -/
def HADC_SEQCFG (i : Nat) : Nat := 0x40050040 + i * 0x10
/-- HADC.SEQDLY (R225, 11_adc_sequencer_and_comparators.md). -/
def HADC_SEQDLY (i : Nat) : Nat := 0x40050044 + i * 0x10
/-- HADC.SEQANG (R225, 11_adc_sequencer_and_comparators.md). -/
def HADC_SEQANG (i : Nat) : Nat := 0x40050048 + i * 0x10
/-- HADC.SEQSTAT (R225, 11_adc_sequencer_and_comparators.md). -/
def HADC_SEQSTAT (i : Nat) : Nat := 0x4005004C + i * 0x10
/-- HADC.ENT (R225, 11_adc_sequencer_and_comparators.md). -/
def HADC_ENT (i : Nat) : Nat := 0x40050100 + i * 0x4
/-- HADC.RES (R225, 11_adc_sequencer_and_comparators.md). -/
def HADC_RES (i : Nat) : Nat := 0x40050180 + i * 0x4

/-! ### CMP -/
/-- CMP.CFG (R225, 11_adc_sequencer_and_comparators.md). -/
def CMP_CFG (i : Nat) : Nat := 0x40060000 + i * 0x10
/-- CMP.THR (R225, 11_adc_sequencer_and_comparators.md). -/
def CMP_THR (i : Nat) : Nat := 0x40060004 + i * 0x10
/-- CMP.STAT (R225, 11_adc_sequencer_and_comparators.md). -/
def CMP_STAT (i : Nat) : Nat := 0x40060008 + i * 0x10
/-- CMP.LAT (R225, 11_adc_sequencer_and_comparators.md). -/
def CMP_LAT (i : Nat) : Nat := 0x4006000C + i * 0x10
/-- CMP.WCFG (R225, 11_adc_sequencer_and_comparators.md). -/
def CMP_WCFG (i : Nat) : Nat := 0x40060400 + i * 0x8
/-- CMP.WSTAT (R225, 11_adc_sequencer_and_comparators.md). -/
def CMP_WSTAT (i : Nat) : Nat := 0x40060404 + i * 0x8
/-- CMP.ERRINFO (R225, 11_adc_sequencer_and_comparators.md). -/
def CMP_ERRINFO : Nat := 0x40060500

/-! ### CPR -/
/-- CPR.PAIRCTL (R283, 14_processors_and_interrupts.md). -/
def CPR_PAIRCTL (i : Nat) : Nat := 0x40080100 + i * 0x10
/-- CPR.PAIRSTAT (R283, 14_processors_and_interrupts.md). -/
def CPR_PAIRSTAT (i : Nat) : Nat := 0x40080104 + i * 0x10
/-- CPR.PAIRHB (R283, 14_processors_and_interrupts.md). -/
def CPR_PAIRHB (i : Nat) : Nat := 0x40080108 + i * 0x10
/-- CPR.DPXCTL (R283, 14_processors_and_interrupts.md). -/
def CPR_DPXCTL : Nat := 0x40080140
/-- CPR.DPXSTAT (R283, 14_processors_and_interrupts.md). -/
def CPR_DPXSTAT : Nat := 0x40080144
/-- CPR.CKCOMMIT (R283, 14_processors_and_interrupts.md). -/
def CPR_CKCOMMIT : Nat := 0x40080148
/-- CPR.CKACK (R283, 14_processors_and_interrupts.md). -/
def CPR_CKACK : Nat := 0x4008014C
/-- CPR.DPXCKB0 (R283, 14_processors_and_interrupts.md). -/
def CPR_DPXCKB0 : Nat := 0x40080150
/-- CPR.DPXCKB1 (R283, 14_processors_and_interrupts.md). -/
def CPR_DPXCKB1 : Nat := 0x40080154
/-- CPR.SVC (R283, 14_processors_and_interrupts.md). -/
def CPR_SVC : Nat := 0x40080158
/-- CPR.PARTID (R409, 20_clocks_power_and_reset.md). -/
def CPR_PARTID : Nat := 0x40080000
/-- CPR.RSTCAUSE (R409, 20_clocks_power_and_reset.md). -/
def CPR_RSTCAUSE : Nat := 0x40080004
/-- CPR.SWRST (R409, 20_clocks_power_and_reset.md). -/
def CPR_SWRST : Nat := 0x40080008
/-- CPR.PWRCTL (R409, 20_clocks_power_and_reset.md). -/
def CPR_PWRCTL : Nat := 0x40080010
/-- CPR.PWRSTAT (R409, 20_clocks_power_and_reset.md). -/
def CPR_PWRSTAT : Nat := 0x40080014
/-- CPR.RETMASK (R409, 20_clocks_power_and_reset.md). -/
def CPR_RETMASK : Nat := 0x40080018
/-- CPR.CLKSTAT (R409, 20_clocks_power_and_reset.md). -/
def CPR_CLKSTAT : Nat := 0x40080020
/-- CPR.MONSTAT (R409, 20_clocks_power_and_reset.md). -/
def CPR_MONSTAT : Nat := 0x40080024
/-- CPR.MONCFG (R409, 20_clocks_power_and_reset.md). -/
def CPR_MONCFG : Nat := 0x40080028
/-- CPR.ILIM (R409, 20_clocks_power_and_reset.md). -/
def CPR_ILIM : Nat := 0x4008002C
/-- CPR.RAIL (R409, 20_clocks_power_and_reset.md). -/
def CPR_RAIL (i : Nat) : Nat := 0x40080030 + i * 0x4
/-- CPR.ISUP (R409, 20_clocks_power_and_reset.md). -/
def CPR_ISUP : Nat := 0x40080044

/-! ### IRQC -/
/-- IRQC.SRCCFG (R293, 14_processors_and_interrupts.md). -/
def IRQC_SRCCFG (i : Nat) : Nat := 0x40000000 + i * 0x4
/-- IRQC.ENSET (R293, 14_processors_and_interrupts.md). -/
def IRQC_ENSET (i : Nat) : Nat := 0x40000400 + i * 0x4
/-- IRQC.ENCLR (R293, 14_processors_and_interrupts.md). -/
def IRQC_ENCLR (i : Nat) : Nat := 0x40000420 + i * 0x4
/-- IRQC.PNDSET (R293, 14_processors_and_interrupts.md). -/
def IRQC_PNDSET (i : Nat) : Nat := 0x40000440 + i * 0x4
/-- IRQC.PNDCLR (R293, 14_processors_and_interrupts.md). -/
def IRQC_PNDCLR (i : Nat) : Nat := 0x40000460 + i * 0x4
/-- IRQC.ACTV (R293, 14_processors_and_interrupts.md). -/
def IRQC_ACTV (i : Nat) : Nat := 0x40000480 + i * 0x4
/-- IRQC.VTBASE (R293, 14_processors_and_interrupts.md). -/
def IRQC_VTBASE (i : Nat) : Nat := 0x40000600 + i * 0x10
/-- IRQC.TSTAT (R293, 14_processors_and_interrupts.md). -/
def IRQC_TSTAT (i : Nat) : Nat := 0x40000604 + i * 0x10
/-- IRQC.ERRINFO (R293, 14_processors_and_interrupts.md). -/
def IRQC_ERRINFO : Nat := 0x40000700

/-! ### MEMC -/
/-- MEMC.BANKCTL (R298, 15_memory_arbitration_and_locks.md). -/
def MEMC_BANKCTL (i : Nat) : Nat := 0x40098000 + i * 0x10
/-- MEMC.BANKSTAT (R298, 15_memory_arbitration_and_locks.md). -/
def MEMC_BANKSTAT (i : Nat) : Nat := 0x40098004 + i * 0x10
/-- MEMC.UEADDR (R298, 15_memory_arbitration_and_locks.md). -/
def MEMC_UEADDR (i : Nat) : Nat := 0x40098008 + i * 0x10
/-- MEMC.SCRUB (R298, 15_memory_arbitration_and_locks.md). -/
def MEMC_SCRUB : Nat := 0x40098100
/-- MEMC.ERRINFO (R298, 15_memory_arbitration_and_locks.md). -/
def MEMC_ERRINFO : Nat := 0x40098104

/-! ### ACT -/
/-- ACT.CTL (R304, 15_memory_arbitration_and_locks.md). -/
def ACT_CTL : Nat := 0x40090000
/-- ACT.REVOKEL (R304, 15_memory_arbitration_and_locks.md). -/
def ACT_REVOKEL : Nat := 0x40090008
/-- ACT.REVOKEH (R304, 15_memory_arbitration_and_locks.md). -/
def ACT_REVOKEH : Nat := 0x4009000C
/-- ACT.VREC0 (R304, 15_memory_arbitration_and_locks.md). -/
def ACT_VREC0 : Nat := 0x40090010
/-- ACT.BERR0 (R304, 15_memory_arbitration_and_locks.md). -/
def ACT_BERR0 : Nat := 0x40090018
/-- ACT.VREC1 (R304, 15_memory_arbitration_and_locks.md). -/
def ACT_VREC1 : Nat := 0x40090014
/-- ACT.BERR1 (R304, 15_memory_arbitration_and_locks.md). -/
def ACT_BERR1 : Nat := 0x4009001C
/-- ACT.RGN0 (R304, 15_memory_arbitration_and_locks.md). -/
def ACT_RGN0 (k e : Nat) : Nat := 0x40091000 + k * 0x1000 + e * 0x20
/-- ACT.RMASK0 (R304, 15_memory_arbitration_and_locks.md). -/
def ACT_RMASK0 (k e : Nat) : Nat := 0x40091004 + k * 0x1000 + e * 0x20
/-- ACT.RMASK1 (R304, 15_memory_arbitration_and_locks.md). -/
def ACT_RMASK1 (k e : Nat) : Nat := 0x40091008 + k * 0x1000 + e * 0x20
/-- ACT.WMASK0 (R304, 15_memory_arbitration_and_locks.md). -/
def ACT_WMASK0 (k e : Nat) : Nat := 0x4009100C + k * 0x1000 + e * 0x20
/-- ACT.WMASK1 (R304, 15_memory_arbitration_and_locks.md). -/
def ACT_WMASK1 (k e : Nat) : Nat := 0x40091010 + k * 0x1000 + e * 0x20
/-- ACT.IMASK (R304, 15_memory_arbitration_and_locks.md). -/
def ACT_IMASK (k m : Nat) : Nat := 0x40091C00 + k * 0x1000 + m * 0x4
/-- ACT.PPROF (R304, 15_memory_arbitration_and_locks.md). -/
def ACT_PPROF (k j : Nat) : Nat := 0x40091C40 + k * 0x1000 + j * 0x4
/-- ACT.PORTMAP (R304, 15_memory_arbitration_and_locks.md). -/
def ACT_PORTMAP (k w : Nat) : Nat := 0x40091C80 + k * 0x1000 + w * 0x4

/-! ### ARB -/
/-- ARB.RANK (R309, 15_memory_arbitration_and_locks.md). -/
def ARB_RANK (i : Nat) : Nat := 0x4009C000 + i * 0x4
/-- ARB.CFG (R309, 15_memory_arbitration_and_locks.md). -/
def ARB_CFG : Nat := 0x4009C020

/-! ### LKB -/
/-- LKB.ACQ (R314, 15_memory_arbitration_and_locks.md). -/
def LKB_ACQ (i : Nat) : Nat := 0x40010000 + i * 0x4
/-- LKB.TRY (R314, 15_memory_arbitration_and_locks.md). -/
def LKB_TRY (i : Nat) : Nat := 0x40010100 + i * 0x4
/-- LKB.REL (R314, 15_memory_arbitration_and_locks.md). -/
def LKB_REL (i : Nat) : Nat := 0x40010200 + i * 0x4
/-- LKB.STAT (R314, 15_memory_arbitration_and_locks.md). -/
def LKB_STAT (i : Nat) : Nat := 0x40010300 + i * 0x4
/-- LKB.TMO (R314, 15_memory_arbitration_and_locks.md). -/
def LKB_TMO : Nat := 0x40010400
/-- LKB.WSTAT (R314, 15_memory_arbitration_and_locks.md). -/
def LKB_WSTAT (i : Nat) : Nat := 0x40010500 + i * 0x4
/-- LKB.ERRINFO (R314, 15_memory_arbitration_and_locks.md). -/
def LKB_ERRINFO : Nat := 0x40010600

/-! ### DMA -/
/-- DMA.CTL (R327, 16_dma_and_queues.md). -/
def DMA_CTL (n : Nat) : Nat := 0x40030000 + n * 0x40
/-- DMA.RBASE (R327, 16_dma_and_queues.md). -/
def DMA_RBASE (n : Nat) : Nat := 0x40030004 + n * 0x40
/-- DMA.RCFG (R327, 16_dma_and_queues.md). -/
def DMA_RCFG (n : Nat) : Nat := 0x40030008 + n * 0x40
/-- DMA.STAT (R327, 16_dma_and_queues.md). -/
def DMA_STAT (n : Nat) : Nat := 0x4003000C + n * 0x40

/-! ### Q -/
/-- Q.CFG (R334, 16_dma_and_queues.md). -/
def Q_CFG (q : Nat) : Nat := 0x40020000 + q * 0x40
/-- Q.CFG2 (R334, 16_dma_and_queues.md). -/
def Q_CFG2 (q : Nat) : Nat := 0x40020004 + q * 0x40
/-- Q.CFG3 (R334, 16_dma_and_queues.md). -/
def Q_CFG3 (q : Nat) : Nat := 0x40020008 + q * 0x40
/-- Q.PUSH (R334, 16_dma_and_queues.md). -/
def Q_PUSH (q : Nat) : Nat := 0x4002000C + q * 0x40
/-- Q.PTAG (R334, 16_dma_and_queues.md). -/
def Q_PTAG (q : Nat) : Nat := 0x40020010 + q * 0x40
/-- Q.POP (R334, 16_dma_and_queues.md). -/
def Q_POP (q : Nat) : Nat := 0x40020014 + q * 0x40
/-- Q.POPSTAT (R334, 16_dma_and_queues.md). -/
def Q_POPSTAT (q : Nat) : Nat := 0x40020018 + q * 0x40
/-- Q.CREDIT (R334, 16_dma_and_queues.md). -/
def Q_CREDIT (q : Nat) : Nat := 0x4002001C + q * 0x40
/-- Q.GRANT (R334, 16_dma_and_queues.md). -/
def Q_GRANT (q : Nat) : Nat := 0x40020020 + q * 0x40
/-- Q.STAT (R334, 16_dma_and_queues.md). -/
def Q_STAT (q : Nat) : Nat := 0x40020024 + q * 0x40
/-- Q.TALLY (R334, 16_dma_and_queues.md). -/
def Q_TALLY (q : Nat) : Nat := 0x40020028 + q * 0x40

/-! ### QM -/
/-- QM.ERRINFO (R334, 16_dma_and_queues.md). -/
def QM_ERRINFO : Nat := 0x40020800

/-! ### KTL -/
/-- KTL.CFG (R355, 17_percolator_supervision_and_log.md). -/
def KTL_CFG : Nat := 0x70010400
/-- KTL.HB (R355, 17_percolator_supervision_and_log.md). -/
def KTL_HB : Nat := 0x70010404
/-- KTL.STAT (R355, 17_percolator_supervision_and_log.md). -/
def KTL_STAT : Nat := 0x70010408
/-- KTL.HIST (R355, 17_percolator_supervision_and_log.md). -/
def KTL_HIST (i : Nat) : Nat := 0x70010410 + i * 0x4
/-- KTL.RCNT (R355, 17_percolator_supervision_and_log.md). -/
def KTL_RCNT : Nat := 0x7001041C

/-! ### PST -/
/-- PST.STATE (R355, 17_percolator_supervision_and_log.md). -/
def PST_STATE : Nat := 0x70010800
/-- PST.LSEQ (R355, 17_percolator_supervision_and_log.md). -/
def PST_LSEQ : Nat := 0x70010804
/-- PST.LOSS0 (R355, 17_percolator_supervision_and_log.md). -/
def PST_LOSS0 : Nat := 0x70010808
/-- PST.LOSS1 (R355, 17_percolator_supervision_and_log.md). -/
def PST_LOSS1 : Nat := 0x7001080C
/-- PST.LINC (R355, 17_percolator_supervision_and_log.md). -/
def PST_LINC : Nat := 0x70010810
/-- PST.RPOL (R355, 17_percolator_supervision_and_log.md). -/
def PST_RPOL : Nat := 0x70010814

/-! ### DBG -/
/-- DBG.STAT (R369, 18_in_service_update_and_secure_boot.md). -/
def DBG_STAT : Nat := 0x400F8000

/-! ### RING -/
/-- RING.CTL (R391, 19_carafe_multi_device.md). -/
def RING_CTL : Nat := 0x500C0000
/-- RING.CFG (R391, 19_carafe_multi_device.md). -/
def RING_CFG : Nat := 0x500C0004
/-- RING.STAT (R391, 19_carafe_multi_device.md). -/
def RING_STAT : Nat := 0x500C0008
/-- RING.TBERR (R391, 19_carafe_multi_device.md). -/
def RING_TBERR : Nat := 0x500C000C
/-- RING.LDLY (R391, 19_carafe_multi_device.md). -/
def RING_LDLY : Nat := 0x500C0010
/-- RING.TALLY0 (R391, 19_carafe_multi_device.md). -/
def RING_TALLY0 : Nat := 0x500C0014
/-- RING.TALLY1 (R391, 19_carafe_multi_device.md). -/
def RING_TALLY1 : Nat := 0x500C0018
/-- RING.ROLES (R391, 19_carafe_multi_device.md). -/
def RING_ROLES : Nat := 0x500C001C
/-- RING.DMSKL (R391, 19_carafe_multi_device.md). -/
def RING_DMSKL : Nat := 0x500C0020
/-- RING.DMSKH (R391, 19_carafe_multi_device.md). -/
def RING_DMSKH : Nat := 0x500C0024
/-- RING.UBMSK (R391, 19_carafe_multi_device.md). -/
def RING_UBMSK : Nat := 0x500C0028
/-- RING.OREL (R391, 19_carafe_multi_device.md). -/
def RING_OREL : Nat := 0x500C002C
/-- RING.INTEN (R391, 19_carafe_multi_device.md). -/
def RING_INTEN : Nat := 0x500C0030
/-- RING.ERRINFO (R391, 19_carafe_multi_device.md). -/
def RING_ERRINFO : Nat := 0x500C0034

/-! ### AON -/
/-- AON.TMR (R409, 20_clocks_power_and_reset.md). -/
def AON_TMR : Nat := 0x70010000
/-- AON.SEC (R409, 20_clocks_power_and_reset.md). -/
def AON_SEC : Nat := 0x70010004

/-! ### HSPI -/
/-- HSPI.PTALLY (R418, 21_external_ports.md). -/
def HSPI_PTALLY (n : Nat) : Nat := 0x400A0F00 + n * 0x1000
/-- HSPI.PFLG (R418, 21_external_ports.md). -/
def HSPI_PFLG (n : Nat) : Nat := 0x400A0F04 + n * 0x1000
/-- HSPI.PIE (R418, 21_external_ports.md). -/
def HSPI_PIE (n : Nat) : Nat := 0x400A0F08 + n * 0x1000

/-! ### ETH -/
/-- ETH.PTALLY (R418, 21_external_ports.md). -/
def ETH_PTALLY (n : Nat) : Nat := 0x400B0F00 + n * 0x10000
/-- ETH.PFLG (R418, 21_external_ports.md). -/
def ETH_PFLG (n : Nat) : Nat := 0x400B0F04 + n * 0x10000
/-- ETH.PIE (R418, 21_external_ports.md). -/
def ETH_PIE (n : Nat) : Nat := 0x400B0F08 + n * 0x10000

/-! ### CAN -/
/-- CAN.PTALLY (R418, 21_external_ports.md). -/
def CAN_PTALLY (n : Nat) : Nat := 0x400D0F00 + n * 0x1000
/-- CAN.PFLG (R418, 21_external_ports.md). -/
def CAN_PFLG (n : Nat) : Nat := 0x400D0F04 + n * 0x1000
/-- CAN.PIE (R418, 21_external_ports.md). -/
def CAN_PIE (n : Nat) : Nat := 0x400D0F08 + n * 0x1000
/-- CAN.GID (R418, 21_external_ports.md). -/
def CAN_GID (n : Nat) : Nat := 0x400D0F0C + n * 0x1000
/-- CAN.GREQ (R418, 21_external_ports.md). -/
def CAN_GREQ (n : Nat) : Nat := 0x400D0F10 + n * 0x1000
/-- CAN.GRSP (R418, 21_external_ports.md). -/
def CAN_GRSP (n : Nat) : Nat := 0x400D0F14 + n * 0x1000

/-! ### UART -/
/-- UART.PTALLY (R418, 21_external_ports.md). -/
def UART_PTALLY (n : Nat) : Nat := 0x400E8F00 + n * 0x1000
/-- UART.PFLG (R418, 21_external_ports.md). -/
def UART_PFLG (n : Nat) : Nat := 0x400E8F04 + n * 0x1000
/-- UART.PIE (R418, 21_external_ports.md). -/
def UART_PIE (n : Nat) : Nat := 0x400E8F08 + n * 0x1000
/-- UART.ADDR (R418, 21_external_ports.md). -/
def UART_ADDR (n : Nat) : Nat := 0x400E8F0C + n * 0x1000

end Reg

namespace Fields

def AT_ANG_ANG (n : Nat) : Fld := ⟨Reg.AT_ANG n, 0, 24⟩
def AT_PHASEL_PHL (n : Nat) : Fld := ⟨Reg.AT_PHASEL n, 0, 32⟩
def AT_PHASEH_PHH (n : Nat) : Fld := ⟨Reg.AT_PHASEH n, 0, 16⟩
def AT_RATE_RATE (n : Nat) : Fld := ⟨Reg.AT_RATE n, 0, 32⟩
def AT_WCFG_SWNOSYNC (n : Nat) : Fld := ⟨Reg.AT_WCFG n, 11, 1⟩
def AT_WCFG_SWDONE (n : Nat) : Fld := ⟨Reg.AT_WCFG n, 10, 1⟩
def AT_WCFG_SWREQ (n : Nat) : Fld := ⟨Reg.AT_WCFG n, 9, 1⟩
def AT_WCFG_ACTSEL (n : Nat) : Fld := ⟨Reg.AT_WCFG n, 8, 1⟩
def AT_WCFG_CYCLE (n : Nat) : Fld := ⟨Reg.AT_WCFG n, 0, 1⟩
def AT_WDESC0_SPAN (n : Nat) : Fld := ⟨Reg.AT_WDESC0 n, 31, 1⟩
def AT_WDESC0_CNT (n : Nat) : Fld := ⟨Reg.AT_WDESC0 n, 16, 13⟩
def AT_WDESC0_BASE (n : Nat) : Fld := ⟨Reg.AT_WDESC0 n, 0, 13⟩
def AT_WDESC1_SPAN (n : Nat) : Fld := ⟨Reg.AT_WDESC1 n, 31, 1⟩
def AT_WDESC1_CNT (n : Nat) : Fld := ⟨Reg.AT_WDESC1 n, 16, 13⟩
def AT_WDESC1_BASE (n : Nat) : Fld := ⟨Reg.AT_WDESC1 n, 0, 13⟩
def TI_CFG_LOCK (n : Nat) : Fld := ⟨Reg.TI_CFG n, 31, 1⟩
def TI_CFG_DIRINV (n : Nat) : Fld := ⟨Reg.TI_CFG n, 18, 1⟩
def TI_CFG_QX (n : Nat) : Fld := ⟨Reg.TI_CFG n, 16, 2⟩
def TI_CFG_IDXSRC (n : Nat) : Fld := ⟨Reg.TI_CFG n, 12, 4⟩
def TI_CFG_IDXEN (n : Nat) : Fld := ⟨Reg.TI_CFG n, 11, 1⟩
def TI_CFG_DEST (n : Nat) : Fld := ⟨Reg.TI_CFG n, 8, 3⟩
def TI_CFG_POL (n : Nat) : Fld := ⟨Reg.TI_CFG n, 6, 2⟩
def TI_CFG_MODE (n : Nat) : Fld := ⟨Reg.TI_CFG n, 3, 3⟩
def TI_CFG_EN (n : Nat) : Fld := ⟨Reg.TI_CFG n, 0, 1⟩
def TI_FLT_BLNK (n : Nat) : Fld := ⟨Reg.TI_FLT n, 16, 16⟩
def TI_FLT_PSC (n : Nat) : Fld := ⟨Reg.TI_FLT n, 8, 2⟩
def TI_FLT_FLEN (n : Nat) : Fld := ⟨Reg.TI_FLT n, 0, 6⟩
def TI_DWCFG_DWTH (n : Nat) : Fld := ⟨Reg.TI_DWCFG n, 0, 16⟩
def TI_STAT_BLKCNT (n : Nat) : Fld := ⟨Reg.TI_STAT n, 16, 16⟩
def TI_STAT_PARAM (n : Nat) : Fld := ⟨Reg.TI_STAT n, 2, 1⟩
def TI_STAT_DIRNOW (n : Nat) : Fld := ⟨Reg.TI_STAT n, 1, 1⟩
def TI_STAT_LVL (n : Nat) : Fld := ⟨Reg.TI_STAT n, 0, 1⟩
def TI_VRCFG_INV (n : Nat) : Fld := ⟨Reg.TI_VRCFG n, 24, 1⟩
def TI_VRCFG_ZHYS (n : Nat) : Fld := ⟨Reg.TI_VRCFG n, 20, 4⟩
def TI_VRCFG_FRAC (n : Nat) : Fld := ⟨Reg.TI_VRCFG n, 16, 4⟩
def TI_VRCFG_THMIN (n : Nat) : Fld := ⟨Reg.TI_VRCFG n, 8, 8⟩
def TI_VRCFG_ARM (n : Nat) : Fld := ⟨Reg.TI_VRCFG n, 0, 8⟩
def TI_VRTO_VRTO (n : Nat) : Fld := ⟨Reg.TI_VRTO n, 0, 16⟩
def TI_VRSTAT_TOUT (n : Nat) : Fld := ⟨Reg.TI_VRSTAT n, 20, 1⟩
def TI_VRSTAT_PCNT (n : Nat) : Fld := ⟨Reg.TI_VRSTAT n, 18, 2⟩
def TI_VRSTAT_STATE (n : Nat) : Fld := ⟨Reg.TI_VRSTAT n, 16, 2⟩
def TI_VRSTAT_PK (n : Nat) : Fld := ⟨Reg.TI_VRSTAT n, 8, 8⟩
def TI_VRSTAT_THR (n : Nat) : Fld := ⟨Reg.TI_VRSTAT n, 0, 8⟩
def CAP_TSL_TSL (n : Nat) : Fld := ⟨Reg.CAP_TSL n, 0, 32⟩
def CAP_TSH_TSH (n : Nat) : Fld := ⟨Reg.CAP_TSH n, 0, 32⟩
def CAP_INFO_VALID (n : Nat) : Fld := ⟨Reg.CAP_INFO n, 31, 1⟩
def CAP_INFO_OVRB (n : Nat) : Fld := ⟨Reg.CAP_INFO n, 30, 1⟩
def CAP_INFO_INDEX (n : Nat) : Fld := ⟨Reg.CAP_INFO n, 29, 1⟩
def CAP_INFO_DIR (n : Nat) : Fld := ⟨Reg.CAP_INFO n, 28, 1⟩
def CAP_INFO_DIRV (n : Nat) : Fld := ⟨Reg.CAP_INFO n, 27, 1⟩
def CAP_INFO_LEVEL (n : Nat) : Fld := ⟨Reg.CAP_INFO n, 26, 1⟩
def CAP_INFO_WSAT (n : Nat) : Fld := ⟨Reg.CAP_INFO n, 16, 1⟩
def CAP_INFO_WIDTH (n : Nat) : Fld := ⟨Reg.CAP_INFO n, 0, 16⟩
def CAP_STAT_DROP (n : Nat) : Fld := ⟨Reg.CAP_STAT n, 16, 16⟩
def CAP_STAT_OVR (n : Nat) : Fld := ⟨Reg.CAP_STAT n, 8, 1⟩
def CAP_STAT_CNT (n : Nat) : Fld := ⟨Reg.CAP_STAT n, 0, 3⟩
def AT_SCFG_VREV (n : Nat) : Fld := ⟨Reg.AT_SCFG n, 28, 4⟩
def AT_SCFG_VMAX (n : Nat) : Fld := ⟨Reg.AT_SCFG n, 24, 4⟩
def AT_SCFG_K (n : Nat) : Fld := ⟨Reg.AT_SCFG n, 20, 4⟩
def AT_SCFG_RTOL (n : Nat) : Fld := ⟨Reg.AT_SCFG n, 16, 4⟩
def AT_SCFG_DIRSRC (n : Nat) : Fld := ⟨Reg.AT_SCFG n, 14, 2⟩
def AT_SCFG_DIRTRK (n : Nat) : Fld := ⟨Reg.AT_SCFG n, 12, 2⟩
def AT_SCFG_DREV (n : Nat) : Fld := ⟨Reg.AT_SCFG n, 10, 2⟩
def AT_SCFG_ADOPT (n : Nat) : Fld := ⟨Reg.AT_SCFG n, 9, 1⟩
def AT_SCFG_GAPMAX (n : Nat) : Fld := ⟨Reg.AT_SCFG n, 4, 4⟩
def AT_SCFG_IDXMAX (n : Nat) : Fld := ⟨Reg.AT_SCFG n, 0, 4⟩
def AT_CAMCFG_CAMMAX (n : Nat) : Fld := ⟨Reg.AT_CAMCFG n, 12, 4⟩
def AT_CAMCFG_CAMSRC (n : Nat) : Fld := ⟨Reg.AT_CAMCFG n, 8, 3⟩
def AT_CAMCFG_CAMTOL (n : Nat) : Fld := ⟨Reg.AT_CAMCFG n, 0, 8⟩
def AT_SSTAT_CHG (n : Nat) : Fld := ⟨Reg.AT_SSTAT n, 31, 1⟩
def AT_SSTAT_ADOPTED (n : Nat) : Fld := ⟨Reg.AT_SSTAT n, 30, 1⟩
def AT_SSTAT_PHV (n : Nat) : Fld := ⟨Reg.AT_SSTAT n, 29, 1⟩
def AT_SSTAT_DIR (n : Nat) : Fld := ⟨Reg.AT_SSTAT n, 28, 1⟩
def AT_SSTAT_CAUSE (n : Nat) : Fld := ⟨Reg.AT_SSTAT n, 24, 4⟩
def AT_SSTAT_STATE (n : Nat) : Fld := ⟨Reg.AT_SSTAT n, 16, 3⟩
def AT_SSTAT_ENTRY (n : Nat) : Fld := ⟨Reg.AT_SSTAT n, 0, 12⟩
def AT_SCTL_SETPH1 (n : Nat) : Fld := ⟨Reg.AT_SCTL n, 3, 1⟩
def AT_SCTL_SETPH0 (n : Nat) : Fld := ⟨Reg.AT_SCTL n, 2, 1⟩
def AT_SCTL_DROP (n : Nat) : Fld := ⟨Reg.AT_SCTL n, 1, 1⟩
def AT_SCTL_RESTART (n : Nat) : Fld := ⟨Reg.AT_SCTL n, 0, 1⟩
def AT_SFLT_LOSTCNT (n : Nat) : Fld := ⟨Reg.AT_SFLT n, 24, 8⟩
def AT_SFLT_CFCNT (n : Nat) : Fld := ⟨Reg.AT_SFLT n, 16, 8⟩
def AT_SFLT_ADPFAIL (n : Nat) : Fld := ⟨Reg.AT_SFLT n, 7, 1⟩
def AT_SFLT_CFAIL (n : Nat) : Fld := ⟨Reg.AT_SFLT n, 6, 1⟩
def AT_SFLT_CAMMISS (n : Nat) : Fld := ⟨Reg.AT_SFLT n, 5, 1⟩
def AT_SFLT_CAMERR (n : Nat) : Fld := ⟨Reg.AT_SFLT n, 4, 1⟩
def AT_SFLT_IDXERR (n : Nat) : Fld := ⟨Reg.AT_SFLT n, 3, 1⟩
def AT_SFLT_GAPERR (n : Nat) : Fld := ⟨Reg.AT_SFLT n, 2, 1⟩
def AT_RVOFS_RVOFS (n : Nat) : Fld := ⟨Reg.AT_RVOFS n, 0, 24⟩
def AT_CTL_EN (n : Nat) : Fld := ⟨Reg.AT_CTL n, 0, 1⟩
def AT_ERRINFO_PROF (n : Nat) : Fld := ⟨Reg.AT_ERRINFO n, 3, 1⟩
def AT_ERRINFO_ECCP (n : Nat) : Fld := ⟨Reg.AT_ERRINFO n, 2, 1⟩
def AT_ERRINFO_ECC (n : Nat) : Fld := ⟨Reg.AT_ERRINFO n, 1, 1⟩
def AT_ERRINFO_PARAM (n : Nat) : Fld := ⟨Reg.AT_ERRINFO n, 0, 1⟩
def AT_ACC_ACC (n : Nat) : Fld := ⟨Reg.AT_ACC n, 0, 32⟩
def AT_TPER_PER (n : Nat) : Fld := ⟨Reg.AT_TPER n, 0, 32⟩
def AT_TCNT_CNT (n : Nat) : Fld := ⟨Reg.AT_TCNT n, 0, 32⟩
def AT_PEXP_PHAT (n : Nat) : Fld := ⟨Reg.AT_PEXP n, 0, 32⟩
def AT_NGAP0_NGAP (n : Nat) : Fld := ⟨Reg.AT_NGAP0 n, 0, 24⟩
def AT_NGAP1_NGAP (n : Nat) : Fld := ⟨Reg.AT_NGAP1 n, 0, 24⟩
def AT_PCFG_CATCHK (n : Nat) : Fld := ⟨Reg.AT_PCFG n, 12, 4⟩
def AT_PCFG_GREV (n : Nat) : Fld := ⟨Reg.AT_PCFG n, 8, 4⟩
def AT_PCFG_CORREN (n : Nat) : Fld := ⟨Reg.AT_PCFG n, 4, 1⟩
def AT_PCFG_FFEN (n : Nat) : Fld := ⟨Reg.AT_PCFG n, 3, 1⟩
def AT_PCFG_ACCEN (n : Nat) : Fld := ⟨Reg.AT_PCFG n, 2, 1⟩
def AT_PCFG_GCORR (n : Nat) : Fld := ⟨Reg.AT_PCFG n, 1, 1⟩
def AT_PCFG_FORCEG (n : Nat) : Fld := ⟨Reg.AT_PCFG n, 0, 1⟩
def AT_GSPD_GSPD (n : Nat) : Fld := ⟨Reg.AT_GSPD n, 0, 32⟩
def AT_WIN0_WHI (n : Nat) : Fld := ⟨Reg.AT_WIN0 n, 16, 16⟩
def AT_WIN0_WLO (n : Nat) : Fld := ⟨Reg.AT_WIN0 n, 0, 16⟩
def AT_WIN1_CHI (n : Nat) : Fld := ⟨Reg.AT_WIN1 n, 16, 16⟩
def AT_WIN1_CLO (n : Nat) : Fld := ⟨Reg.AT_WIN1 n, 0, 16⟩
def AT_WIN2_BLANK (n : Nat) : Fld := ⟨Reg.AT_WIN2 n, 0, 16⟩
def AT_WREF_WREF (n : Nat) : Fld := ⟨Reg.AT_WREF n, 0, 32⟩
def AT_FF_WAGE (n : Nat) : Fld := ⟨Reg.AT_FF n, 16, 8⟩
def AT_FF_ALIM (n : Nat) : Fld := ⟨Reg.AT_FF n, 0, 16⟩
def AT_PSTAT_SAT (n : Nat) : Fld := ⟨Reg.AT_PSTAT n, 31, 1⟩
def AT_PSTAT_LCLS (n : Nat) : Fld := ⟨Reg.AT_PSTAT n, 12, 3⟩
def AT_PSTAT_GRCNT (n : Nat) : Fld := ⟨Reg.AT_PSTAT n, 8, 4⟩
def AT_PSTAT_HALT (n : Nat) : Fld := ⟨Reg.AT_PSTAT n, 3, 1⟩
def AT_PSTAT_CATCH (n : Nat) : Fld := ⟨Reg.AT_PSTAT n, 2, 1⟩
def AT_PSTAT_SUSP (n : Nat) : Fld := ⟨Reg.AT_PSTAT n, 1, 1⟩
def AT_PSTAT_MODE (n : Nat) : Fld := ⟨Reg.AT_PSTAT n, 0, 1⟩
def AT_CFLT_NOISE (n : Nat) : Fld := ⟨Reg.AT_CFLT n, 7, 1⟩
def AT_CFLT_WSTALE (n : Nat) : Fld := ⟨Reg.AT_CFLT n, 6, 1⟩
def AT_CFLT_FLOOR (n : Nat) : Fld := ⟨Reg.AT_CFLT n, 5, 1⟩
def AT_CFLT_JUMP (n : Nat) : Fld := ⟨Reg.AT_CFLT n, 4, 1⟩
def AT_CFLT_VIRT (n : Nat) : Fld := ⟨Reg.AT_CFLT n, 3, 1⟩
def AT_CFLT_SDISC (n : Nat) : Fld := ⟨Reg.AT_CFLT n, 2, 1⟩
def AT_CFLT_LATE (n : Nat) : Fld := ⟨Reg.AT_CFLT n, 1, 1⟩
def AT_CFLT_OVRERR (n : Nat) : Fld := ⟨Reg.AT_CFLT n, 0, 1⟩
def AT_CFLTEN_NOISE (n : Nat) : Fld := ⟨Reg.AT_CFLTEN n, 7, 1⟩
def AT_CFLTEN_WSTALE (n : Nat) : Fld := ⟨Reg.AT_CFLTEN n, 6, 1⟩
def AT_CFLTEN_FLOOR (n : Nat) : Fld := ⟨Reg.AT_CFLTEN n, 5, 1⟩
def AT_CFLTEN_JUMP (n : Nat) : Fld := ⟨Reg.AT_CFLTEN n, 4, 1⟩
def AT_CFLTEN_VIRT (n : Nat) : Fld := ⟨Reg.AT_CFLTEN n, 3, 1⟩
def AT_CFLTEN_SDISC (n : Nat) : Fld := ⟨Reg.AT_CFLTEN n, 2, 1⟩
def AT_CFLTEN_LATE (n : Nat) : Fld := ⟨Reg.AT_CFLTEN n, 1, 1⟩
def AT_CFLTEN_OVRERR (n : Nat) : Fld := ⟨Reg.AT_CFLTEN n, 0, 1⟩
def AT_CCNT0_NOISECNT (n : Nat) : Fld := ⟨Reg.AT_CCNT0 n, 16, 16⟩
def AT_CCNT0_VIRTCNT (n : Nat) : Fld := ⟨Reg.AT_CCNT0 n, 0, 16⟩
def AT_CCNT1_LATECNT (n : Nat) : Fld := ⟨Reg.AT_CCNT1 n, 16, 16⟩
def AT_CCNT1_SDISCNT (n : Nat) : Fld := ⟨Reg.AT_CCNT1 n, 0, 16⟩
def AT_WCYL_W (n i : Nat) : Fld := ⟨Reg.AT_WCYL n i, 0, 32⟩
def AT_WVAL_VALID (n : Nat) : Fld := ⟨Reg.AT_WVAL n, 0, 24⟩
def AT_LCFG_STOL (n : Nat) : Fld := ⟨Reg.AT_LCFG n, 16, 8⟩
def AT_LCFG_LSH (n : Nat) : Fld := ⟨Reg.AT_LCFG n, 8, 3⟩
def AT_LCFG_CSH (n : Nat) : Fld := ⟨Reg.AT_LCFG n, 4, 3⟩
def AT_LCFG_QUIET (n : Nat) : Fld := ⟨Reg.AT_LCFG n, 3, 1⟩
def AT_LCFG_PLRN (n : Nat) : Fld := ⟨Reg.AT_LCFG n, 2, 1⟩
def AT_LCFG_CLRN (n : Nat) : Fld := ⟨Reg.AT_LCFG n, 0, 2⟩
def AT_LSTAT_DISC (n : Nat) : Fld := ⟨Reg.AT_LSTAT n, 16, 1⟩
def AT_LSTAT_AVGCNT (n : Nat) : Fld := ⟨Reg.AT_LSTAT n, 8, 8⟩
def AT_LSTAT_NPASS (n : Nat) : Fld := ⟨Reg.AT_LSTAT n, 0, 6⟩
def AT_PSCFG_FRZ (n : Nat) : Fld := ⟨Reg.AT_PSCFG n, 2, 1⟩
def AT_PSCFG_MODE (n : Nat) : Fld := ⟨Reg.AT_PSCFG n, 1, 1⟩
def AT_PSCFG_EN (n : Nat) : Fld := ⟨Reg.AT_PSCFG n, 0, 1⟩
def AT_PSPTR_WRAP (n : Nat) : Fld := ⟨Reg.AT_PSPTR n, 12, 1⟩
def AT_PSPTR_WPTR (n : Nat) : Fld := ⟨Reg.AT_PSPTR n, 0, 12⟩
def SCH_BCTL_REQ : Fld := ⟨Reg.SCH_BCTL, 31, 1⟩
def SCH_BCTL_COPY : Fld := ⟨Reg.SCH_BCTL, 30, 1⟩
def SCH_BCTL_CMODE : Fld := ⟨Reg.SCH_BCTL, 8, 1⟩
def SCH_BCTL_SRC : Fld := ⟨Reg.SCH_BCTL, 4, 1⟩
def SCH_BCTL_TRKMSK : Fld := ⟨Reg.SCH_BCTL, 0, 4⟩
def SCH_BSTAT_COPYBUSY : Fld := ⟨Reg.SCH_BSTAT, 31, 1⟩
def SCH_BSTAT_REFUSED : Fld := ⟨Reg.SCH_BSTAT, 30, 1⟩
def SCH_BSTAT_PEND : Fld := ⟨Reg.SCH_BSTAT, 8, 4⟩
def SCH_BSTAT_ACT : Fld := ⟨Reg.SCH_BSTAT, 0, 4⟩
def SCH_ERRINFO_ECC : Fld := ⟨Reg.SCH_ERRINFO, 1, 1⟩
def SCH_ERRINFO_PARAM : Fld := ⟨Reg.SCH_ERRINFO, 0, 1⟩
def SCH_BANG_ANG (i : Nat) : Fld := ⟨Reg.SCH_BANG i, 0, 24⟩
def SCH_CREF_EN (i : Nat) : Fld := ⟨Reg.SCH_CREF i, 31, 1⟩
def SCH_CREF_ANG (i : Nat) : Fld := ⟨Reg.SCH_CREF i, 0, 24⟩
def SCH_HT_HT (i : Nat) : Fld := ⟨Reg.SCH_HT i, 0, 32⟩
def SCH_HA_HA (i : Nat) : Fld := ⟨Reg.SCH_HA i, 0, 24⟩
def SCH_OUTENL_EN : Fld := ⟨Reg.SCH_OUTENL, 0, 32⟩
def SCH_OUTENH_EN : Fld := ⟨Reg.SCH_OUTENH, 0, 32⟩
def SCH_CHCFG_SAFE (i : Nat) : Fld := ⟨Reg.SCH_CHCFG i, 26, 2⟩
def SCH_CHCFG_POL (i : Nat) : Fld := ⟨Reg.SCH_CHCFG i, 25, 1⟩
def SCH_CHCFG_CLAMP (i : Nat) : Fld := ⟨Reg.SCH_CHCFG i, 24, 1⟩
def SCH_CHCFG_CRL (i : Nat) : Fld := ⟨Reg.SCH_CHCFG i, 16, 4⟩
def SCH_CHCFG_TRK (i : Nat) : Fld := ⟨Reg.SCH_CHCFG i, 12, 2⟩
def SCH_CHCFG_MAXPC (i : Nat) : Fld := ⟨Reg.SCH_CHCFG i, 0, 8⟩
def SCH_MAXDUR_MAXDUR (i : Nat) : Fld := ⟨Reg.SCH_MAXDUR i, 0, 32⟩
def SCH_WIDTH_MINOFF (i : Nat) : Fld := ⟨Reg.SCH_WIDTH i, 16, 16⟩
def SCH_WIDTH_MINW (i : Nat) : Fld := ⟨Reg.SCH_WIDTH i, 0, 16⟩
def SCH_WLO_WLO_A (i : Nat) : Fld := ⟨Reg.SCH_WLO i, 0, 24⟩
def SCH_WHI_WHI_A (i : Nat) : Fld := ⟨Reg.SCH_WHI i, 0, 24⟩
def SCH_CHSTAT_SKIPCNT (i : Nat) : Fld := ⟨Reg.SCH_CHSTAT i, 24, 8⟩
def SCH_CHSTAT_CLAMPCNT (i : Nat) : Fld := ⟨Reg.SCH_CHSTAT i, 16, 8⟩
def SCH_CHSTAT_ON (i : Nat) : Fld := ⟨Reg.SCH_CHSTAT i, 15, 1⟩
def SCH_CHSTAT_NCOMMIT (i : Nat) : Fld := ⟨Reg.SCH_CHSTAT i, 10, 5⟩
def SCH_CHSTAT_TDOVR (i : Nat) : Fld := ⟨Reg.SCH_CHSTAT i, 9, 1⟩
def SCH_CHSTAT_EVECC (i : Nat) : Fld := ⟨Reg.SCH_CHSTAT i, 8, 1⟩
def SCH_CHSTAT_EVINV (i : Nat) : Fld := ⟨Reg.SCH_CHSTAT i, 7, 1⟩
def SCH_CHSTAT_CANCEL (i : Nat) : Fld := ⟨Reg.SCH_CHSTAT i, 6, 1⟩
def SCH_CHSTAT_MAXCUT (i : Nat) : Fld := ⟨Reg.SCH_CHSTAT i, 5, 1⟩
def SCH_CHSTAT_CLAMPED (i : Nat) : Fld := ⟨Reg.SCH_CHSTAT i, 4, 1⟩
def SCH_CHSTAT_ENVSKIP (i : Nat) : Fld := ⟨Reg.SCH_CHSTAT i, 3, 1⟩
def SCH_CHSTAT_SKIP (i : Nat) : Fld := ⟨Reg.SCH_CHSTAT i, 2, 1⟩
def SCH_CHSTAT_SWEPT (i : Nat) : Fld := ⟨Reg.SCH_CHSTAT i, 1, 1⟩
def ESQ_CTL_FCLR (n : Nat) : Fld := ⟨Reg.ESQ_CTL n, 3, 1⟩
def ESQ_CTL_STEST (n : Nat) : Fld := ⟨Reg.ESQ_CTL n, 2, 1⟩
def ESQ_CTL_UBREQ (n : Nat) : Fld := ⟨Reg.ESQ_CTL n, 1, 1⟩
def ESQ_CTL_RUN (n : Nat) : Fld := ⟨Reg.ESQ_CTL n, 0, 1⟩
def ESQ_CFG_COASTMAX (n : Nat) : Fld := ⟨Reg.ESQ_CFG n, 16, 8⟩
def ESQ_CFG_PMMAX (n : Nat) : Fld := ⟨Reg.ESQ_CFG n, 12, 4⟩
def ESQ_CFG_SBANK (n : Nat) : Fld := ⟨Reg.ESQ_CFG n, 8, 1⟩
def ESQ_CFG_FREACT (n : Nat) : Fld := ⟨Reg.ESQ_CFG n, 4, 1⟩
def ESQ_CFG_CTRK (n : Nat) : Fld := ⟨Reg.ESQ_CFG n, 0, 2⟩
def ESQ_STAT_PC (n : Nat) : Fld := ⟨Reg.ESQ_STAT n, 18, 11⟩
def ESQ_STAT_SWI (n : Nat) : Fld := ⟨Reg.ESQ_STAT n, 17, 1⟩
def ESQ_STAT_COASTCNT (n : Nat) : Fld := ⟨Reg.ESQ_STAT n, 8, 8⟩
def ESQ_STAT_STRES (n : Nat) : Fld := ⟨Reg.ESQ_STAT n, 6, 2⟩
def ESQ_STAT_PLATE (n : Nat) : Fld := ⟨Reg.ESQ_STAT n, 5, 1⟩
def ESQ_STAT_UBANK (n : Nat) : Fld := ⟨Reg.ESQ_STAT n, 4, 1⟩
def ESQ_STAT_STATE (n : Nat) : Fld := ⟨Reg.ESQ_STAT n, 0, 3⟩
def ESQ_FLAGS_FLAGS (n : Nat) : Fld := ⟨Reg.ESQ_FLAGS n, 0, 5⟩
def ESQ_OWN_VALID (n : Nat) : Fld := ⟨Reg.ESQ_OWN n, 8, 1⟩
def ESQ_OWN_GRP (n : Nat) : Fld := ⟨Reg.ESQ_OWN n, 0, 3⟩
def ESQ_EVRNG_CNT (n : Nat) : Fld := ⟨Reg.ESQ_EVRNG n, 16, 8⟩
def ESQ_EVRNG_BASE (n : Nat) : Fld := ⟨Reg.ESQ_EVRNG n, 0, 10⟩
def ESQ_FLT_CAUSE (n : Nat) : Fld := ⟨Reg.ESQ_FLT n, 28, 4⟩
def ESQ_FLT_ABUSP (n : Nat) : Fld := ⟨Reg.ESQ_FLT n, 7, 1⟩
def ESQ_FLT_COAST (n : Nat) : Fld := ⟨Reg.ESQ_FLT n, 6, 1⟩
def ESQ_FLT_HALT (n : Nat) : Fld := ⟨Reg.ESQ_FLT n, 5, 1⟩
def ESQ_FLT_PMISS (n : Nat) : Fld := ⟨Reg.ESQ_FLT n, 4, 1⟩
def ESQ_FLT_ADDR (n : Nat) : Fld := ⟨Reg.ESQ_FLT n, 3, 1⟩
def ESQ_FLT_ILL (n : Nat) : Fld := ⟨Reg.ESQ_FLT n, 2, 1⟩
def ESQ_FLT_UECC (n : Nat) : Fld := ⟨Reg.ESQ_FLT n, 1, 1⟩
def ESQ_INTEN_CHF (n : Nat) : Fld := ⟨Reg.ESQ_INTEN n, 1, 8⟩
def ESQ_INTEN_SWIEN (n : Nat) : Fld := ⟨Reg.ESQ_INTEN n, 0, 1⟩
def ESQ_PERF_MISSCNT (n : Nat) : Fld := ⟨Reg.ESQ_PERF n, 16, 16⟩
def ESQ_PERF_PLCNT (n : Nat) : Fld := ⟨Reg.ESQ_PERF n, 8, 8⟩
def ESQ_PERF_HWM (n : Nat) : Fld := ⟨Reg.ESQ_PERF n, 0, 8⟩
def ESQ_ERRINFO_PARAM (n : Nat) : Fld := ⟨Reg.ESQ_ERRINFO n, 0, 1⟩
def ESQ_GP_GP (n i : Nat) : Fld := ⟨Reg.ESQ_GP n i, 0, 32⟩
def ESQ_LDM_D (n i : Nat) : Fld := ⟨Reg.ESQ_LDM n i, 0, 32⟩
def CSE_CTL_PBREQ (n : Nat) : Fld := ⟨Reg.CSE_CTL n, 0, 1⟩
def CSE_STAT_PBANK (n : Nat) : Fld := ⟨Reg.CSE_STAT n, 8, 1⟩
def CSE_STAT_PBPEND (n : Nat) : Fld := ⟨Reg.CSE_STAT n, 0, 6⟩
def CSE_ERRINFO_ECC (n : Nat) : Fld := ⟨Reg.CSE_ERRINFO n, 1, 1⟩
def CSE_ERRINFO_PARAM (n : Nat) : Fld := ⟨Reg.CSE_ERRINFO n, 0, 1⟩
def CSE_EVT_CALX (n : Nat) : Fld := ⟨Reg.CSE_EVT n, 16, 6⟩
def CSE_EVT_NOCL (n : Nat) : Fld := ⟨Reg.CSE_EVT n, 8, 6⟩
def CSE_EVT_RDRP (n : Nat) : Fld := ⟨Reg.CSE_EVT n, 1, 1⟩
def CSE_EVT_PBSW (n : Nat) : Fld := ⟨Reg.CSE_EVT n, 0, 1⟩
def CSE_INTEN_CALX (n : Nat) : Fld := ⟨Reg.CSE_INTEN n, 16, 6⟩
def CSE_INTEN_NOCL (n : Nat) : Fld := ⟨Reg.CSE_INTEN n, 8, 6⟩
def CSE_INTEN_RDRP (n : Nat) : Fld := ⟨Reg.CSE_INTEN n, 1, 1⟩
def CSE_INTEN_PBSW (n : Nat) : Fld := ⟨Reg.CSE_INTEN n, 0, 1⟩
def CSE_RBASE_ADDR (n : Nat) : Fld := ⟨Reg.CSE_RBASE n, 4, 28⟩
def CSE_RCFG_RDROP (n : Nat) : Fld := ⟨Reg.CSE_RCFG n, 16, 16⟩
def CSE_RCFG_RSZ (n : Nat) : Fld := ⟨Reg.CSE_RCFG n, 0, 4⟩
def CSE_RWIDX_WIDX (n : Nat) : Fld := ⟨Reg.CSE_RWIDX n, 0, 10⟩
def CSE_RRIDX_RIDX (n : Nat) : Fld := ⟨Reg.CSE_RRIDX n, 0, 10⟩
def CRL_CFG_DT (k : Nat) : Fld := ⟨Reg.CRL_CFG k, 8, 8⟩
def CRL_CFG_FREACT (k : Nat) : Fld := ⟨Reg.CRL_CFG k, 2, 1⟩
def CRL_CFG_TOPO (k : Nat) : Fld := ⟨Reg.CRL_CFG k, 1, 1⟩
def CRL_CFG_EN (k : Nat) : Fld := ⟨Reg.CRL_CFG k, 0, 1⟩
def CRL_CTL_CALREQ (k : Nat) : Fld := ⟨Reg.CRL_CTL k, 1, 1⟩
def CRL_CTL_FCLR (k : Nat) : Fld := ⟨Reg.CRL_CTL k, 0, 1⟩
def CRL_STAT_CALST (k : Nat) : Fld := ⟨Reg.CRL_STAT k, 28, 4⟩
def CRL_STAT_IDL (k : Nat) : Fld := ⟨Reg.CRL_STAT k, 16, 1⟩
def CRL_STAT_PBK (k : Nat) : Fld := ⟨Reg.CRL_STAT k, 15, 1⟩
def CRL_STAT_PHASE (k : Nat) : Fld := ⟨Reg.CRL_STAT k, 12, 3⟩
def CRL_STAT_STATE (k : Nat) : Fld := ⟨Reg.CRL_STAT k, 0, 4⟩
def CRL_FLT_CAUSE (k : Nat) : Fld := ⟨Reg.CRL_FLT k, 28, 4⟩
def CRL_FLT_PRG (k : Nat) : Fld := ⟨Reg.CRL_FLT k, 5, 1⟩
def CRL_FLT_BUSY (k : Nat) : Fld := ⟨Reg.CRL_FLT k, 4, 1⟩
def CRL_FLT_OVC (k : Nat) : Fld := ⟨Reg.CRL_FLT k, 3, 1⟩
def CRL_FLT_SHORT (k : Nat) : Fld := ⟨Reg.CRL_FLT k, 2, 1⟩
def CRL_FLT_OPEN (k : Nat) : Fld := ⟨Reg.CRL_FLT k, 1, 1⟩
def CRL_LIM_OCT (k : Nat) : Fld := ⟨Reg.CRL_LIM k, 16, 16⟩
def CRL_LIM_TMIN (k : Nat) : Fld := ⟨Reg.CRL_LIM k, 0, 16⟩
def CRL_DTLIM_DTSTEP (k : Nat) : Fld := ⟨Reg.CRL_DTLIM k, 16, 15⟩
def CRL_DTLIM_DTLIM (k : Nat) : Fld := ⟨Reg.CRL_DTLIM k, 0, 15⟩
def CRL_IOFS_IOFS (k : Nat) : Fld := ⟨Reg.CRL_IOFS k, 0, 8⟩
def CRL_TALLY_NOCLCNT (k : Nat) : Fld := ⟨Reg.CRL_TALLY k, 16, 16⟩
def CRL_TALLY_BUSYCNT (k : Nat) : Fld := ⟨Reg.CRL_TALLY k, 8, 8⟩
def CRL_TALLY_TSKIP (k : Nat) : Fld := ⟨Reg.CRL_TALLY k, 0, 8⟩
def PADC_CFG_EN : Fld := ⟨Reg.PADC_CFG, 31, 1⟩
def PADC_CFG_TRK : Fld := ⟨Reg.PADC_CFG, 26, 2⟩
def PADC_CFG_SDIV : Fld := ⟨Reg.PADC_CFG, 21, 5⟩
def PADC_CFG_NHIST : Fld := ⟨Reg.PADC_CFG, 16, 4⟩
def PADC_CFG_N : Fld := ⟨Reg.PADC_CFG, 0, 13⟩
def PADC_WOFS_WOFS : Fld := ⟨Reg.PADC_WOFS, 0, 16⟩
def PADC_LOAD_INSVC : Fld := ⟨Reg.PADC_LOAD, 8, 4⟩
def PADC_LOAD_LOAD : Fld := ⟨Reg.PADC_LOAD, 0, 5⟩
def PADC_STAT_FILLCNT : Fld := ⟨Reg.PADC_STAT, 16, 16⟩
def PADC_STAT_MDROP : Fld := ⟨Reg.PADC_STAT, 8, 8⟩
def PADC_STAT_ABNCNT : Fld := ⟨Reg.PADC_STAT, 0, 8⟩
def PADC_ERRINFO_PARAM : Fld := ⟨Reg.PADC_ERRINFO, 0, 1⟩
def PADC_CAL_ROTP : Fld := ⟨Reg.PADC_CAL, 24, 8⟩
def PADC_CAL_STARVED : Fld := ⟨Reg.PADC_CAL, 20, 4⟩
def PADC_CAL_FAIL : Fld := ⟨Reg.PADC_CAL, 16, 4⟩
def PADC_CAL_DONE : Fld := ⟨Reg.PADC_CAL, 12, 4⟩
def PADC_CAL_PEND : Fld := ⟨Reg.PADC_CAL, 8, 4⟩
def PADC_CAL_BUSY : Fld := ⟨Reg.PADC_CAL, 4, 4⟩
def PADC_CAL_CALREQ : Fld := ⟨Reg.PADC_CAL, 0, 4⟩
def PADC_CORE_OFS (i : Nat) : Fld := ⟨Reg.PADC_CORE i, 16, 16⟩
def PADC_CORE_GC (i : Nat) : Fld := ⟨Reg.PADC_CORE i, 0, 16⟩
def PADC_CYL_EN (i : Nat) : Fld := ⟨Reg.PADC_CYL i, 31, 1⟩
def PADC_CYL_TDC (i : Nat) : Fld := ⟨Reg.PADC_CYL i, 0, 14⟩
def CAE_CTL_FCLR : Fld := ⟨Reg.CAE_CTL, 2, 1⟩
def CAE_CTL_KBREQ : Fld := ⟨Reg.CAE_CTL, 1, 1⟩
def CAE_CTL_RUN : Fld := ⟨Reg.CAE_CTL, 0, 1⟩
def CAE_STAT_RWIDX : Fld := ⟨Reg.CAE_STAT, 0, 9⟩
def CAE_ERRINFO_TOUT : Fld := ⟨Reg.CAE_ERRINFO, 2, 1⟩
def CAE_ERRINFO_ECC : Fld := ⟨Reg.CAE_ERRINFO, 1, 1⟩
def CAE_ERRINFO_PARAM : Fld := ⟨Reg.CAE_ERRINFO, 0, 1⟩
def CAE_STAT2_KBANK : Fld := ⟨Reg.CAE_STAT2, 4, 1⟩
def CAE_STAT2_STATE : Fld := ⟨Reg.CAE_STAT2, 0, 2⟩
def CAE_EVT_FAULT : Fld := ⟨Reg.CAE_EVT, 7, 1⟩
def CAE_EVT_KBSW : Fld := ⟨Reg.CAE_EVT, 6, 1⟩
def CAE_EVT_RQLOST : Fld := ⟨Reg.CAE_EVT, 5, 1⟩
def CAE_EVT_PHREJ : Fld := ⟨Reg.CAE_EVT, 4, 1⟩
def CAE_EVT_PHLIM : Fld := ⟨Reg.CAE_EVT, 3, 1⟩
def CAE_EVT_KNOCK : Fld := ⟨Reg.CAE_EVT, 2, 1⟩
def CAE_EVT_MISF : Fld := ⟨Reg.CAE_EVT, 1, 1⟩
def CAE_EVT_REC : Fld := ⟨Reg.CAE_EVT, 0, 1⟩
def CAE_INTEN_FAULT : Fld := ⟨Reg.CAE_INTEN, 7, 1⟩
def CAE_INTEN_KBSW : Fld := ⟨Reg.CAE_INTEN, 6, 1⟩
def CAE_INTEN_RQLOST : Fld := ⟨Reg.CAE_INTEN, 5, 1⟩
def CAE_INTEN_PHREJ : Fld := ⟨Reg.CAE_INTEN, 4, 1⟩
def CAE_INTEN_PHLIM : Fld := ⟨Reg.CAE_INTEN, 3, 1⟩
def CAE_INTEN_KNOCK : Fld := ⟨Reg.CAE_INTEN, 2, 1⟩
def CAE_INTEN_MISF : Fld := ⟨Reg.CAE_INTEN, 1, 1⟩
def CAE_INTEN_REC : Fld := ⟨Reg.CAE_INTEN, 0, 1⟩
def CAE_PEG_MODE : Fld := ⟨Reg.CAE_PEG, 31, 1⟩
def CAE_PEG_JB : Fld := ⟨Reg.CAE_PEG, 16, 13⟩
def CAE_PEG_JA : Fld := ⟨Reg.CAE_PEG, 0, 13⟩
def CAE_KWIN_KJE : Fld := ⟨Reg.CAE_KWIN, 16, 13⟩
def CAE_KWIN_KJS : Fld := ⟨Reg.CAE_KWIN, 0, 13⟩
def CAE_RQCFG_EN : Fld := ⟨Reg.CAE_RQCFG, 31, 1⟩
def CAE_RQCFG_Q : Fld := ⟨Reg.CAE_RQCFG, 0, 5⟩
def CAE_FF_EN : Fld := ⟨Reg.CAE_FF, 31, 1⟩
def CAE_FF_TRK : Fld := ⟨Reg.CAE_FF, 0, 2⟩
def CAE_PHCFG_EN : Fld := ⟨Reg.CAE_PHCFG, 31, 1⟩
def CAE_PHCFG_DBAND : Fld := ⟨Reg.CAE_PHCFG, 0, 16⟩
def CAE_PHGAIN_KP : Fld := ⟨Reg.CAE_PHGAIN, 16, 16⟩
def CAE_PHGAIN_KI : Fld := ⟨Reg.CAE_PHGAIN, 0, 16⟩
def CAE_PHLIM_TLIM : Fld := ⟨Reg.CAE_PHLIM, 0, 24⟩
def CAE_PHSTEP_TSTEP : Fld := ⟨Reg.CAE_PHSTEP, 0, 24⟩
def CAE_TALLY_MISCNT : Fld := ⟨Reg.CAE_TALLY, 16, 16⟩
def CAE_TALLY_TREJ : Fld := ⟨Reg.CAE_TALLY, 8, 8⟩
def CAE_TALLY_RQLOST : Fld := ⟨Reg.CAE_TALLY, 0, 8⟩
def CAE_CYLW0_GAIN (i : Nat) : Fld := ⟨Reg.CAE_CYLW0 i, 0, 32⟩
def CAE_CYLW1_PHEN (i : Nat) : Fld := ⟨Reg.CAE_CYLW1 i, 31, 1⟩
def CAE_CYLW1_TGT (i : Nat) : Fld := ⟨Reg.CAE_CYLW1 i, 0, 16⟩
def CAE_CYLW2_EVBV (i : Nat) : Fld := ⟨Reg.CAE_CYLW2 i, 31, 1⟩
def CAE_CYLW2_EVB (i : Nat) : Fld := ⟨Reg.CAE_CYLW2 i, 16, 10⟩
def CAE_CYLW2_EVA (i : Nat) : Fld := ⟨Reg.CAE_CYLW2 i, 0, 10⟩
def CAE_CYLW3_PHST (i : Nat) : Fld := ⟨Reg.CAE_CYLW3 i, 28, 4⟩
def CAE_CYLW3_TC (i : Nat) : Fld := ⟨Reg.CAE_CYLW3 i, 0, 24⟩
def GPTt_CTL_PSC (t : Nat) : Fld := ⟨Reg.GPTt_CTL t, 8, 8⟩
def GPTt_CTL_PIE (t : Nat) : Fld := ⟨Reg.GPTt_CTL t, 4, 1⟩
def GPTt_CTL_IMM (t : Nat) : Fld := ⟨Reg.GPTt_CTL t, 3, 1⟩
def GPTt_CTL_MODE (t : Nat) : Fld := ⟨Reg.GPTt_CTL t, 1, 2⟩
def GPTt_CTL_RUN (t : Nat) : Fld := ⟨Reg.GPTt_CTL t, 0, 1⟩
def GPTt_CNT_CNT (t : Nat) : Fld := ⟨Reg.GPTt_CNT t, 0, 32⟩
def GPTt_PER_PER (t : Nat) : Fld := ⟨Reg.GPTt_PER t, 0, 32⟩
def GPTt_STAT_PSHORT (t : Nat) : Fld := ⟨Reg.GPTt_STAT t, 1, 1⟩
def GPTt_STAT_PEV (t : Nat) : Fld := ⟨Reg.GPTt_STAT t, 0, 1⟩
def GPTt_CCFG_IE (t i : Nat) : Fld := ⟨Reg.GPTt_CCFG t i, 16, 1⟩
def GPTt_CCFG_EDGE (t i : Nat) : Fld := ⟨Reg.GPTt_CCFG t i, 14, 2⟩
def GPTt_CCFG_SRC (t i : Nat) : Fld := ⟨Reg.GPTt_CCFG t i, 8, 6⟩
def GPTt_CCFG_MODE (t i : Nat) : Fld := ⟨Reg.GPTt_CCFG t i, 0, 2⟩
def GPTt_CMP_CMP (t i : Nat) : Fld := ⟨Reg.GPTt_CMP t i, 0, 32⟩
def GPTt_CAP_CAP (t i : Nat) : Fld := ⟨Reg.GPTt_CAP t i, 0, 32⟩
def GPTt_CSTAT_DROP (t i : Nat) : Fld := ⟨Reg.GPTt_CSTAT t i, 16, 16⟩
def GPTt_CSTAT_EVT (t i : Nat) : Fld := ⟨Reg.GPTt_CSTAT t i, 5, 1⟩
def GPTt_CSTAT_SAT (t i : Nat) : Fld := ⟨Reg.GPTt_CSTAT t i, 4, 1⟩
def GPTt_CSTAT_OVR (t i : Nat) : Fld := ⟨Reg.GPTt_CSTAT t i, 3, 1⟩
def GPTt_CSTAT_CNT (t i : Nat) : Fld := ⟨Reg.GPTt_CSTAT t i, 0, 3⟩
def GPT_BREW_MASK : Fld := ⟨Reg.GPT_BREW, 0, 32⟩
def GPT_BREWC_RING : Fld := ⟨Reg.GPT_BREWC, 0, 1⟩
def GPT_RBMSK_RBMSK : Fld := ⟨Reg.GPT_RBMSK, 0, 32⟩
def GPT_BSTAT_RBBUSY : Fld := ⟨Reg.GPT_BSTAT, 1, 1⟩
def GPT_BSTAT_RBMISS : Fld := ⟨Reg.GPT_BSTAT, 0, 1⟩
def GPT_ERRINFO_TMR : Fld := ⟨Reg.GPT_ERRINFO, 1, 5⟩
def GPT_ERRINFO_PARAM : Fld := ⟨Reg.GPT_ERRINFO, 0, 1⟩
def HADC_CTL_CALREQ : Fld := ⟨Reg.HADC_CTL, 1, 1⟩
def HADC_CTL_EN : Fld := ⟨Reg.HADC_CTL, 0, 1⟩
def HADC_STAT_CALST : Fld := ⟨Reg.HADC_STAT, 28, 4⟩
def HADC_STAT_CALSTEP : Fld := ⟨Reg.HADC_STAT, 16, 5⟩
def HADC_STAT_CALSTRV : Fld := ⟨Reg.HADC_STAT, 9, 1⟩
def HADC_STAT_CALX : Fld := ⟨Reg.HADC_STAT, 8, 1⟩
def HADC_STAT_BUSY : Fld := ⟨Reg.HADC_STAT, 5, 1⟩
def HADC_STAT_ACTSEQ : Fld := ⟨Reg.HADC_STAT, 2, 2⟩
def HADC_ERRINFO_PARAM : Fld := ⟨Reg.HADC_ERRINFO, 0, 1⟩
def HADC_SWTRG_STOP : Fld := ⟨Reg.HADC_SWTRG, 4, 4⟩
def HADC_SWTRG_TRG : Fld := ⟨Reg.HADC_SWTRG, 0, 4⟩
def HADC_COEF_OFS : Fld := ⟨Reg.HADC_COEF, 16, 16⟩
def HADC_COEF_GC : Fld := ⟨Reg.HADC_COEF, 0, 16⟩
def HADC_TCAL_K (i : Nat) : Fld := ⟨Reg.HADC_TCAL i, 16, 16⟩
def HADC_TCAL_C25 (i : Nat) : Fld := ⟨Reg.HADC_TCAL i, 0, 12⟩
def HADC_SEQCFG_EN (i : Nat) : Fld := ⟨Reg.HADC_SEQCFG i, 31, 1⟩
def HADC_SEQCFG_LOOP (i : Nat) : Fld := ⟨Reg.HADC_SEQCFG i, 30, 1⟩
def HADC_SEQCFG_TTYP (i : Nat) : Fld := ⟨Reg.HADC_SEQCFG i, 27, 3⟩
def HADC_SEQCFG_IE (i : Nat) : Fld := ⟨Reg.HADC_SEQCFG i, 26, 1⟩
def HADC_SEQCFG_TEDGE (i : Nat) : Fld := ⟨Reg.HADC_SEQCFG i, 24, 2⟩
def HADC_SEQCFG_TSEL (i : Nat) : Fld := ⟨Reg.HADC_SEQCFG i, 16, 6⟩
def HADC_SEQCFG_END (i : Nat) : Fld := ⟨Reg.HADC_SEQCFG i, 8, 5⟩
def HADC_SEQCFG_START (i : Nat) : Fld := ⟨Reg.HADC_SEQCFG i, 0, 5⟩
def HADC_SEQDLY_TDLY (i : Nat) : Fld := ⟨Reg.HADC_SEQDLY i, 0, 16⟩
def HADC_SEQANG_TRK (i : Nat) : Fld := ⟨Reg.HADC_SEQANG i, 24, 2⟩
def HADC_SEQANG_ANG (i : Nat) : Fld := ⟨Reg.HADC_SEQANG i, 0, 24⟩
def HADC_SEQSTAT_TLOST (i : Nat) : Fld := ⟨Reg.HADC_SEQSTAT i, 16, 16⟩
def HADC_SEQSTAT_TOVR (i : Nat) : Fld := ⟨Reg.HADC_SEQSTAT i, 1, 1⟩
def HADC_SEQSTAT_DONE (i : Nat) : Fld := ⟨Reg.HADC_SEQSTAT i, 0, 1⟩
def HADC_ENT_DIFF (i : Nat) : Fld := ⟨Reg.HADC_ENT i, 17, 1⟩
def HADC_ENT_ALIGN (i : Nat) : Fld := ⟨Reg.HADC_ENT i, 16, 1⟩
def HADC_ENT_DLY (i : Nat) : Fld := ⟨Reg.HADC_ENT i, 8, 8⟩
def HADC_ENT_RPT (i : Nat) : Fld := ⟨Reg.HADC_ENT i, 5, 3⟩
def HADC_ENT_CH (i : Nat) : Fld := ⟨Reg.HADC_ENT i, 0, 5⟩
def HADC_RES_NEW (i : Nat) : Fld := ⟨Reg.HADC_RES i, 31, 1⟩
def HADC_RES_OVW (i : Nat) : Fld := ⟨Reg.HADC_RES i, 30, 1⟩
def HADC_RES_CH (i : Nat) : Fld := ⟨Reg.HADC_RES i, 16, 5⟩
def HADC_RES_VALUE (i : Nat) : Fld := ⟨Reg.HADC_RES i, 0, 16⟩
def CMP_CFG_HYS (i : Nat) : Fld := ⟨Reg.CMP_CFG i, 16, 4⟩
def CMP_CFG_AON (i : Nat) : Fld := ⟨Reg.CMP_CFG i, 8, 1⟩
def CMP_CFG_WAKE (i : Nat) : Fld := ⟨Reg.CMP_CFG i, 7, 1⟩
def CMP_CFG_IE (i : Nat) : Fld := ⟨Reg.CMP_CFG i, 6, 1⟩
def CMP_CFG_LCLR (i : Nat) : Fld := ⟨Reg.CMP_CFG i, 5, 1⟩
def CMP_CFG_EDGE (i : Nat) : Fld := ⟨Reg.CMP_CFG i, 3, 2⟩
def CMP_CFG_PUS (i : Nat) : Fld := ⟨Reg.CMP_CFG i, 2, 1⟩
def CMP_CFG_EN (i : Nat) : Fld := ⟨Reg.CMP_CFG i, 0, 1⟩
def CMP_THR_THRH (i : Nat) : Fld := ⟨Reg.CMP_THR i, 16, 10⟩
def CMP_THR_THRL (i : Nat) : Fld := ⟨Reg.CMP_THR i, 0, 10⟩
def CMP_STAT_ELOST (i : Nat) : Fld := ⟨Reg.CMP_STAT i, 16, 16⟩
def CMP_STAT_OWNED (i : Nat) : Fld := ⟨Reg.CMP_STAT i, 2, 1⟩
def CMP_STAT_INBAND (i : Nat) : Fld := ⟨Reg.CMP_STAT i, 1, 1⟩
def CMP_STAT_OUT (i : Nat) : Fld := ⟨Reg.CMP_STAT i, 0, 1⟩
def CMP_LAT_FALL (i : Nat) : Fld := ⟨Reg.CMP_LAT i, 1, 1⟩
def CMP_LAT_RISE (i : Nat) : Fld := ⟨Reg.CMP_LAT i, 0, 1⟩
def CMP_WCFG_EN (i : Nat) : Fld := ⟨Reg.CMP_WCFG i, 31, 1⟩
def CMP_WCFG_SRC (i : Nat) : Fld := ⟨Reg.CMP_WCFG i, 0, 5⟩
def CMP_WSTAT_EXIT (i : Nat) : Fld := ⟨Reg.CMP_WSTAT i, 2, 1⟩
def CMP_WSTAT_ENTER (i : Nat) : Fld := ⟨Reg.CMP_WSTAT i, 1, 1⟩
def CMP_WSTAT_IN (i : Nat) : Fld := ⟨Reg.CMP_WSTAT i, 0, 1⟩
def CMP_ERRINFO_PARAM : Fld := ⟨Reg.CMP_ERRINFO, 0, 1⟩
def CPR_PAIRCTL_HBT (i : Nat) : Fld := ⟨Reg.CPR_PAIRCTL i, 16, 8⟩
def CPR_PAIRCTL_ROLE (i : Nat) : Fld := ⟨Reg.CPR_PAIRCTL i, 4, 2⟩
def CPR_PAIRCTL_TEST (i : Nat) : Fld := ⟨Reg.CPR_PAIRCTL i, 3, 1⟩
def CPR_PAIRCTL_SPLIT (i : Nat) : Fld := ⟨Reg.CPR_PAIRCTL i, 2, 1⟩
def CPR_PAIRCTL_RUN (i : Nat) : Fld := ⟨Reg.CPR_PAIRCTL i, 1, 1⟩
def CPR_PAIRCTL_PWR (i : Nat) : Fld := ⟨Reg.CPR_PAIRCTL i, 0, 1⟩
def CPR_PAIRSTAT_CAUSE (i : Nat) : Fld := ⟨Reg.CPR_PAIRSTAT i, 28, 4⟩
def CPR_PAIRSTAT_STRES (i : Nat) : Fld := ⟨Reg.CPR_PAIRSTAT i, 8, 2⟩
def CPR_PAIRSTAT_STATE (i : Nat) : Fld := ⟨Reg.CPR_PAIRSTAT i, 0, 3⟩
def CPR_PAIRHB_HB (i : Nat) : Fld := ⟨Reg.CPR_PAIRHB i, 0, 32⟩
def CPR_DPXCTL_CKSZ : Fld := ⟨Reg.CPR_DPXCTL, 16, 8⟩
def CPR_DPXCTL_TKEN : Fld := ⟨Reg.CPR_DPXCTL, 1, 1⟩
def CPR_DPXCTL_EN : Fld := ⟨Reg.CPR_DPXCTL, 0, 1⟩
def CPR_DPXSTAT_CKSEQ : Fld := ⟨Reg.CPR_DPXSTAT, 16, 16⟩
def CPR_DPXSTAT_TKCNT : Fld := ⟨Reg.CPR_DPXSTAT, 8, 8⟩
def CPR_DPXSTAT_TKACK : Fld := ⟨Reg.CPR_DPXSTAT, 2, 1⟩
def CPR_DPXSTAT_CKREF : Fld := ⟨Reg.CPR_DPXSTAT, 1, 1⟩
def CPR_DPXSTAT_ACT : Fld := ⟨Reg.CPR_DPXSTAT, 0, 1⟩
def CPR_CKCOMMIT_SEQ : Fld := ⟨Reg.CPR_CKCOMMIT, 0, 16⟩
def CPR_CKACK_SEQ : Fld := ⟨Reg.CPR_CKACK, 0, 16⟩
def CPR_DPXCKB0_ADDR : Fld := ⟨Reg.CPR_DPXCKB0, 0, 32⟩
def CPR_DPXCKB1_ADDR : Fld := ⟨Reg.CPR_DPXCKB1, 0, 32⟩
def CPR_SVC_COAST : Fld := ⟨Reg.CPR_SVC, 0, 1⟩
def IRQC_SRCCFG_WAKE (i : Nat) : Fld := ⟨Reg.IRQC_SRCCFG i, 16, 1⟩
def IRQC_SRCCFG_FBEN (i : Nat) : Fld := ⟨Reg.IRQC_SRCCFG i, 15, 1⟩
def IRQC_SRCCFG_FBT (i : Nat) : Fld := ⟨Reg.IRQC_SRCCFG i, 12, 3⟩
def IRQC_SRCCFG_TARGET (i : Nat) : Fld := ⟨Reg.IRQC_SRCCFG i, 8, 3⟩
def IRQC_SRCCFG_PRIO (i : Nat) : Fld := ⟨Reg.IRQC_SRCCFG i, 0, 4⟩
def IRQC_ENSET_EN (i : Nat) : Fld := ⟨Reg.IRQC_ENSET i, 0, 32⟩
def IRQC_ENCLR_EN (i : Nat) : Fld := ⟨Reg.IRQC_ENCLR i, 0, 32⟩
def IRQC_PNDSET_PND (i : Nat) : Fld := ⟨Reg.IRQC_PNDSET i, 0, 32⟩
def IRQC_PNDCLR_PND (i : Nat) : Fld := ⟨Reg.IRQC_PNDCLR i, 0, 32⟩
def IRQC_ACTV_ACT (i : Nat) : Fld := ⟨Reg.IRQC_ACTV i, 0, 32⟩
def IRQC_VTBASE_BASE (i : Nat) : Fld := ⟨Reg.IRQC_VTBASE i, 11, 21⟩
def IRQC_TSTAT_OFFER (i : Nat) : Fld := ⟨Reg.IRQC_TSTAT i, 16, 8⟩
def IRQC_TSTAT_OFV (i : Nat) : Fld := ⟨Reg.IRQC_TSTAT i, 15, 1⟩
def IRQC_TSTAT_PWR (i : Nat) : Fld := ⟨Reg.IRQC_TSTAT i, 4, 3⟩
def IRQC_ERRINFO_PARAM : Fld := ⟨Reg.IRQC_ERRINFO, 0, 1⟩
def MEMC_BANKCTL_BIST (i : Nat) : Fld := ⟨Reg.MEMC_BANKCTL i, 8, 1⟩
def MEMC_BANKCTL_SCRUB (i : Nat) : Fld := ⟨Reg.MEMC_BANKCTL i, 4, 1⟩
def MEMC_BANKCTL_OFFL (i : Nat) : Fld := ⟨Reg.MEMC_BANKCTL i, 0, 1⟩
def MEMC_BANKSTAT_CECNT (i : Nat) : Fld := ⟨Reg.MEMC_BANKSTAT i, 16, 16⟩
def MEMC_BANKSTAT_BISTRES (i : Nat) : Fld := ⟨Reg.MEMC_BANKSTAT i, 8, 2⟩
def MEMC_BANKSTAT_UE (i : Nat) : Fld := ⟨Reg.MEMC_BANKSTAT i, 4, 1⟩
def MEMC_BANKSTAT_ISOFF (i : Nat) : Fld := ⟨Reg.MEMC_BANKSTAT i, 0, 1⟩
def MEMC_UEADDR_ADDR (i : Nat) : Fld := ⟨Reg.MEMC_UEADDR i, 0, 32⟩
def MEMC_SCRUB_SDIV : Fld := ⟨Reg.MEMC_SCRUB, 0, 16⟩
def MEMC_ERRINFO_PARAM : Fld := ⟨Reg.MEMC_ERRINFO, 0, 1⟩
def ACT_CTL_SWREQ : Fld := ⟨Reg.ACT_CTL, 1, 1⟩
def ACT_CTL_SEL : Fld := ⟨Reg.ACT_CTL, 0, 1⟩
def ACT_REVOKEL_MID : Fld := ⟨Reg.ACT_REVOKEL, 0, 32⟩
def ACT_REVOKEH_MID : Fld := ⟨Reg.ACT_REVOKEH, 0, 32⟩
def ACT_VREC0_VALID : Fld := ⟨Reg.ACT_VREC0, 31, 1⟩
def ACT_VREC0_WRITE : Fld := ⟨Reg.ACT_VREC0, 30, 1⟩
def ACT_VREC0_MID : Fld := ⟨Reg.ACT_VREC0, 24, 6⟩
def ACT_VREC0_CAUSE : Fld := ⟨Reg.ACT_VREC0, 20, 4⟩
def ACT_VREC0_CNT : Fld := ⟨Reg.ACT_VREC0, 0, 16⟩
def ACT_BERR0_VALID : Fld := ⟨Reg.ACT_BERR0, 31, 1⟩
def ACT_BERR0_WRITE : Fld := ⟨Reg.ACT_BERR0, 30, 1⟩
def ACT_BERR0_MID : Fld := ⟨Reg.ACT_BERR0, 24, 6⟩
def ACT_BERR0_CAUSE : Fld := ⟨Reg.ACT_BERR0, 20, 4⟩
def ACT_BERR0_CNT : Fld := ⟨Reg.ACT_BERR0, 0, 16⟩
def ACT_VREC1_ADDR : Fld := ⟨Reg.ACT_VREC1, 0, 32⟩
def ACT_BERR1_ADDR : Fld := ⟨Reg.ACT_BERR1, 0, 32⟩
def ARB_RANK_RANK0 (i : Nat) : Fld := ⟨Reg.ARB_RANK i, 0, 3⟩
def ARB_RANK_RANK1 (i : Nat) : Fld := ⟨Reg.ARB_RANK i, 4, 3⟩
def ARB_RANK_RANK2 (i : Nat) : Fld := ⟨Reg.ARB_RANK i, 8, 3⟩
def ARB_RANK_RANK3 (i : Nat) : Fld := ⟨Reg.ARB_RANK i, 12, 3⟩
def ARB_RANK_RANK4 (i : Nat) : Fld := ⟨Reg.ARB_RANK i, 16, 3⟩
def ARB_RANK_RANK5 (i : Nat) : Fld := ⟨Reg.ARB_RANK i, 20, 3⟩
def ARB_RANK_RANK6 (i : Nat) : Fld := ⟨Reg.ARB_RANK i, 24, 3⟩
def ARB_RANK_RANK7 (i : Nat) : Fld := ⟨Reg.ARB_RANK i, 28, 3⟩
def ARB_CFG_REFILL : Fld := ⟨Reg.ARB_CFG, 0, 7⟩
def LKB_ACQ_OWNER (i : Nat) : Fld := ⟨Reg.LKB_ACQ i, 16, 6⟩
def LKB_ACQ_RES (i : Nat) : Fld := ⟨Reg.LKB_ACQ i, 0, 4⟩
def LKB_TRY_OWNER (i : Nat) : Fld := ⟨Reg.LKB_TRY i, 16, 6⟩
def LKB_TRY_RES (i : Nat) : Fld := ⟨Reg.LKB_TRY i, 0, 4⟩
def LKB_REL_ANY (i : Nat) : Fld := ⟨Reg.LKB_REL i, 0, 32⟩
def LKB_STAT_HELD (i : Nat) : Fld := ⟨Reg.LKB_STAT i, 31, 1⟩
def LKB_STAT_BROKEN (i : Nat) : Fld := ⟨Reg.LKB_STAT i, 30, 1⟩
def LKB_STAT_OWNER (i : Nat) : Fld := ⟨Reg.LKB_STAT i, 24, 6⟩
def LKB_STAT_NWAIT (i : Nat) : Fld := ⟨Reg.LKB_STAT i, 16, 6⟩
def LKB_TMO_TMO : Fld := ⟨Reg.LKB_TMO, 0, 16⟩
def LKB_WSTAT_WV (i : Nat) : Fld := ⟨Reg.LKB_WSTAT i, 31, 1⟩
def LKB_WSTAT_GRANT (i : Nat) : Fld := ⟨Reg.LKB_WSTAT i, 30, 1⟩
def LKB_WSTAT_TOUT (i : Nat) : Fld := ⟨Reg.LKB_WSTAT i, 29, 1⟩
def LKB_WSTAT_DLCK (i : Nat) : Fld := ⟨Reg.LKB_WSTAT i, 28, 1⟩
def LKB_WSTAT_SRC (i : Nat) : Fld := ⟨Reg.LKB_WSTAT i, 24, 3⟩
def LKB_WSTAT_LOCK (i : Nat) : Fld := ⟨Reg.LKB_WSTAT i, 0, 6⟩
def LKB_ERRINFO_NOTOWN : Fld := ⟨Reg.LKB_ERRINFO, 1, 1⟩
def LKB_ERRINFO_PARAM : Fld := ⟨Reg.LKB_ERRINFO, 0, 1⟩
def DMA_CTL_RST (n : Nat) : Fld := ⟨Reg.DMA_CTL n, 7, 1⟩
def DMA_CTL_CLRERR (n : Nat) : Fld := ⟨Reg.DMA_CTL n, 6, 1⟩
def DMA_CTL_EIE (n : Nat) : Fld := ⟨Reg.DMA_CTL n, 5, 1⟩
def DMA_CTL_DIE (n : Nat) : Fld := ⟨Reg.DMA_CTL n, 4, 1⟩
def DMA_CTL_KICK (n : Nat) : Fld := ⟨Reg.DMA_CTL n, 1, 1⟩
def DMA_CTL_EN (n : Nat) : Fld := ⟨Reg.DMA_CTL n, 0, 1⟩
def DMA_RBASE_ADDR (n : Nat) : Fld := ⟨Reg.DMA_RBASE n, 5, 27⟩
def DMA_RCFG_CUR (n : Nat) : Fld := ⟨Reg.DMA_RCFG n, 16, 10⟩
def DMA_RCFG_RSZ (n : Nat) : Fld := ⟨Reg.DMA_RCFG n, 0, 4⟩
def DMA_STAT_DONEF (n : Nat) : Fld := ⟨Reg.DMA_STAT n, 31, 1⟩
def DMA_STAT_WBERR (n : Nat) : Fld := ⟨Reg.DMA_STAT n, 30, 1⟩
def DMA_STAT_PARAM (n : Nat) : Fld := ⟨Reg.DMA_STAT n, 29, 1⟩
def DMA_STAT_QWAIT (n : Nat) : Fld := ⟨Reg.DMA_STAT n, 28, 1⟩
def DMA_STAT_DCNT (n : Nat) : Fld := ⟨Reg.DMA_STAT n, 8, 16⟩
def DMA_STAT_STATE (n : Nat) : Fld := ⟨Reg.DMA_STAT n, 0, 3⟩
def Q_CFG_EN (q : Nat) : Fld := ⟨Reg.Q_CFG q, 31, 1⟩
def Q_CFG_MODE (q : Nat) : Fld := ⟨Reg.Q_CFG q, 30, 1⟩
def Q_CFG_CRAUTO (q : Nat) : Fld := ⟨Reg.Q_CFG q, 29, 1⟩
def Q_CFG_DSH (q : Nat) : Fld := ⟨Reg.Q_CFG q, 24, 4⟩
def Q_CFG_PMID (q : Nat) : Fld := ⟨Reg.Q_CFG q, 16, 6⟩
def Q_CFG_BASE (q : Nat) : Fld := ⟨Reg.Q_CFG q, 0, 14⟩
def Q_CFG2_IE (q : Nat) : Fld := ⟨Reg.Q_CFG2 q, 31, 1⟩
def Q_CFG2_EIE (q : Nat) : Fld := ⟨Reg.Q_CFG2 q, 30, 1⟩
def Q_CFG2_CMID (q : Nat) : Fld := ⟨Reg.Q_CFG2 q, 24, 6⟩
def Q_CFG2_WM (q : Nat) : Fld := ⟨Reg.Q_CFG2 q, 0, 15⟩
def Q_CFG3_INITCR (q : Nat) : Fld := ⟨Reg.Q_CFG3 q, 0, 15⟩
def Q_PUSH_D (q : Nat) : Fld := ⟨Reg.Q_PUSH q, 0, 32⟩
def Q_PTAG_TAG (q : Nat) : Fld := ⟨Reg.Q_PTAG q, 0, 6⟩
def Q_POP_D (q : Nat) : Fld := ⟨Reg.Q_POP q, 0, 32⟩
def Q_POPSTAT_VALID (q : Nat) : Fld := ⟨Reg.Q_POPSTAT q, 31, 1⟩
def Q_POPSTAT_UE (q : Nat) : Fld := ⟨Reg.Q_POPSTAT q, 30, 1⟩
def Q_POPSTAT_POISON (q : Nat) : Fld := ⟨Reg.Q_POPSTAT q, 29, 1⟩
def Q_POPSTAT_TAG (q : Nat) : Fld := ⟨Reg.Q_POPSTAT q, 16, 6⟩
def Q_POPSTAT_LEFT (q : Nat) : Fld := ⟨Reg.Q_POPSTAT q, 0, 15⟩
def Q_CREDIT_RSV (q : Nat) : Fld := ⟨Reg.Q_CREDIT q, 16, 15⟩
def Q_CREDIT_CRED (q : Nat) : Fld := ⟨Reg.Q_CREDIT q, 0, 15⟩
def Q_GRANT_N (q : Nat) : Fld := ⟨Reg.Q_GRANT q, 0, 15⟩
def Q_STAT_NOCR (q : Nat) : Fld := ⟨Reg.Q_STAT q, 31, 1⟩
def Q_STAT_LOSTF (q : Nat) : Fld := ⟨Reg.Q_STAT q, 30, 1⟩
def Q_STAT_UEF (q : Nat) : Fld := ⟨Reg.Q_STAT q, 29, 1⟩
def Q_STAT_WRONG (q : Nat) : Fld := ⟨Reg.Q_STAT q, 28, 1⟩
def Q_STAT_CNT (q : Nat) : Fld := ⟨Reg.Q_STAT q, 0, 15⟩
def Q_TALLY_CECNT (q : Nat) : Fld := ⟨Reg.Q_TALLY q, 24, 8⟩
def Q_TALLY_UECNT (q : Nat) : Fld := ⟨Reg.Q_TALLY q, 16, 8⟩
def Q_TALLY_LOSTCNT (q : Nat) : Fld := ⟨Reg.Q_TALLY q, 0, 16⟩
def QM_ERRINFO_QNUM : Fld := ⟨Reg.QM_ERRINFO, 3, 5⟩
def QM_ERRINFO_PARAM : Fld := ⟨Reg.QM_ERRINFO, 0, 1⟩
def KTL_CFG_LOCK : Fld := ⟨Reg.KTL_CFG, 31, 1⟩
def KTL_CFG_HBT : Fld := ⟨Reg.KTL_CFG, 0, 16⟩
def KTL_HB_HB : Fld := ⟨Reg.KTL_HB, 0, 32⟩
def KTL_STAT_NRST10 : Fld := ⟨Reg.KTL_STAT, 24, 8⟩
def KTL_STAT_LCAUSE : Fld := ⟨Reg.KTL_STAT, 8, 8⟩
def KTL_STAT_SAFE : Fld := ⟨Reg.KTL_STAT, 2, 1⟩
def KTL_STAT_WARN : Fld := ⟨Reg.KTL_STAT, 1, 1⟩
def KTL_HIST_AONSEC (i : Nat) : Fld := ⟨Reg.KTL_HIST i, 0, 32⟩
def KTL_RCNT_RCNT : Fld := ⟨Reg.KTL_RCNT, 0, 16⟩
def PST_STATE_INCID : Fld := ⟨Reg.PST_STATE, 4, 1⟩
def PST_STATE_MODE : Fld := ⟨Reg.PST_STATE, 0, 2⟩
def PST_LSEQ_LSEQ : Fld := ⟨Reg.PST_LSEQ, 0, 32⟩
def PST_LOSS0_ERRLOSS : Fld := ⟨Reg.PST_LOSS0, 16, 16⟩
def PST_LOSS0_WARNLOSS : Fld := ⟨Reg.PST_LOSS0, 0, 16⟩
def PST_LOSS1_INFOLOSS : Fld := ⟨Reg.PST_LOSS1, 16, 16⟩
def PST_LOSS1_BADITEM : Fld := ⟨Reg.PST_LOSS1, 0, 16⟩
def PST_LINC_INC : Fld := ⟨Reg.PST_LINC, 0, 4⟩
def PST_RPOL_PAIRMAX : Fld := ⟨Reg.PST_RPOL, 8, 8⟩
def PST_RPOL_PEERREL : Fld := ⟨Reg.PST_RPOL, 4, 1⟩
def PST_RPOL_CAEREST : Fld := ⟨Reg.PST_RPOL, 3, 1⟩
def PST_RPOL_ESQOUT : Fld := ⟨Reg.PST_RPOL, 2, 1⟩
def PST_RPOL_ESQSPARE : Fld := ⟨Reg.PST_RPOL, 1, 1⟩
def PST_RPOL_PAIRRST : Fld := ⟨Reg.PST_RPOL, 0, 1⟩
def DBG_STAT_ARBCNT : Fld := ⟨Reg.DBG_STAT, 16, 8⟩
def DBG_STAT_REVK : Fld := ⟨Reg.DBG_STAT, 8, 4⟩
def DBG_STAT_STATE : Fld := ⟨Reg.DBG_STAT, 0, 2⟩
def RING_CTL_EN : Fld := ⟨Reg.RING_CTL, 0, 1⟩
def RING_CFG_MVOTE : Fld := ⟨Reg.RING_CFG, 24, 4⟩
def RING_CFG_FOLLOW : Fld := ⟨Reg.RING_CFG, 16, 4⟩
def RING_CFG_AUTOREL : Fld := ⟨Reg.RING_CFG, 14, 1⟩
def RING_CFG_KEEP : Fld := ⟨Reg.RING_CFG, 13, 1⟩
def RING_CFG_TKEN : Fld := ⟨Reg.RING_CFG, 12, 1⟩
def RING_CFG_MSTR : Fld := ⟨Reg.RING_CFG, 8, 1⟩
def RING_CFG_OBS : Fld := ⟨Reg.RING_CFG, 5, 1⟩
def RING_CFG_MODE : Fld := ⟨Reg.RING_CFG, 4, 1⟩
def RING_CFG_MEMB : Fld := ⟨Reg.RING_CFG, 0, 2⟩
def RING_STAT_STATE : Fld := ⟨Reg.RING_STAT, 29, 3⟩
def RING_STAT_TBLK : Fld := ⟨Reg.RING_STAT, 28, 1⟩
def RING_STAT_LINK : Fld := ⟨Reg.RING_STAT, 24, 4⟩
def RING_STAT_MASTER : Fld := ⟨Reg.RING_STAT, 22, 2⟩
def RING_STAT_ACTMEM : Fld := ⟨Reg.RING_STAT, 20, 2⟩
def RING_STAT_ACTV : Fld := ⟨Reg.RING_STAT, 19, 1⟩
def RING_STAT_SEEN : Fld := ⟨Reg.RING_STAT, 12, 4⟩
def RING_STAT_OREL : Fld := ⟨Reg.RING_STAT, 11, 1⟩
def RING_STAT_DEGR : Fld := ⟨Reg.RING_STAT, 10, 1⟩
def RING_STAT_LINKF : Fld := ⟨Reg.RING_STAT, 8, 1⟩
def RING_STAT_MMF : Fld := ⟨Reg.RING_STAT, 7, 1⟩
def RING_STAT_TKOVR : Fld := ⟨Reg.RING_STAT, 6, 1⟩
def RING_STAT_ORELF : Fld := ⟨Reg.RING_STAT, 5, 1⟩
def RING_STAT_LOSTF : Fld := ⟨Reg.RING_STAT, 4, 1⟩
def RING_STAT_CHG : Fld := ⟨Reg.RING_STAT, 3, 1⟩
def RING_TBERR_STEP : Fld := ⟨Reg.RING_TBERR, 31, 1⟩
def RING_TBERR_ERR : Fld := ⟨Reg.RING_TBERR, 0, 16⟩
def RING_LDLY_WDLY : Fld := ⟨Reg.RING_LDLY, 16, 12⟩
def RING_LDLY_EDLY : Fld := ⟨Reg.RING_LDLY, 0, 12⟩
def RING_TALLY0_MISSCNT : Fld := ⟨Reg.RING_TALLY0, 16, 16⟩
def RING_TALLY0_CRCCNT : Fld := ⟨Reg.RING_TALLY0, 0, 16⟩
def RING_TALLY1_MMCNT : Fld := ⟨Reg.RING_TALLY1, 16, 16⟩
def RING_TALLY1_TKCNT : Fld := ⟨Reg.RING_TALLY1, 8, 8⟩
def RING_TALLY1_TURNCNT : Fld := ⟨Reg.RING_TALLY1, 0, 8⟩
def RING_ROLES_ROLES : Fld := ⟨Reg.RING_ROLES, 0, 8⟩
def RING_DMSKL_CH : Fld := ⟨Reg.RING_DMSKL, 0, 32⟩
def RING_DMSKH_CH : Fld := ⟨Reg.RING_DMSKH, 0, 32⟩
def RING_UBMSK_ESQ : Fld := ⟨Reg.RING_UBMSK, 0, 8⟩
def RING_OREL_ASSERT : Fld := ⟨Reg.RING_OREL, 0, 4⟩
def RING_INTEN_IE : Fld := ⟨Reg.RING_INTEN, 0, 4⟩
def RING_ERRINFO_PARAM : Fld := ⟨Reg.RING_ERRINFO, 0, 1⟩
def CPR_PARTID_DIE : Fld := ⟨Reg.CPR_PARTID, 16, 16⟩
def CPR_PARTID_STEP : Fld := ⟨Reg.CPR_PARTID, 8, 8⟩
def CPR_PARTID_VAR : Fld := ⟨Reg.CPR_PARTID, 0, 8⟩
def CPR_RSTCAUSE_DBG : Fld := ⟨Reg.CPR_RSTCAUSE, 4, 1⟩
def CPR_RSTCAUSE_SW : Fld := ⟨Reg.CPR_RSTCAUSE, 3, 1⟩
def CPR_RSTCAUSE_PIN : Fld := ⟨Reg.CPR_RSTCAUSE, 2, 1⟩
def CPR_RSTCAUSE_BOR : Fld := ⟨Reg.CPR_RSTCAUSE, 1, 1⟩
def CPR_RSTCAUSE_POR : Fld := ⟨Reg.CPR_RSTCAUSE, 0, 1⟩
def CPR_SWRST_KEY : Fld := ⟨Reg.CPR_SWRST, 0, 16⟩
def CPR_PWRCTL_WAKEEN : Fld := ⟨Reg.CPR_PWRCTL, 8, 5⟩
def CPR_PWRCTL_REQ : Fld := ⟨Reg.CPR_PWRCTL, 0, 3⟩
def CPR_PWRSTAT_WSRC : Fld := ⟨Reg.CPR_PWRSTAT, 16, 5⟩
def CPR_PWRSTAT_ABORT : Fld := ⟨Reg.CPR_PWRSTAT, 8, 3⟩
def CPR_PWRSTAT_STATE : Fld := ⟨Reg.CPR_PWRSTAT, 0, 3⟩
def CPR_RETMASK_BANK : Fld := ⟨Reg.CPR_RETMASK, 0, 12⟩
def CPR_CLKSTAT_LOSS : Fld := ⟨Reg.CPR_CLKSTAT, 16, 6⟩
def CPR_CLKSTAT_AONX : Fld := ⟨Reg.CPR_CLKSTAT, 6, 1⟩
def CPR_CLKSTAT_OK : Fld := ⟨Reg.CPR_CLKSTAT, 0, 6⟩
def CPR_MONSTAT_ILIM : Fld := ⟨Reg.CPR_MONSTAT, 6, 1⟩
def CPR_MONSTAT_VLOW : Fld := ⟨Reg.CPR_MONSTAT, 5, 1⟩
def CPR_MONSTAT_RAIL : Fld := ⟨Reg.CPR_MONSTAT, 0, 5⟩
def CPR_MONCFG_WIN : Fld := ⟨Reg.CPR_MONCFG, 0, 8⟩
def CPR_ILIM_LIM : Fld := ⟨Reg.CPR_ILIM, 0, 16⟩
def CPR_RAIL_MV (i : Nat) : Fld := ⟨Reg.CPR_RAIL i, 0, 16⟩
def CPR_ISUP_MA : Fld := ⟨Reg.CPR_ISUP, 0, 16⟩
def AON_TMR_MS : Fld := ⟨Reg.AON_TMR, 0, 24⟩
def AON_SEC_SEC : Fld := ⟨Reg.AON_SEC, 0, 32⟩
def CAE_BORE_BORE : Fld := ⟨Reg.CAE_BORE, 0, 32⟩
def CAE_STROKE_STROKE : Fld := ⟨Reg.CAE_STROKE, 0, 32⟩
def CAE_ROD_ROD : Fld := ⟨Reg.CAE_ROD, 0, 32⟩
def CAE_CR_CR : Fld := ⟨Reg.CAE_CR, 0, 32⟩
def CAE_GAMMA_GAMMA : Fld := ⟨Reg.CAE_GAMMA, 0, 32⟩
def CAE_KPOLY_KPOLY : Fld := ⟨Reg.CAE_KPOLY, 0, 32⟩
def CAE_QMIN_QMIN : Fld := ⟨Reg.CAE_QMIN, 0, 32⟩
def CAE_KTH_KTH : Fld := ⟨Reg.CAE_KTH, 0, 32⟩
def CAE_PREF_PREF : Fld := ⟨Reg.CAE_PREF, 0, 32⟩
def CRL_LRES0_LRES (k : Nat) : Fld := ⟨Reg.CRL_LRES0 k, 0, 32⟩
def CRL_LRES1_LRES (k : Nat) : Fld := ⟨Reg.CRL_LRES1 k, 0, 32⟩
def CRL_LRES2_LRES (k : Nat) : Fld := ⟨Reg.CRL_LRES2 k, 0, 32⟩
def CRL_LRES3_LRES (k : Nat) : Fld := ⟨Reg.CRL_LRES3 k, 0, 32⟩
def ACT_RGN0_EN (k e : Nat) : Fld := ⟨Reg.ACT_RGN0 k e, 0, 1⟩
def ACT_RGN0_SIZE (k e : Nat) : Fld := ⟨Reg.ACT_RGN0 k e, 7, 5⟩
def ACT_RGN0_BASE (k e : Nat) : Fld := ⟨Reg.ACT_RGN0 k e, 12, 20⟩
def ACT_RMASK0_RMASK (k e : Nat) : Fld := ⟨Reg.ACT_RMASK0 k e, 0, 32⟩
def ACT_RMASK1_RMASK (k e : Nat) : Fld := ⟨Reg.ACT_RMASK1 k e, 0, 32⟩
def ACT_WMASK0_WMASK (k e : Nat) : Fld := ⟨Reg.ACT_WMASK0 k e, 0, 32⟩
def ACT_WMASK1_WMASK (k e : Nat) : Fld := ⟨Reg.ACT_WMASK1 k e, 0, 32⟩
def ACT_IMASK_FMASK (k m : Nat) : Fld := ⟨Reg.ACT_IMASK k m, 0, 12⟩
def ACT_PPROF_FMASK (k j : Nat) : Fld := ⟨Reg.ACT_PPROF k j, 0, 12⟩
def ACT_PPROF_VMID (k j : Nat) : Fld := ⟨Reg.ACT_PPROF k j, 16, 6⟩
def ACT_PPROF_SEC (k j : Nat) : Fld := ⟨Reg.ACT_PPROF k j, 24, 2⟩
def ACT_PORTMAP_PROF (k w : Nat) : Fld := ⟨Reg.ACT_PORTMAP k w, 0, 32⟩
def HSPI_PTALLY_DISCNT (n : Nat) : Fld := ⟨Reg.HSPI_PTALLY n, 0, 16⟩
def HSPI_PTALLY_CRCCNT (n : Nat) : Fld := ⟨Reg.HSPI_PTALLY n, 16, 16⟩
def HSPI_PFLG_CRC (n : Nat) : Fld := ⟨Reg.HSPI_PFLG n, 0, 1⟩
def HSPI_PFLG_DISC (n : Nat) : Fld := ⟨Reg.HSPI_PFLG n, 1, 1⟩
def HSPI_PFLG_FULL (n : Nat) : Fld := ⟨Reg.HSPI_PFLG n, 2, 1⟩
def HSPI_PIE_IE (n : Nat) : Fld := ⟨Reg.HSPI_PIE n, 0, 3⟩
def ETH_PTALLY_DISCNT (n : Nat) : Fld := ⟨Reg.ETH_PTALLY n, 0, 16⟩
def ETH_PTALLY_CRCCNT (n : Nat) : Fld := ⟨Reg.ETH_PTALLY n, 16, 16⟩
def ETH_PFLG_CRC (n : Nat) : Fld := ⟨Reg.ETH_PFLG n, 0, 1⟩
def ETH_PFLG_DISC (n : Nat) : Fld := ⟨Reg.ETH_PFLG n, 1, 1⟩
def ETH_PFLG_FULL (n : Nat) : Fld := ⟨Reg.ETH_PFLG n, 2, 1⟩
def ETH_PIE_IE (n : Nat) : Fld := ⟨Reg.ETH_PIE n, 0, 3⟩
def CAN_PTALLY_DISCNT (n : Nat) : Fld := ⟨Reg.CAN_PTALLY n, 0, 16⟩
def CAN_PTALLY_CRCCNT (n : Nat) : Fld := ⟨Reg.CAN_PTALLY n, 16, 16⟩
def CAN_PFLG_CRC (n : Nat) : Fld := ⟨Reg.CAN_PFLG n, 0, 1⟩
def CAN_PFLG_DISC (n : Nat) : Fld := ⟨Reg.CAN_PFLG n, 1, 1⟩
def CAN_PFLG_FULL (n : Nat) : Fld := ⟨Reg.CAN_PFLG n, 2, 1⟩
def CAN_PIE_IE (n : Nat) : Fld := ⟨Reg.CAN_PIE n, 0, 3⟩
def CAN_GID_IDE (n : Nat) : Fld := ⟨Reg.CAN_GID n, 30, 1⟩
def CAN_GREQ_GREQ (n : Nat) : Fld := ⟨Reg.CAN_GREQ n, 0, 29⟩
def CAN_GRSP_GRSP (n : Nat) : Fld := ⟨Reg.CAN_GRSP n, 0, 29⟩
def UART_PTALLY_DISCNT (n : Nat) : Fld := ⟨Reg.UART_PTALLY n, 0, 16⟩
def UART_PTALLY_CRCCNT (n : Nat) : Fld := ⟨Reg.UART_PTALLY n, 16, 16⟩
def UART_PFLG_CRC (n : Nat) : Fld := ⟨Reg.UART_PFLG n, 0, 1⟩
def UART_PFLG_DISC (n : Nat) : Fld := ⟨Reg.UART_PFLG n, 1, 1⟩
def UART_PFLG_FULL (n : Nat) : Fld := ⟨Reg.UART_PFLG n, 2, 1⟩
def UART_PIE_IE (n : Nat) : Fld := ⟨Reg.UART_PIE n, 0, 3⟩
def UART_ADDR_ADDR (n : Nat) : Fld := ⟨Reg.UART_ADDR n, 0, 8⟩

end Fields

/-- Access codes and reset values of the AT registers (R12). -/
def descs_AT : List RegDesc := [
  ⟨0x50000000, [(4, 0x10000)], 0x0, 0x0, 0x0, 0x0, 0x0, 0x0, 0x0⟩,
  ⟨0x50000004, [(4, 0x10000)], 0x0, 0x0, 0x0, 0x0, 0x0, 0x0, 0x0⟩,
  ⟨0x50000008, [(4, 0x10000)], 0x0, 0x0, 0x0, 0x0, 0x0, 0x0, 0x0⟩,
  ⟨0x5000000C, [(4, 0x10000)], 0x0, 0x0, 0x0, 0x0, 0x0, 0x0, 0x0⟩,
  ⟨0x50000100, [(4, 0x10000)], 0x0, 0x1, 0x200, 0xC00, 0x0, 0x0, 0x0⟩,
  ⟨0x50000104, [(4, 0x10000)], 0x0, 0x9FFF1FFF, 0x0, 0x0, 0x0, 0x0, 0x0⟩,
  ⟨0x50000108, [(4, 0x10000)], 0x0, 0x9FFF1FFF, 0x0, 0x0, 0x0, 0x0, 0x0⟩,
  ⟨0x50000200, [(4, 0x10000)], 0x42480422, 0xFFFFFEFF, 0x0, 0x0, 0x0, 0x0, 0x0⟩,
  ⟨0x50000204, [(4, 0x10000)], 0x2008, 0xF7FF, 0x0, 0x0, 0x0, 0x0, 0x0⟩,
  ⟨0x50000208, [(4, 0x10000)], 0x0, 0x0, 0x0, 0x80000000, 0x0, 0x0, 0x0⟩,
  ⟨0x5000020C, [(4, 0x10000)], 0x0, 0x0, 0x0, 0x0, 0xF, 0x0, 0x0⟩,
  ⟨0x50000210, [(4, 0x10000)], 0x0, 0x0, 0x0, 0xFC, 0x0, 0xFFFF0000, 0x0⟩,
  ⟨0x50000214, [(4, 0x10000)], 0x0, 0xFFFFFF, 0x0, 0x0, 0x0, 0x0, 0x0⟩,
  ⟨0x50000010, [(4, 0x10000)], 0x0, 0x1, 0x0, 0x0, 0x0, 0x0, 0x0⟩,
  ⟨0x50000014, [(4, 0x10000)], 0x0, 0x0, 0x0, 0xF, 0x0, 0x0, 0x0⟩,
  ⟨0x50000018, [(4, 0x10000)], 0x0, 0x0, 0x0, 0x0, 0x0, 0x0, 0x0⟩,
  ⟨0x50000040, [(4, 0x10000)], 0x0, 0x0, 0x0, 0x0, 0x0, 0x0, 0x0⟩,
  ⟨0x50000044, [(4, 0x10000)], 0x0, 0x0, 0x0, 0x0, 0x0, 0x0, 0x0⟩,
  ⟨0x50000050, [(4, 0x10000)], 0x0, 0x0, 0x0, 0x0, 0x0, 0x0, 0x0⟩,
  ⟨0x5000010C, [(4, 0x10000)], 0x0, 0xFFFFFF, 0x0, 0x0, 0x0, 0x0, 0x0⟩,
  ⟨0x50000110, [(4, 0x10000)], 0x0, 0xFFFFFF, 0x0, 0x0, 0x0, 0x0, 0x0⟩,
  ⟨0x50000300, [(4, 0x10000)], 0x4210, 0xFF1F, 0x0, 0x0, 0x0, 0x0, 0x0⟩,
  ⟨0x50000304, [(4, 0x10000)], 0x35AFE5, 0xFFFFFFFF, 0x0, 0x0, 0x0, 0x0, 0x0⟩,
  ⟨0x50000308, [(4, 0x10000)], 0x1B33099A, 0xFFFFFFFF, 0x0, 0x0, 0x0, 0x0, 0x0⟩,
  ⟨0x5000030C, [(4, 0x10000)], 0x14000CCD, 0xFFFFFFFF, 0x0, 0x0, 0x0, 0x0, 0x0⟩,
  ⟨0x50000310, [(4, 0x10000)], 0x333, 0xFFFF, 0x0, 0x0, 0x0, 0x0, 0x0⟩,
  ⟨0x50000314, [(4, 0x10000)], 0x0, 0xFFFFFFFF, 0x0, 0x0, 0x0, 0x0, 0x0⟩,
  ⟨0x50000318, [(4, 0x10000)], 0x22000, 0xFFFFFF, 0x0, 0x0, 0x0, 0x0, 0x0⟩,
  ⟨0x5000031C, [(4, 0x10000)], 0x1, 0x0, 0x0, 0x80000000, 0x0, 0x0, 0x0⟩,
  ⟨0x50000320, [(4, 0x10000)], 0x0, 0x0, 0x0, 0xFF, 0x0, 0x0, 0x0⟩,
  ⟨0x50000324, [(4, 0x10000)], 0x9, 0xFF, 0x0, 0x0, 0x0, 0x0, 0x0⟩,
  ⟨0x50000328, [(4, 0x10000)], 0x0, 0x0, 0x0, 0x0, 0x0, 0xFFFFFFFF, 0x0⟩,
  ⟨0x5000032C, [(4, 0x10000)], 0x0, 0x0, 0x0, 0x0, 0x0, 0xFFFFFFFF, 0x0⟩,
  ⟨0x50000380, [(4, 0x10000), (24, 0x4)], 0x0, 0xFFFFFFFF, 0x0, 0x0, 0x0, 0x0, 0x0⟩,
  ⟨0x500003E0, [(4, 0x10000)], 0x0, 0x0, 0x0, 0x0, 0x0, 0x0, 0x0⟩,
  ⟨0x50000400, [(4, 0x10000)], 0x100210, 0xFF077F, 0x0, 0x0, 0x0, 0x0, 0x0⟩,
  ⟨0x50000404, [(4, 0x10000)], 0x0, 0x0, 0x0, 0x10000, 0x0, 0xFF00, 0x0⟩,
  ⟨0x50000500, [(4, 0x10000)], 0x0, 0x7, 0x0, 0x0, 0x0, 0x0, 0x0⟩,
  ⟨0x50000504, [(4, 0x10000)], 0x0, 0x0, 0x0, 0x1000, 0x0, 0x0, 0x0⟩]

/-- Access codes and reset values of the TI registers (R12). -/
def descs_TI : List RegDesc := [
  ⟨0x50008000, [(16, 0x100)], 0x0, 0x0, 0x80000000, 0x0, 0x0, 0x0, 0x7FFF9⟩,
  ⟨0x50008004, [(16, 0x100)], 0x4, 0x0, 0x0, 0x0, 0x0, 0x0, 0xFFFF033F⟩,
  ⟨0x50008008, [(16, 0x100)], 0x34BC, 0x0, 0x0, 0x0, 0x0, 0x0, 0xFFFF⟩,
  ⟨0x5000800C, [(16, 0x100)], 0x0, 0x0, 0x0, 0x4, 0x0, 0xFFFF0000, 0x0⟩,
  ⟨0x50008010, [(16, 0x100)], 0x25050A, 0x0, 0x0, 0x0, 0x0, 0x0, 0x1FFFFFF⟩,
  ⟨0x50008014, [(16, 0x100)], 0xC00, 0x0, 0x0, 0x0, 0x0, 0x0, 0xFFFF⟩,
  ⟨0x50008018, [(16, 0x100)], 0x0, 0x0, 0x0, 0x100000, 0x0, 0x0, 0x0⟩]

/-- Access codes and reset values of the CAP registers (R12). -/
def descs_CAP : List RegDesc := [
  ⟨0x50008040, [(16, 0x100)], 0x0, 0x0, 0x0, 0x0, 0x0, 0x0, 0x0⟩,
  ⟨0x50008044, [(16, 0x100)], 0x0, 0x0, 0x0, 0x0, 0x0, 0x0, 0x0⟩,
  ⟨0x50008048, [(16, 0x100)], 0x0, 0x0, 0x0, 0x0, 0x0, 0x0, 0x0⟩,
  ⟨0x5000804C, [(16, 0x100)], 0x0, 0x0, 0x0, 0x100, 0x0, 0xFFFF0000, 0x0⟩]

/-- Access codes and reset values of the SCH registers (R12). -/
def descs_SCH : List RegDesc := [
  ⟨0x5006A000, [], 0x0, 0x11F, 0xC0000000, 0x0, 0x0, 0x0, 0x0⟩,
  ⟨0x5006A004, [], 0x0, 0x0, 0x0, 0x40000000, 0x0, 0x0, 0x0⟩,
  ⟨0x5006A008, [], 0x0, 0x0, 0x0, 0x3, 0x0, 0x0, 0x0⟩,
  ⟨0x5006A010, [(4, 0x4)], 0x0, 0xFFFFFF, 0x0, 0x0, 0x0, 0x0, 0x0⟩,
  ⟨0x5006A040, [(24, 0x4)], 0x0, 0x80FFFFFF, 0x0, 0x0, 0x0, 0x0, 0x0⟩,
  ⟨0x5006A0A0, [(4, 0x8)], 0xFA0, 0xFFFFFFFF, 0x0, 0x0, 0x0, 0x0, 0x0⟩,
  ⟨0x5006A0A4, [(4, 0x8)], 0x0, 0xFFFFFF, 0x0, 0x0, 0x0, 0x0, 0x0⟩,
  ⟨0x5006A0C0, [], 0x0, 0xFFFFFFFF, 0x0, 0x0, 0x0, 0x0, 0x0⟩,
  ⟨0x5006A0C4, [], 0x0, 0xFFFFFFFF, 0x0, 0x0, 0x0, 0x0, 0x0⟩,
  ⟨0x5006A800, [(64, 0x20)], 0xF0008, 0xF0F30FF, 0x0, 0x0, 0x0, 0x0, 0x0⟩,
  ⟨0x5006A804, [(64, 0x20)], 0x30D40, 0xFFFFFFFF, 0x0, 0x0, 0x0, 0x0, 0x0⟩,
  ⟨0x5006A808, [(64, 0x20)], 0xFA00FA0, 0xFFFFFFFF, 0x0, 0x0, 0x0, 0x0, 0x0⟩,
  ⟨0x5006A80C, [(64, 0x20)], 0x0, 0xFFFFFF, 0x0, 0x0, 0x0, 0x0, 0x0⟩,
  ⟨0x5006A810, [(64, 0x20)], 0xFFFFFF, 0xFFFFFF, 0x0, 0x0, 0x0, 0x0, 0x0⟩,
  ⟨0x5006A814, [(64, 0x20)], 0x0, 0x0, 0x0, 0x3FE, 0x0, 0xFFFF0000, 0x0⟩]

/-- Access codes and reset values of the ESQ registers (R12). -/
def descs_ESQ : List RegDesc := [
  ⟨0x50070000, [(8, 0x1000)], 0x0, 0x1, 0x6, 0x0, 0x8, 0x0, 0x0⟩,
  ⟨0x50070004, [(8, 0x1000)], 0x82000, 0xFFF113, 0x0, 0x0, 0x0, 0x0, 0x0⟩,
  ⟨0x50070008, [(8, 0x1000)], 0x0, 0x0, 0x0, 0x20020, 0x0, 0x0, 0x0⟩,
  ⟨0x5007000C, [(8, 0x1000)], 0x0, 0x0, 0x0, 0x0, 0x0, 0x0, 0x0⟩,
  ⟨0x50070010, [(8, 0x1000)], 0x100, 0x107, 0x0, 0x0, 0x0, 0x0, 0x0⟩,
  ⟨0x50070014, [(8, 0x1000)], 0x800080, 0xFF03FF, 0x0, 0x0, 0x0, 0x0, 0x0⟩,
  ⟨0x50070018, [(8, 0x1000)], 0x0, 0x0, 0x0, 0xFE, 0x0, 0x0, 0x0⟩,
  ⟨0x5007001C, [(8, 0x1000)], 0x1E1, 0x1FF, 0x0, 0x0, 0x0, 0x0, 0x0⟩,
  ⟨0x50070020, [(8, 0x1000)], 0x0, 0x0, 0x0, 0x0, 0x0, 0xFFFFFFFF, 0x0⟩,
  ⟨0x50070024, [(8, 0x1000)], 0x0, 0x0, 0x0, 0x1, 0x0, 0x0, 0x0⟩,
  ⟨0x50070040, [(8, 0x1000), (16, 0x4)], 0x0, 0x0, 0x0, 0x0, 0x0, 0x0, 0x0⟩,
  ⟨0x50070400, [(8, 0x1000), (256, 0x4)], 0x0, 0xFFFFFFFF, 0x0, 0x0, 0x0, 0x0, 0x0⟩]

/-- Access codes and reset values of the CSE registers (R12). -/
def descs_CSE : List RegDesc := [
  ⟨0x50090000, [(2, 0x1000)], 0x0, 0x0, 0x1, 0x0, 0x0, 0x0, 0x0⟩,
  ⟨0x50090004, [(2, 0x1000)], 0x0, 0x0, 0x0, 0x0, 0x0, 0x0, 0x0⟩,
  ⟨0x50090008, [(2, 0x1000)], 0x0, 0x0, 0x0, 0x3, 0x0, 0x0, 0x0⟩,
  ⟨0x5009000C, [(2, 0x1000)], 0x0, 0x0, 0x0, 0x3F3F03, 0x0, 0x0, 0x0⟩,
  ⟨0x50090010, [(2, 0x1000)], 0x1, 0x3F3F03, 0x0, 0x0, 0x0, 0x0, 0x0⟩,
  ⟨0x50090014, [(2, 0x1000)], 0x0, 0xFFFFFFF0, 0x0, 0x0, 0x0, 0x0, 0x0⟩,
  ⟨0x50090018, [(2, 0x1000)], 0x0, 0xF, 0x0, 0x0, 0x0, 0xFFFF0000, 0x0⟩,
  ⟨0x5009001C, [(2, 0x1000)], 0x0, 0x0, 0x0, 0x0, 0x0, 0x0, 0x0⟩,
  ⟨0x50090020, [(2, 0x1000)], 0x0, 0x3FF, 0x0, 0x0, 0x0, 0x0, 0x0⟩]

/-- Access codes and reset values of the CRL registers (R12). -/
def descs_CRL : List RegDesc := [
  ⟨0x50098000, [(12, 0x100)], 0xA00, 0xFF07, 0x0, 0x0, 0x0, 0x0, 0x0⟩,
  ⟨0x50098004, [(12, 0x100)], 0x0, 0x0, 0x2, 0x0, 0x1, 0x0, 0x0⟩,
  ⟨0x50098008, [(12, 0x100)], 0x0, 0x0, 0x0, 0x0, 0x0, 0x0, 0x0⟩,
  ⟨0x5009800C, [(12, 0x100)], 0x0, 0x0, 0x0, 0x3E, 0x0, 0x0, 0x0⟩,
  ⟨0x50098010, [(12, 0x100)], 0x7D00190, 0xFFFFFFFF, 0x0, 0x0, 0x0, 0x0, 0x0⟩,
  ⟨0x50098014, [(12, 0x100)], 0x7D04E20, 0x7FFF7FFF, 0x0, 0x0, 0x0, 0x0, 0x0⟩,
  ⟨0x50098018, [(12, 0x100)], 0x0, 0xFF, 0x0, 0x0, 0x0, 0x0, 0x0⟩,
  ⟨0x5009801C, [(12, 0x100)], 0x0, 0x0, 0x0, 0x0, 0x0, 0xFFFFFFFF, 0x0⟩,
  ⟨0x50098020, [(12, 0x100)], 0x0, 0x0, 0x0, 0x0, 0x0, 0x0, 0x0⟩,
  ⟨0x50098024, [(12, 0x100)], 0x0, 0x0, 0x0, 0x0, 0x0, 0x0, 0x0⟩,
  ⟨0x50098028, [(12, 0x100)], 0x0, 0x0, 0x0, 0x0, 0x0, 0x0, 0x0⟩,
  ⟨0x5009802C, [(12, 0x100)], 0x0, 0x0, 0x0, 0x0, 0x0, 0x0, 0x0⟩]

/-- Access codes and reset values of the PADC registers (R12). -/
def descs_PADC : List RegDesc := [
  ⟨0x40070000, [], 0x480708, 0x8FEF1FFF, 0x0, 0x0, 0x0, 0x0, 0x0⟩,
  ⟨0x40070004, [], 0xF8F8, 0xFFFF, 0x0, 0x0, 0x0, 0x0, 0x0⟩,
  ⟨0x40070008, [], 0xF00, 0x0, 0x0, 0x0, 0x0, 0x0, 0x0⟩,
  ⟨0x40070010, [], 0x0, 0x0, 0x0, 0x0, 0x0, 0xFFFFFFFF, 0x0⟩,
  ⟨0x40070014, [], 0x0, 0x0, 0x0, 0x1, 0x0, 0x0, 0x0⟩,
  ⟨0x4007000C, [], 0x0, 0xFF000000, 0xF, 0xFFF000, 0x0, 0x0, 0x0⟩,
  ⟨0x40070020, [(4, 0x4)], 0x8000, 0x0, 0x0, 0x0, 0x0, 0x0, 0x0⟩,
  ⟨0x40070100, [(24, 0x4)], 0x0, 0x80003FFF, 0x0, 0x0, 0x0, 0x0, 0x0⟩]

/-- Access codes and reset values of the CAE registers (R12). -/
def descs_CAE : List RegDesc := [
  ⟨0x500A0000, [], 0x0, 0x1, 0x2, 0x0, 0x4, 0x0, 0x0⟩,
  ⟨0x500A0004, [], 0x0, 0x0, 0x0, 0x0, 0x0, 0x0, 0x0⟩,
  ⟨0x500A0008, [], 0x0, 0x0, 0x0, 0x7, 0x0, 0x0, 0x0⟩,
  ⟨0x500A000C, [], 0x0, 0x0, 0x0, 0x0, 0x0, 0x0, 0x0⟩,
  ⟨0x500A0010, [], 0x0, 0x0, 0x0, 0xFF, 0x0, 0x0, 0x0⟩,
  ⟨0x500A0014, [], 0xB8, 0xFF, 0x0, 0x0, 0x0, 0x0, 0x0⟩,
  ⟨0x500A0040, [], 0x258012C, 0x9FFF1FFF, 0x0, 0x0, 0x0, 0x0, 0x0⟩,
  ⟨0x500A0048, [], 0x0, 0x1FFF1FFF, 0x0, 0x0, 0x0, 0x0, 0x0⟩,
  ⟨0x500A004C, [], 0x0, 0x8000001F, 0x0, 0x0, 0x0, 0x0, 0x0⟩,
  ⟨0x500A0050, [], 0x0, 0x80000003, 0x0, 0x0, 0x0, 0x0, 0x0⟩,
  ⟨0x500A0058, [], 0xA, 0x8000FFFF, 0x0, 0x0, 0x0, 0x0, 0x0⟩,
  ⟨0x500A005C, [], 0x800040, 0xFFFFFFFF, 0x0, 0x0, 0x0, 0x0, 0x0⟩,
  ⟨0x500A0060, [], 0x1C71C, 0xFFFFFF, 0x0, 0x0, 0x0, 0x0, 0x0⟩,
  ⟨0x500A0064, [], 0x5B06, 0xFFFFFF, 0x0, 0x0, 0x0, 0x0, 0x0⟩,
  ⟨0x500A0068, [], 0x0, 0x0, 0x0, 0x0, 0x0, 0xFFFFFFFF, 0x0⟩,
  ⟨0x500A0100, [(24, 0x10)], 0x0, 0xFFFFFFFF, 0x0, 0x0, 0x0, 0x0, 0x0⟩,
  ⟨0x500A0104, [(24, 0x10)], 0x0, 0x8000FFFF, 0x0, 0x0, 0x0, 0x0, 0x0⟩,
  ⟨0x500A0108, [(24, 0x10)], 0x0, 0x83FF03FF, 0x0, 0x0, 0x0, 0x0, 0x0⟩,
  ⟨0x500A010C, [(24, 0x10)], 0x0, 0x0, 0x0, 0x0, 0x0, 0x0, 0x0⟩,
  ⟨0x500A0020, [], 0x0, 0xFFFFFFFF, 0x0, 0x0, 0x0, 0x0, 0x0⟩,
  ⟨0x500A0024, [], 0x0, 0xFFFFFFFF, 0x0, 0x0, 0x0, 0x0, 0x0⟩,
  ⟨0x500A0028, [], 0x0, 0xFFFFFFFF, 0x0, 0x0, 0x0, 0x0, 0x0⟩,
  ⟨0x500A002C, [], 0x0, 0xFFFFFFFF, 0x0, 0x0, 0x0, 0x0, 0x0⟩,
  ⟨0x500A0030, [], 0x3FACCCCD, 0xFFFFFFFF, 0x0, 0x0, 0x0, 0x0, 0x0⟩,
  ⟨0x500A0034, [], 0x3FA8F5C3, 0xFFFFFFFF, 0x0, 0x0, 0x0, 0x0, 0x0⟩,
  ⟨0x500A0038, [], 0x43480000, 0xFFFFFFFF, 0x0, 0x0, 0x0, 0x0, 0x0⟩,
  ⟨0x500A003C, [], 0x48435000, 0xFFFFFFFF, 0x0, 0x0, 0x0, 0x0, 0x0⟩,
  ⟨0x500A0044, [], 0x0, 0xFFFFFFFF, 0x0, 0x0, 0x0, 0x0, 0x0⟩]

/-- Access codes and reset values of the GPTt registers (R12). -/
def descs_GPTt : List RegDesc := [
  ⟨0x40040000, [(4, 0x4000), (8, 0x80)], 0x0, 0xFF1F, 0x0, 0x0, 0x0, 0x0, 0x0⟩,
  ⟨0x40040004, [(4, 0x4000), (8, 0x80)], 0x0, 0xFFFFFFFF, 0x0, 0x0, 0x0, 0x0, 0x0⟩,
  ⟨0x40040008, [(4, 0x4000), (8, 0x80)], 0xFFFFFFFF, 0xFFFFFFFF, 0x0, 0x0, 0x0, 0x0, 0x0⟩,
  ⟨0x4004000C, [(4, 0x4000), (8, 0x80)], 0x0, 0x0, 0x0, 0x3, 0x0, 0x0, 0x0⟩,
  ⟨0x40040010, [(4, 0x4000), (8, 0x80), (2, 0x10)], 0x0, 0x1FF03, 0x0, 0x0, 0x0, 0x0, 0x0⟩,
  ⟨0x40040014, [(4, 0x4000), (8, 0x80), (2, 0x10)], 0x0, 0xFFFFFFFF, 0x0, 0x0, 0x0, 0x0, 0x0⟩,
  ⟨0x40040018, [(4, 0x4000), (8, 0x80), (2, 0x10)], 0x0, 0x0, 0x0, 0x0, 0x0, 0x0, 0x0⟩,
  ⟨0x4004001C, [(4, 0x4000), (8, 0x80), (2, 0x10)], 0x0, 0x0, 0x0, 0x38, 0x0, 0xFFFF0000, 0x0⟩]

/-- Access codes and reset values of the GPT registers (R12). -/
def descs_GPT : List RegDesc := [
  ⟨0x40043000, [], 0x0, 0x0, 0x0, 0x0, 0xFFFFFFFF, 0x0, 0x0⟩,
  ⟨0x40043004, [], 0x0, 0x1, 0x0, 0x0, 0x0, 0x0, 0x0⟩,
  ⟨0x40043008, [], 0x0, 0xFFFFFFFF, 0x0, 0x0, 0x0, 0x0, 0x0⟩,
  ⟨0x4004300C, [], 0x0, 0x0, 0x0, 0x3, 0x0, 0x0, 0x0⟩,
  ⟨0x40043010, [], 0x0, 0x0, 0x0, 0x1, 0x0, 0x0, 0x0⟩]

/-- Access codes and reset values of the HADC registers (R12). -/
def descs_HADC : List RegDesc := [
  ⟨0x40050000, [], 0x0, 0x1, 0x2, 0x0, 0x0, 0x0, 0x0⟩,
  ⟨0x40050004, [], 0x0, 0x0, 0x0, 0x300, 0x0, 0x0, 0x0⟩,
  ⟨0x40050008, [], 0x0, 0x0, 0x0, 0x1, 0x0, 0x0, 0x0⟩,
  ⟨0x4005000C, [], 0x0, 0x0, 0x0, 0x0, 0xFF, 0x0, 0x0⟩,
  ⟨0x40050010, [], 0x8000, 0x0, 0x0, 0x0, 0x0, 0x0, 0x0⟩,
  ⟨0x40050020, [(4, 0x4)], 0x0, 0x0, 0x0, 0x0, 0x0, 0x0, 0x0⟩,
  ⟨0x40050040, [(4, 0x10)], 0x0, 0xFF3F1F1F, 0x0, 0x0, 0x0, 0x0, 0x0⟩,
  ⟨0x40050044, [(4, 0x10)], 0x0, 0xFFFF, 0x0, 0x0, 0x0, 0x0, 0x0⟩,
  ⟨0x40050048, [(4, 0x10)], 0x0, 0x3FFFFFF, 0x0, 0x0, 0x0, 0x0, 0x0⟩,
  ⟨0x4005004C, [(4, 0x10)], 0x0, 0x0, 0x0, 0x3, 0x0, 0xFFFF0000, 0x0⟩,
  ⟨0x40050100, [(32, 0x4)], 0x0, 0x3FFFF, 0x0, 0x0, 0x0, 0x0, 0x0⟩,
  ⟨0x40050180, [(32, 0x4)], 0x0, 0x0, 0x0, 0x40000000, 0x0, 0x80000000, 0x0⟩]

/-- Access codes and reset values of the CMP registers (R12). -/
def descs_CMP : List RegDesc := [
  ⟨0x40060000, [(48, 0x10)], 0x20000, 0xF01FD, 0x0, 0x0, 0x0, 0x0, 0x0⟩,
  ⟨0x40060004, [(48, 0x10)], 0x0, 0x3FF03FF, 0x0, 0x0, 0x0, 0x0, 0x0⟩,
  ⟨0x40060008, [(48, 0x10)], 0x0, 0x0, 0x0, 0x0, 0x0, 0xFFFF0000, 0x0⟩,
  ⟨0x4006000C, [(48, 0x10)], 0x0, 0x0, 0x0, 0x3, 0x0, 0x0, 0x0⟩,
  ⟨0x40060400, [(10, 0x8)], 0x0, 0x8000001F, 0x0, 0x0, 0x0, 0x0, 0x0⟩,
  ⟨0x40060404, [(10, 0x8)], 0x0, 0x0, 0x0, 0x6, 0x0, 0x0, 0x0⟩,
  ⟨0x40060500, [], 0x0, 0x0, 0x0, 0x1, 0x0, 0x0, 0x0⟩]

/-- Access codes and reset values of the CPR registers (R12). -/
def descs_CPR : List RegDesc := [
  ⟨0x40080100, [(2, 0x10)], 0xA0000, 0xFF0037, 0x8, 0x0, 0x0, 0x0, 0x0⟩,
  ⟨0x40080104, [(2, 0x10)], 0x0, 0x0, 0x0, 0x0, 0x0, 0x0, 0x0⟩,
  ⟨0x40080108, [(2, 0x10)], 0x0, 0x0, 0x0, 0x0, 0xFFFFFFFF, 0x0, 0x0⟩,
  ⟨0x40080140, [], 0x400000, 0xFF0003, 0x0, 0x0, 0x0, 0x0, 0x0⟩,
  ⟨0x40080144, [], 0x0, 0x0, 0x4, 0x2, 0x0, 0xFF00, 0x0⟩,
  ⟨0x40080148, [], 0x0, 0x0, 0x0, 0x0, 0xFFFF, 0x0, 0x0⟩,
  ⟨0x4008014C, [], 0x0, 0xFFFF, 0x0, 0x0, 0x0, 0x0, 0x0⟩,
  ⟨0x40080150, [], 0x0, 0xFFFFFFFF, 0x0, 0x0, 0x0, 0x0, 0x0⟩,
  ⟨0x40080154, [], 0x0, 0xFFFFFFFF, 0x0, 0x0, 0x0, 0x0, 0x0⟩,
  ⟨0x40080158, [], 0x1, 0x0, 0x0, 0x0, 0x0, 0x0, 0x0⟩,
  ⟨0x40080000, [], 0xD26A0000, 0x0, 0x0, 0x0, 0x0, 0x0, 0x0⟩,
  ⟨0x40080004, [], 0x1, 0x0, 0x0, 0x1F, 0x0, 0x0, 0x0⟩,
  ⟨0x40080008, [], 0x0, 0x0, 0x0, 0x0, 0xFFFF, 0x0, 0x0⟩,
  ⟨0x40080010, [], 0x0, 0x1F00, 0x0, 0x0, 0x7, 0x0, 0x0⟩,
  ⟨0x40080014, [], 0x0, 0x0, 0x0, 0x1F0700, 0x0, 0x0, 0x0⟩,
  ⟨0x40080018, [], 0x0, 0xFFF, 0x0, 0x0, 0x0, 0x0, 0x0⟩,
  ⟨0x40080020, [], 0x0, 0x40, 0x0, 0x3F0000, 0x0, 0x0, 0x0⟩,
  ⟨0x40080024, [], 0x0, 0x0, 0x0, 0x7F, 0x0, 0x0, 0x0⟩,
  ⟨0x40080028, [], 0x14, 0xFF, 0x0, 0x0, 0x0, 0x0, 0x0⟩,
  ⟨0x4008002C, [], 0x3E8, 0xFFFF, 0x0, 0x0, 0x0, 0x0, 0x0⟩,
  ⟨0x40080030, [(5, 0x4)], 0x0, 0x0, 0x0, 0x0, 0x0, 0x0, 0x0⟩,
  ⟨0x40080044, [], 0x0, 0x0, 0x0, 0x0, 0x0, 0x0, 0x0⟩]

/-- Access codes and reset values of the IRQC registers (R12). -/
def descs_IRQC : List RegDesc := [
  ⟨0x40000000, [(256, 0x4)], 0x4000, 0x1F70F, 0x0, 0x0, 0x0, 0x0, 0x0⟩,
  ⟨0x40000400, [(8, 0x4)], 0x0, 0x0, 0xFFFFFFFF, 0x0, 0x0, 0x0, 0x0⟩,
  ⟨0x40000420, [(8, 0x4)], 0x0, 0x0, 0x0, 0xFFFFFFFF, 0x0, 0x0, 0x0⟩,
  ⟨0x40000440, [(8, 0x4)], 0x0, 0x0, 0xFFFFFFFF, 0x0, 0x0, 0x0, 0x0⟩,
  ⟨0x40000460, [(8, 0x4)], 0x0, 0x0, 0x0, 0xFFFFFFFF, 0x0, 0x0, 0x0⟩,
  ⟨0x40000480, [(8, 0x4)], 0x0, 0x0, 0x0, 0x0, 0x0, 0x0, 0x0⟩,
  ⟨0x40000600, [(5, 0x10)], 0x0, 0xFFFFF800, 0x0, 0x0, 0x0, 0x0, 0x0⟩,
  ⟨0x40000604, [(5, 0x10)], 0x0, 0x0, 0x0, 0x0, 0x0, 0x0, 0x0⟩,
  ⟨0x40000700, [], 0x0, 0x0, 0x0, 0x1, 0x0, 0x0, 0x0⟩]

/-- Access codes and reset values of the MEMC registers (R12). -/
def descs_MEMC : List RegDesc := [
  ⟨0x40098000, [(12, 0x10)], 0x10, 0x11, 0x100, 0x0, 0x0, 0x0, 0x0⟩,
  ⟨0x40098004, [(12, 0x10)], 0x0, 0x0, 0x0, 0x10, 0x0, 0xFFFF0000, 0x0⟩,
  ⟨0x40098008, [(12, 0x10)], 0x0, 0x0, 0x0, 0x0, 0x0, 0x0, 0x0⟩,
  ⟨0x40098100, [], 0x100, 0xFFFF, 0x0, 0x0, 0x0, 0x0, 0x0⟩,
  ⟨0x40098104, [], 0x0, 0x0, 0x0, 0x1, 0x0, 0x0, 0x0⟩]

/-- Access codes and reset values of the ACT registers (R12). -/
def descs_ACT : List RegDesc := [
  ⟨0x40090000, [], 0x0, 0x0, 0x2, 0x0, 0x0, 0x0, 0x0⟩,
  ⟨0x40090008, [], 0x0, 0xFFFFFFFF, 0x0, 0x0, 0x0, 0x0, 0x0⟩,
  ⟨0x4009000C, [], 0x0, 0xFFFFFFFF, 0x0, 0x0, 0x0, 0x0, 0x0⟩,
  ⟨0x40090010, [], 0x0, 0x0, 0x0, 0x80000000, 0x0, 0xFFFF, 0x0⟩,
  ⟨0x40090018, [], 0x0, 0x0, 0x0, 0x80000000, 0x0, 0xFFFF, 0x0⟩,
  ⟨0x40090014, [], 0x0, 0x0, 0x0, 0x0, 0x0, 0x0, 0x0⟩,
  ⟨0x4009001C, [], 0x0, 0x0, 0x0, 0x0, 0x0, 0x0, 0x0⟩,
  ⟨0x40091000, [(2, 0x1000), (96, 0x20)], 0x0, 0xFFFFFF81, 0x0, 0x0, 0x0, 0x0, 0x0⟩,
  ⟨0x40091004, [(2, 0x1000), (96, 0x20)], 0x0, 0xFFFFFFFF, 0x0, 0x0, 0x0, 0x0, 0x0⟩,
  ⟨0x40091008, [(2, 0x1000), (96, 0x20)], 0x0, 0xFFFFFFFF, 0x0, 0x0, 0x0, 0x0, 0x0⟩,
  ⟨0x4009100C, [(2, 0x1000), (96, 0x20)], 0x0, 0xFFFFFFFF, 0x0, 0x0, 0x0, 0x0, 0x0⟩,
  ⟨0x40091010, [(2, 0x1000), (96, 0x20)], 0x0, 0xFFFFFFFF, 0x0, 0x0, 0x0, 0x0, 0x0⟩,
  ⟨0x40091C00, [(2, 0x1000), (5, 0x4)], 0x0, 0xFFF, 0x0, 0x0, 0x0, 0x0, 0x0⟩,
  ⟨0x40091C40, [(2, 0x1000), (16, 0x4)], 0x2300000, 0x33F0FFF, 0x0, 0x0, 0x0, 0x0, 0x0⟩,
  ⟨0x40091C80, [(2, 0x1000), (3, 0x4)], 0x0, 0xFFFFFFFF, 0x0, 0x0, 0x0, 0x0, 0x0⟩]

/-- Access codes and reset values of the ARB registers (R12). -/
def descs_ARB : List RegDesc := [
  ⟨0x4009C000, [(8, 0x4)], 0x0, 0x77777777, 0x0, 0x0, 0x0, 0x0, 0x0⟩,
  ⟨0x4009C020, [], 0x8, 0x7F, 0x0, 0x0, 0x0, 0x0, 0x0⟩]

/-- Access codes and reset values of the LKB registers (R12). -/
def descs_LKB : List RegDesc := [
  ⟨0x40010000, [(64, 0x4)], 0x0, 0x0, 0x0, 0x0, 0x0, 0x0, 0x0⟩,
  ⟨0x40010100, [(64, 0x4)], 0x0, 0x0, 0x0, 0x0, 0x0, 0x0, 0x0⟩,
  ⟨0x40010200, [(64, 0x4)], 0x0, 0x0, 0x0, 0x0, 0xFFFFFFFF, 0x0, 0x0⟩,
  ⟨0x40010300, [(64, 0x4)], 0x0, 0x0, 0x0, 0x0, 0x0, 0x0, 0x0⟩,
  ⟨0x40010400, [], 0x3E8, 0xFFFF, 0x0, 0x0, 0x0, 0x0, 0x0⟩,
  ⟨0x40010500, [(64, 0x4)], 0x0, 0x7000000, 0x0, 0x70000000, 0x0, 0x0, 0x0⟩,
  ⟨0x40010600, [], 0x0, 0x0, 0x0, 0x3, 0x0, 0x0, 0x0⟩]

/-- Access codes and reset values of the DMA registers (R12). -/
def descs_DMA : List RegDesc := [
  ⟨0x40030000, [(16, 0x40)], 0x20, 0x31, 0x2, 0x0, 0xC0, 0x0, 0x0⟩,
  ⟨0x40030004, [(16, 0x40)], 0x0, 0xFFFFFFE0, 0x0, 0x0, 0x0, 0x0, 0x0⟩,
  ⟨0x40030008, [(16, 0x40)], 0x0, 0x3FF000F, 0x0, 0x0, 0x0, 0x0, 0x0⟩,
  ⟨0x4003000C, [(16, 0x40)], 0x0, 0x0, 0x0, 0xE0000000, 0x0, 0xFFFF00, 0x0⟩]

/-- Access codes and reset values of the Q registers (R12). -/
def descs_Q : List RegDesc := [
  ⟨0x40020000, [(32, 0x40)], 0x22000000, 0xEF3F3FFF, 0x0, 0x0, 0x0, 0x0, 0x0⟩,
  ⟨0x40020004, [(32, 0x40)], 0x0, 0xFF007FFF, 0x0, 0x0, 0x0, 0x0, 0x0⟩,
  ⟨0x40020008, [(32, 0x40)], 0x0, 0x7FFF, 0x0, 0x0, 0x0, 0x0, 0x0⟩,
  ⟨0x4002000C, [(32, 0x40)], 0x0, 0x0, 0x0, 0x0, 0xFFFFFFFF, 0x0, 0x0⟩,
  ⟨0x40020010, [(32, 0x40)], 0x0, 0x3F, 0x0, 0x0, 0x0, 0x0, 0x0⟩,
  ⟨0x40020014, [(32, 0x40)], 0x0, 0x0, 0x0, 0x0, 0x0, 0x0, 0x0⟩,
  ⟨0x40020018, [(32, 0x40)], 0x0, 0x0, 0x0, 0x0, 0x0, 0x0, 0x0⟩,
  ⟨0x4002001C, [(32, 0x40)], 0x0, 0x0, 0x0, 0x0, 0x0, 0x0, 0x0⟩,
  ⟨0x40020020, [(32, 0x40)], 0x0, 0x0, 0x0, 0x0, 0x7FFF, 0x0, 0x0⟩,
  ⟨0x40020024, [(32, 0x40)], 0x0, 0x0, 0x0, 0xF0000000, 0x0, 0x0, 0x0⟩,
  ⟨0x40020028, [(32, 0x40)], 0x0, 0x0, 0x0, 0x0, 0x0, 0xFFFFFFFF, 0x0⟩]

/-- Access codes and reset values of the QM registers (R12). -/
def descs_QM : List RegDesc := [
  ⟨0x40020800, [], 0x0, 0x0, 0x0, 0x1, 0x0, 0x0, 0x0⟩]

/-- Access codes and reset values of the KTL registers (R12). -/
def descs_KTL : List RegDesc := [
  ⟨0x70010400, [], 0x32, 0x0, 0x80000000, 0x0, 0x0, 0x0, 0xFFFF⟩,
  ⟨0x70010404, [], 0x0, 0x0, 0x0, 0x0, 0xFFFFFFFF, 0x0, 0x0⟩,
  ⟨0x70010408, [], 0x0, 0x0, 0x0, 0x2, 0x0, 0x0, 0x0⟩,
  ⟨0x70010410, [(3, 0x4)], 0x0, 0x0, 0x0, 0x0, 0x0, 0x0, 0x0⟩,
  ⟨0x7001041C, [], 0x0, 0x0, 0x0, 0x0, 0x0, 0xFFFF, 0x0⟩]

/-- Access codes and reset values of the PST registers (R12). -/
def descs_PST : List RegDesc := [
  ⟨0x70010800, [], 0x1, 0x13, 0x0, 0x0, 0x0, 0x0, 0x0⟩,
  ⟨0x70010804, [], 0x0, 0xFFFFFFFF, 0x0, 0x0, 0x0, 0x0, 0x0⟩,
  ⟨0x70010808, [], 0x0, 0x0, 0x0, 0x0, 0x0, 0xFFFFFFFF, 0x0⟩,
  ⟨0x7001080C, [], 0x0, 0x0, 0x0, 0x0, 0x0, 0xFFFFFFFF, 0x0⟩,
  ⟨0x70010810, [], 0x0, 0x0, 0x0, 0x0, 0xF, 0x0, 0x0⟩,
  ⟨0x70010814, [], 0x309, 0x0, 0x0, 0x0, 0x0, 0x0, 0x0⟩]

/-- Access codes and reset values of the DBG registers (R12). -/
def descs_DBG : List RegDesc := [
  ⟨0x400F8000, [], 0x0, 0x0, 0x0, 0x0, 0x0, 0x0, 0x0⟩]

/-- Access codes and reset values of the RING registers (R12). -/
def descs_RING : List RegDesc := [
  ⟨0x500C0000, [], 0x0, 0x1, 0x0, 0x0, 0x0, 0x0, 0x0⟩,
  ⟨0x500C0004, [], 0x2006000, 0xF0F7133, 0x0, 0x0, 0x0, 0x0, 0x0⟩,
  ⟨0x500C0008, [], 0x0, 0x0, 0x0, 0x1F8, 0x0, 0x0, 0x0⟩,
  ⟨0x500C000C, [], 0x0, 0x0, 0x0, 0x80000000, 0x0, 0x0, 0x0⟩,
  ⟨0x500C0010, [], 0x0, 0x0, 0x0, 0x0, 0x0, 0x0, 0x0⟩,
  ⟨0x500C0014, [], 0x0, 0x0, 0x0, 0x0, 0x0, 0xFFFFFFFF, 0x0⟩,
  ⟨0x500C0018, [], 0x0, 0x0, 0x0, 0x0, 0x0, 0xFFFFFFFF, 0x0⟩,
  ⟨0x500C001C, [], 0x0, 0x0, 0x0, 0x0, 0x0, 0x0, 0x0⟩,
  ⟨0x500C0020, [], 0x0, 0xFFFFFFFF, 0x0, 0x0, 0x0, 0x0, 0x0⟩,
  ⟨0x500C0024, [], 0x0, 0xFFFFFFFF, 0x0, 0x0, 0x0, 0x0, 0x0⟩,
  ⟨0x500C0028, [], 0x0, 0xFF, 0x0, 0x0, 0x0, 0x0, 0x0⟩,
  ⟨0x500C002C, [], 0x0, 0xF, 0x0, 0x0, 0x0, 0x0, 0x0⟩,
  ⟨0x500C0030, [], 0x0, 0xF, 0x0, 0x0, 0x0, 0x0, 0x0⟩,
  ⟨0x500C0034, [], 0x0, 0x0, 0x0, 0x1, 0x0, 0x0, 0x0⟩]

/-- Access codes and reset values of the AON registers (R12). -/
def descs_AON : List RegDesc := [
  ⟨0x70010000, [], 0x0, 0xFFFFFF, 0x0, 0x0, 0x0, 0x0, 0x0⟩,
  ⟨0x70010004, [], 0x0, 0x0, 0x0, 0x0, 0x0, 0x0, 0x0⟩]

/-- Access codes and reset values of the HSPI registers (R12). -/
def descs_HSPI : List RegDesc := [
  ⟨0x400A0F00, [(2, 0x1000)], 0x0, 0x0, 0x0, 0x0, 0x0, 0xFFFFFFFF, 0x0⟩,
  ⟨0x400A0F04, [(2, 0x1000)], 0x0, 0x0, 0x0, 0x7, 0x0, 0x0, 0x0⟩,
  ⟨0x400A0F08, [(2, 0x1000)], 0x0, 0x7, 0x0, 0x0, 0x0, 0x0, 0x0⟩]

/-- Access codes and reset values of the ETH registers (R12). -/
def descs_ETH : List RegDesc := [
  ⟨0x400B0F00, [(2, 0x10000)], 0x0, 0x0, 0x0, 0x0, 0x0, 0xFFFFFFFF, 0x0⟩,
  ⟨0x400B0F04, [(2, 0x10000)], 0x0, 0x0, 0x0, 0x7, 0x0, 0x0, 0x0⟩,
  ⟨0x400B0F08, [(2, 0x10000)], 0x0, 0x7, 0x0, 0x0, 0x0, 0x0, 0x0⟩]

/-- Access codes and reset values of the CAN registers (R12). -/
def descs_CAN : List RegDesc := [
  ⟨0x400D0F00, [(4, 0x1000)], 0x0, 0x0, 0x0, 0x0, 0x0, 0xFFFFFFFF, 0x0⟩,
  ⟨0x400D0F04, [(4, 0x1000)], 0x0, 0x0, 0x0, 0x7, 0x0, 0x0, 0x0⟩,
  ⟨0x400D0F08, [(4, 0x1000)], 0x0, 0x7, 0x0, 0x0, 0x0, 0x0, 0x0⟩,
  ⟨0x400D0F0C, [(4, 0x1000)], 0x0, 0x40000000, 0x0, 0x0, 0x0, 0x0, 0x0⟩,
  ⟨0x400D0F10, [(4, 0x1000)], 0x600, 0x1FFFFFFF, 0x0, 0x0, 0x0, 0x0, 0x0⟩,
  ⟨0x400D0F14, [(4, 0x1000)], 0x601, 0x1FFFFFFF, 0x0, 0x0, 0x0, 0x0, 0x0⟩]

/-- Access codes and reset values of the UART registers (R12). -/
def descs_UART : List RegDesc := [
  ⟨0x400E8F00, [(2, 0x1000)], 0x0, 0x0, 0x0, 0x0, 0x0, 0xFFFFFFFF, 0x0⟩,
  ⟨0x400E8F04, [(2, 0x1000)], 0x0, 0x0, 0x0, 0x7, 0x0, 0x0, 0x0⟩,
  ⟨0x400E8F08, [(2, 0x1000)], 0x0, 0x7, 0x0, 0x0, 0x0, 0x0, 0x0⟩,
  ⟨0x400E8F0C, [(2, 0x1000)], 0x1, 0xFF, 0x0, 0x0, 0x0, 0x0, 0x0⟩]

/-- Whether `off` is a whole multiple pattern of the strides of `dims`, each index below its count. -/
def inDims : List (Nat × Nat) → Nat → Bool
  | [], off => off == 0
  | (cnt, stride) :: ds, off => Nat.blt (off / stride) cnt && inDims ds (off % stride)

/-- Whether the byte address `a` is a register that `d` describes. -/
def RegDesc.covers (d : RegDesc) (a : Nat) : Bool := Nat.ble d.base a && inDims d.dims (a - d.base)

/-- The register tables of the block in whose range `a` lies (R294). -/
def descsAt (a : Nat) : List RegDesc :=
  if a < 0x40010000 then descs_IRQC
  else if a < 0x40020000 then descs_LKB
  else if a < 0x40030000 then descs_QM ++ descs_Q
  else if a < 0x40040000 then descs_DMA
  else if a < 0x40050000 then descs_GPT ++ descs_GPTt
  else if a < 0x40060000 then descs_HADC
  else if a < 0x40070000 then descs_CMP
  else if a < 0x40080000 then descs_PADC
  else if a < 0x40090000 then descs_CPR
  else if a < 0x40098000 then descs_ACT
  else if a < 0x4009C000 then descs_MEMC
  else if a < 0x400A0000 then descs_ARB
  else if a < 0x400B0000 then descs_HSPI
  else if a < 0x400D0000 then descs_ETH
  else if a < 0x400E0000 then descs_CAN
  else if a < 0x400F8000 then descs_UART
  else if a < 0x50000000 then descs_DBG
  else if a < 0x50008000 then descs_AT
  else if a < 0x50010000 then descs_TI ++ descs_CAP
  else if a < 0x50040000 then descs_AT
  else if a < 0x50070000 then descs_SCH
  else if a < 0x50090000 then descs_ESQ
  else if a < 0x50098000 then descs_CSE
  else if a < 0x500A0000 then descs_CRL
  else if a < 0x500C0000 then descs_CAE
  else if a < 0x70000000 then descs_RING
  else if a < 0x70010400 then descs_AON
  else if a < 0x70010800 then descs_KTL
  else descs_PST

/-- The description of the register at byte address `a`, where a register stands there. -/
def descAt (a : Nat) : Option RegDesc := (descsAt a).find? (·.covers a)

/-- Ranks at reset (R309). -/
def rankReset (w : Nat) : Word :=
  if w == 0 then 0x77746666#32 else if w == 1 then 0x57777777#32 else if w == 2 then 0x00002247#32
  else if w == 4 || w == 5 then 0x11111111#32 else 0#32

/-- The reset value of the word at byte address `a`: what an address that no write has changed reads as. The registers
whose reset value depends on their number come first (R130, R132, R309, R314), and word 1 of a profile slot, whose CYL resets
to 0x1F (R98); every other memory word of the angle domain is cleared by reset (R44, R142), as is each word no register
table names. -/
def regReset (a : Nat) : Word :=
  if 0x50070010 ≤ a && a < 0x50078000 && a % 0x1000 == 0x10 then BitVec.ofNat 32 (0x100 + (a / 0x1000 - 0x50070))
  else if 0x50070014 ≤ a && a < 0x50078000 && a % 0x1000 == 0x14 then
    BitVec.ofNat 32 (0x800000 + (a / 0x1000 - 0x50070) * 0x80)
  else if 0x40010500 ≤ a && a < 0x40010600 && a % 4 == 0 then BitVec.ofNat 32 ((a - 0x40010500) / 4 % 8 * 0x1000000)
  else if 0x50004000 ≤ a && a < 0x50040000 && 0x4000 ≤ a % 0x10000 && a % 0x10000 < 0x8000 && a % 8 == 4 then 0x1F#32
  else if 0x4009C000 ≤ a && a < 0x4009C020 && a % 4 == 0 then rankReset ((a - 0x4009C000) / 4)
  else match descAt a with
    | some d => BitVec.ofNat 32 d.reset
    | none => 0#32

end Sys2Proof.Machine
end

