-- ==== Sys2Proof/Machine/State.lean ====
section
/-! DEFINITION. The state of the block, as plain data.

Memory-mapped registers and the word memories of the angle domain have one home: `regs`, the words that differ from their
reset value (`regReset`), by byte address. The byte memories (SRAM, TCM, CAE data memory, OSPI window, PERC memory, AON SRAM,
boot ROM) have one home: `mem`. Everything else the spec gives a unit (queues, counters, reference times, latched copies)
stands in one structure per unit; a table (`List (Nat × _)`) lists, by unit number, the units that differ from their reset
structure. -/

namespace Sys2Proof.Machine

/-- Why a step stops with a fault. No meaning of this model ends in one: an access the spec forbids completes with the error
response, the record and the interrupt source that the spec gives (R295, R301). -/
inductive Fault where
  /-- Raised by no command. Safe: nothing is claimed of it. -/
  | none
  deriving DecidableEq, Repr

/-- Why a step is refused. -/
inductive Refusal where
  /-- Raised by `exec` for a row of the table that has no meaning yet. Safe. -/
  | notModelled (mnemonic : String)
  deriving DecidableEq, Repr

/-- One entry of a capture queue (R60). -/
structure CapEntry where
  ts : Nat
  ovrb : Bool
  index : Bool
  dir : Bool
  dirv : Bool
  level : Bool
  wsat : Bool
  width : BitVec 16
  deriving DecidableEq, Repr

/-- A capture that a full queue dropped: its TB, its entry, what stood before the drop (that captures were missing already, OVR, DROP), and
how many more were dropped in the same tk (R61). -/
structure LateDrop where
  tb : Nat
  entry : CapEntry
  dropped : Bool
  ovr : Bool
  count : Nat
  more : Nat
  deriving DecidableEq, Repr

/-- What a timeout of a VR front end has changed: its TB, VRSTAT, CMPn.STAT, the armed flag, the peak memory and the edges of OUT on their
way to the latch (R54). -/
structure VrUndo where
  tb : Nat
  vrstat : Word
  cmpstat : Word
  armed : Bool
  peak : Nat
  edges : List (Nat × Bool)
  deriving DecidableEq, Repr

/-- A timed input: filter, blanking, capture queue and sensor decoders (R45 to R61). -/
structure Input where
  /-- level at the pin (R48); for a VR front end, the output of its timing comparator as the filter sees it (R53) -/
  pin : Bool := false
  /-- TB from which samples of that level have not yet reached the filter (R48) -/
  pinTb : Nat := 0
  /-- the filtered level, and TB of the first sample of a run of samples at the other level (R48, R49) -/
  flt : Bool := false
  run : Option Nat := none
  /-- edges that passed the filter and have not yet entered the queue: TS and level, oldest first (R49) -/
  passed : List (Nat × Bool) := []
  /-- edges that the filter has delivered, newest first, as far back as an index tag can ask (R58) -/
  hist : List (Nat × Bool) := []
  /-- TS of the last edge that passed fixed blanking (R50) -/
  lastPass : Option Nat := none
  /-- capture queue, oldest first, at most four -/
  queue : List CapEntry := []
  /-- the entry most recently stored since EN was set (R60) -/
  stored : Option CapEntry := none
  /-- a capture was dropped since the last stored entry, and the capture dropped last (R61) -/
  dropped : Bool := false
  lateDrop : Option LateDrop := none
  /-- VR front end: armed flag, and TB from which VRTO runs (R54) -/
  armed : Bool := false
  /-- the timing comparator has re-armed since it switched, and the peak memory, in steps of 20 mV (R53 to R55) -/
  rearmed : Bool := true
  peak : Nat := 0
  vrFrom : Option Nat := none
  /-- the last timeout, which an edge delivered in its tk undoes (R54) -/
  timedOut : Option VrUndo := none
  /-- DIRPW: TS of the leading edge of the pulse in progress, and whether it has saturated (R59) -/
  pulse : Option Nat := none
  pulseSat : Bool := false
  deriving DecidableEq, Repr

/-- One edge of the finder's window (R66, R430). -/
structure WinEdge where
  ts : Nat
  index : Bool
  dir : Bool
  deriving DecidableEq, Repr

/-- A catch-up in progress (R91): the target lies `lead + rate * (t - ts)` phase units ahead of `phase`. -/
structure Catchup where
  lead : Int
  ts : Nat
  rate : Nat
  factor : Nat
  deriving DecidableEq, Repr

/-- One ring frame of the master, as the adoption condition needs it (R80). -/
structure AdoptFrame where
  angle : Nat
  rate : Nat
  dir : Bool
  sync : Nat
  tb : Nat
  deriving DecidableEq, Repr

/-- The edge generator of TRK_GEN (R266). -/
structure Gen where
  rate : Nat
  left : Nat
  entry : Nat
  at_ : Nat
  forceg : Bool
  job : Nat
  deriving DecidableEq, Repr

/-- What a learned average has replaced: the TB at which it was written, word 1 of each entry by its address, and AVGCNT as they
stood before (R42, R97). -/
structure Average where
  tb : Nat
  words : List (Nat × Nat)
  avgcnt : Nat
  deriving DecidableEq, Repr

/-- A tracker: accumulator, segment, finder, confirmation, learning (R32 to R102, R429, R430). -/
structure Tracker where
  /-- NCO phase at TB `phaseTb`; from there it advances by the rate in every tk, up to the halt point (R34, R90) -/
  phase : Nat := 0
  phaseTb : Nat := 0
  /-- distance, in phase units and in the direction of rotation, from `phase` to the halt point -/
  haltAt : Option Nat := none
  /-- distance from `phase` to the corrected angle of the next expected entry -/
  togo : Int := 0
  catchup : Option Catchup := none
  /-- forward wraps of the angle through zero not yet handled by ANGLE_CYCLE_WRAP -/
  wraps : Nat := 0
  /-- reverse wraps through zero not yet handled by ANGLE_CYCLE_WRAP -/
  backWraps : Nat := 0
  /-- the segment: its entry, its reference time, its period P, its thresholds and spacing limits (R84, R86) -/
  segK : Nat := 0
  tref : Nat := 0
  lastP : Nat := 0
  tb : Nat := 0
  tlo : Nat := 0
  thi : Nat := 0
  clo : Nat := 0
  chi : Nat := 0
  /-- the segment was opened by a candidate, late acceptance, virtual tooth or reversal: the next one takes the plain
  formula (R84) -/
  plain : Bool := false
  suspect : Option CapEntry := none
  /-- TB of the last popped entry, from which TCNT counts (R76), and whether an entry was popped since enable -/
  lastPop : Nat := 0
  edgeSeen : Bool := false
  /-- TCNT had saturated before the adoption under way: that saturation stalls nothing any more (R76, R81) -/
  satPast : Bool := false
  /-- TB at which the finder declared its last candidate (R80) -/
  candTb : Option Nat := none
  window : List WinEdge := []
  /-- the last measured ratios, newest first (R77) -/
  ratios : List Nat := []
  /-- TS of the last accepted edge (R95) -/
  lastTs : Nat := 0
  confCount : Nat := 0
  virtCons : Nat := 0
  virtRev : Nat := 0
  gapBad : Nat := 0
  idxBad : Nat := 0
  camBad : Nat := 0
  /-- consecutive entries of the direction opposite to DIR (R72) -/
  revCount : Nat := 0
  /-- phase units advanced in the direction of rotation since reset, up to TB `phaseTb` -/
  travel : Nat := 0
  /-- phase units advanced since the cam-absence measure restarted (R71), up to TB `phaseTb` -/
  camAdv : Nat := 0
  adopt : List AdoptFrame := []
  /-- edges still under the check after adoption (R81) -/
  adoptLeft : Nat := 0
  /-- accepted edges since the last reversal (R94, R95) -/
  sinceRev : Nat := 2
  /-- TB at which SWREQ was set (R43) -/
  swreqTb : Nat := 0
  /-- no edge of the segment under way was discarded or held (R96) -/
  clean : Bool := true
  /-- the last accepted tooth met the conditions of R96 other than STOL -/
  lastValid : Bool := false
  /-- the pass under way: TS of its REF tooth, whether it is still valid, its periods by entry, the length of the pass
  before (R96) -/
  passTs : Option Nat := none
  passValid : Bool := false
  passP : List (Nat × Nat) := []
  passPrev : Option Nat := none
  sumP : List (Nat × Nat) := []
  sumT : Nat := 0
  /-- age of each cylinder's work value, in cycles (R100) -/
  ages : List (Nat × Nat) := []
  /-- the cylinders whose work PERC has last written, each with its TB (R189) -/
  percWork : List (Nat × Nat) := []
  gen : Option Gen := none
  /-- job waiting for a wheel switch (R256) -/
  switchJob : Nat := 0
  /-- the learned average or the profile update written last, with its TB (R42, R99) -/
  average : Option Average := none
  profUpdate : Option (Nat × Nat × Nat) := none
  /-- the profile slot that the bus wrote last: its address and the TB (R99) -/
  profWrite : Option (Nat × Nat) := none
  deriving DecidableEq, Repr

/-- The ABUS value of one tracker (R108, R133): `word` is ATn.SSTAT[31:16]. -/
structure Snap where
  angle : Nat := 0
  rate : Nat := 0
  acc : Int := 0
  dir : Bool := false
  sync : Nat := 0
  guarded : Bool := true
  word : BitVec 16 := 0
  deriving DecidableEq, Repr

/-- State of an occurrence (R107); an event in IDLE has no entry in the table. -/
inductive OccState where
  | idle | pending | armed | on | ending | done
  deriving DecidableEq, Repr

/-- An occurrence of an event, with the descriptor and trim latched at its first commit (R107, R114). -/
structure Occ where
  st : OccState := .idle
  w0 : Word := 0
  w1 : Word := 0
  w2 : Word := 0
  w3 : Word := 0
  atrim : Int := 0
  dtrim : Int := 0
  start : Nat := 0
  end_ : Option Nat := none
  /-- start as last forecast while PENDING (R116, TRUNC) -/
  lastStart : Option Nat := none
  bank : Bool := false
  minw : Nat := 0
  deriving DecidableEq, Repr

/-- A committed edge in a channel output unit (R111). -/
structure Edge where
  tb : Nat
  start : Bool
  ev : Nat
  deriving DecidableEq, Repr

/-- A pulse under way on a channel: its start, its event, its latched MAXDUR, and whether its start reached a driven pin
(R124, R126). -/
structure Pulse where
  start : Nat
  ev : Nat
  maxdur : Nat
  deriving DecidableEq, Repr

/-- A channel output unit (R111, R122, R126). -/
structure OutUnit where
  edges : List Edge := []
  pulse : Option Pulse := none
  /-- the pin shows the pulse: set by a start with OUTEN = 1, cleared when OUTEN clears (R126) -/
  shown : Bool := false
  /-- TB at which the last pulse ended (MINOFF) -/
  prevEnd : Option Nat := none
  /-- TB of the last change of the channel's OUTEN bit (R127) -/
  outTb : Option Nat := none
  /-- starts committed in this cycle (MAXPC) -/
  starts : Nat := 0
  /-- DRAIN reaction waiting for the last committed edge (R145) -/
  drain : Bool := false
  /-- TB at which an IMMEDIATE reaction or a CHSAFE takes the safe state, and whether a fault asked for it (R145) -/
  safeAt : Option (Nat × Bool) := none
  /-- TB of the last CHSAFE: a start in that tk does not stand against the safe state (R145) -/
  chsafeTb : Option Nat := none
  /-- an ESQ fault cleared the OUTEN bit, and no command has cleared it since (R353, R354) -/
  lost : Bool := false
  /-- TB at which a fault reaction last took the safe state (R261) -/
  cutTb : Option Nat := none
  deriving DecidableEq, Repr

/-- What an ESQ core waits for (R137). -/
inductive EsqWait where
  | none | wpass | wtb (until_ : Word)
  deriving DecidableEq, Repr

/-- The parts of an ESQ that its registers do not show (R129 to R148). -/
structure Esq where
  snaps : List Snap := [{}, {}, {}, {}]
  prev : List Snap := [{}, {}, {}, {}]
  /-- TB of the last pass strobe -/
  passTb : Option Nat := none
  /-- TB of the strobe that the last WPASS caught, or of the pass in which RUN was set; cycles count from it -/
  retTb : Nat := 0
  /-- ESQCLK cycle at which the next instruction starts, or at which the WPASS under way was reached -/
  cycle : Nat := 0
  /-- cycle after the last issue to the pipeline -/
  issueEnd : Nat := 0
  wait : EsqWait := .none
  /-- a WPASS has returned since RUN (R140) -/
  inPass : Bool := false
  evald : List Nat := []
  issued : Nat := 0
  misses : Nat := 0
  tbHigh : Word := 0
  skips : Nat := 0
  sweeps : Nat := 0
  clamps : Nat := 0
  commits : Nat := 0
  ubreqTb : Nat := 0
  ubankJob : Nat := 0
  /-- TB at which the self-test started, and its job (R147) -/
  testTb : Nat := 0
  testJob : Nat := 0
  deriving DecidableEq, Repr

/-- The start message of an output unit to a loop (R154). -/
structure StartMsg where
  ev : Nat
  chan : Nat
  dur : Nat
  dtrim : Int
  dprime : Nat
  prof : Nat
  cyl : Nat
  pulse : Nat
  closefb : Bool
  start : Nat
  deriving DecidableEq, Repr

/-- A trim that a loop has written: its tk, its event, DTRIM before it, and the ring entry of its record (R166). -/
structure Trimmed where
  tk : Nat
  ev : Nat
  old : Int
  slot : Option Nat
  deriving DecidableEq, Repr

/-- A current regulation loop (R149 to R171). -/
structure Loop where
  msg : Option StartMsg := none
  /-- TB of the entry of the phase -/
  phaseTb : Nat := 0
  /-- TB up to which the comparators are ignored (R160) -/
  blankTo : Nat := 0
  /-- the source is on, as regulation has it -/
  srcOn : Bool := false
  /-- gates -/
  g0 : Bool := false
  g1 : Bool := false
  g2 : Bool := false
  /-- gates that come on when their dead time ends (R151) -/
  wait0 : Bool := false
  wait1 : Bool := false
  wait2 : Bool := false
  /-- TB at which each gate went off in this pulse -/
  off0 : Option Nat := none
  off1 : Option Nat := none
  off2 : Option Nat := none
  tEnd : Nat := 0
  elen : Nat := 0
  /-- TB at which the overcurrent check is made (R168) -/
  ovcTo : Option Nat := none
  /-- a fault of this pulse was detected (R165) -/
  pulseFault : Bool := false
  /-- first sampling instant, whether the window has opened, conversions taken and samples stored (R163) -/
  tw0 : Nat := 0
  opened : Bool := false
  convs : Nat := 0
  stored : Nat := 0
  idleTb : Nat := 0
  /-- CAL returns to IDLE (R157) -/
  calRetIdle : Bool := false
  calTb : Nat := 0
  calReqTb : Nat := 0
  /-- TB at which an accepted start enters phase 0 (R154) -/
  enterAt : Option Nat := none
  /-- the trim written last (R166) -/
  trimmed : Option Trimmed := none
  deriving DecidableEq, Repr

/-- A CSE: the job that waits for its program bank switch, and the loops that have switched (R162). -/
structure Cse where
  job : Nat := 0
  deriving DecidableEq, Repr

/-- An open sampling window of a cylinder (R174, R175): the sample that its next mark takes, its sequence number. -/
structure Window where
  next : Nat
  seq : Nat
  filled : Bool
  clip : Bool
  tbOpen : Nat
  tbLast : Nat
  deriving DecidableEq, Repr

/-- A conversion waiting on a converter core (R177): its window and sample, whether the sample counts as filled, whether its
code is also stored for the entry behind it (R173, R178), its place among the core's conversions of its mark, the mark's TB. -/
structure Conv where
  win : Nat
  idx : Nat
  fill : Bool
  more : Bool
  ord : Nat
  tb : Nat
  deriving DecidableEq, Repr

/-- The pressure converters (R172 to R179). -/
structure Padc where
  /-- open windows, by 2 * cylinder plus the lowest bit of the sequence number -/
  windows : List (Nat × Window) := []
  /-- windows closed since CAE.CTL.RUN, per cylinder (R185) -/
  seqs : List (Nat × Nat) := []
  /-- conversions each core has still to make -/
  queue0 : List Conv := []
  queue1 : List Conv := []
  queue2 : List Conv := []
  queue3 : List Conv := []
  /-- the last sample stored of each channel, by cylinder (R178) -/
  last : List (Nat × Int) := []
  /-- the last mark emitted since forward SYNC720 -/
  lastMark : Option Nat := none
  /-- TB of the request of the calibration under way, and of the last automatic request; core of the next one -/
  calTb : Nat := 0
  rotTb : Nat := 0
  rotNext : Nat := 0
  /-- core that has last returned from calibration, and TB (R178) -/
  back : Option (Nat × Nat) := none
  deriving DecidableEq, Repr

/-- A closed window waiting for its analysis (R183). -/
structure Closed where
  cyl : Nat
  seq : Nat
  tbOpen : Nat
  tbClose : Nat
  /-- TB at which the last sample was stored -/
  tbStored : Nat
  filled : Bool
  clip : Bool
  /-- the parameters as they stood when its analysis began, by register (R182) -/
  params : List (Nat × Word) := []
  deriving DecidableEq, Repr

/-- A phasing controller (R186, R187). -/
structure Phase where
  ep : Int := 0
  first : Bool := true
  tc : Int := 0
  prevTc : Int := 0
  /-- status of the FCP's reply that has not yet been taken -/
  reply : Option (BitVec 16) := none
  /-- trim written, as the reply gives it -/
  written : Int := 0
  limited : Bool := false
  deriving DecidableEq, Repr

/-- The combustion analysis engine (R180 to R192). -/
structure Cae where
  closed : List Closed := []
  /-- last valid POFS of each cylinder since RUN, binary32 -/
  pofs : List (Nat × Word) := []
  phases : List (Nat × Phase) := []
  kbankJob : Nat := 0
  deriving DecidableEq, Repr

/-- A value that a timer's full capture queue dropped: its TB, the value, and OVR and DROP as they would stand had it been stored (R199). -/
structure GptDrop where
  tb : Nat
  val : Word
  ovr : Bool
  count : Nat
  deriving DecidableEq, Repr

/-- A channel of a timer (R197 to R200). -/
structure GptChan where
  queue : List Word := []
  /-- the first value dropped in the last tk in which one was -/
  lateDrop : Option GptDrop := none
  /-- TB of the leading edge of the WIDTH measurement in progress -/
  widthFrom : Option Nat := none
  /-- compare value in force (the shadow is the CMPx register) -/
  cmp : Nat := 0
  /-- the compare event of this period has been raised or cannot be (R196) -/
  fired : Bool := true
  /-- a BREW has made the count 0 and the compare event for 0 is still to be raised (R202) -/
  zeroDue : Bool := false
  deriving DecidableEq, Repr

/-- A timer: while it runs, its count is `base` plus one for every PSC + 1 tk since TB `from_` (R193). -/
structure Gpt where
  base : Nat := 0
  from_ : Nat := 0
  /-- the period in force (the shadow is the PER register) -/
  per : Nat := 0xFFFFFFFF
  ch0 : GptChan := {}
  ch1 : GptChan := {}
  /-- the tick at which an immediate write of PER ends the period (R196) -/
  shortAt : Option Nat := none
  deriving DecidableEq, Repr

/-- A ring-wide start pending at TBS (R203, R264, R386): 0 BREW, 1 UBANK, 2 HANDOVER. -/
structure RingStart where
  kind : Nat
  target : Nat
  tbs : Nat
  own : Bool
  job : Nat
  deriving DecidableEq, Repr

/-- Stage of a triggered HADC sequence (R213, R214). -/
structure Seq where
  active : Bool := false
  /-- an entry of this run has started -/
  begun : Bool := false
  /-- entry to convert next, conversions of it done, and their sum -/
  entry : Nat := 0
  convs : Nat := 0
  sum : Int := 0
  /-- TB before which the entry may not start, and whether its delay has ended -/
  due : Nat := 0
  ready : Bool := false
  /-- a sequence of higher priority holds the converter: the delay is counted from the point of resumption (R214) -/
  held : Bool := false
  /-- the delay under way has carried a calibration step, or a trigger has broken one off in it (R217) -/
  gapUsed : Bool := false
  stop : Bool := false
  /-- an angle trigger fires for a crossing that lies beyond this travel of the tracker (R212) -/
  mark : Int := 0
  deriving DecidableEq, Repr

/-- The housekeeping converter (R207 to R218). -/
structure Hadc where
  seqs : List (Nat × Seq) := []
  /-- TB at which the conversion under way started -/
  convTb : Nat := 0
  zeroSum : Int := 0
  refSum : Int := 0
  /-- TB of the request or of the last step (R218) -/
  calTb : Nat := 0
  /-- TB at which a conversion or a sequence last ended: a gap has not lasted longer (R217) -/
  freeTb : Nat := 0
  /-- between two conversions of an entry, with PLLA lost (R395) -/
  paused : Bool := false
  deriving DecidableEq, Repr

/-- A comparator: its input, in codes, as last seen, whether its first resolution is still to come (R221), the upper
threshold that a regulation loop has loaded (R160), the THR that a VR front end has left behind (R54), and the edges of OUT on their way
to the latch, oldest first: the clock at which each is latched, and whether it is a rising one (R222). -/
structure Cmp where
  input : Int := 0
  fresh : Bool := true
  code : Nat := 0
  kept : Option Nat := none
  edges : List (Nat × Bool) := []
  deriving DecidableEq, Repr

/-- A reply (R228), with the place it goes to. -/
structure Reply where
  src : Source
  opc : BitVec 8
  seq : BitVec 16
  unit : BitVec 8
  sess : BitVec 8
  status : BitVec 16
  detail : BitVec 16
  words : List Word
  tag : Option (BitVec 64)
  deriving DecidableEq, Repr

/-- A session (R234, R235, R265). -/
structure Session where
  key : BitVec 128
  epoch : BitVec 32
  lastSeq : Option (BitVec 16)
  lastTag : Option (BitVec 64)
  lastReply : Option Reply
  deriving DecidableEq, Repr

/-- A chain being received (R232). -/
structure Chain where
  src : Source
  reqs : List Req
  lastTb : Nat
  deriving DecidableEq, Repr

/-- State of a long-running job (R252). -/
inductive JobState where
  | free | running | ended
  deriving DecidableEq, Repr

/-- A job slot (R252). -/
structure Job where
  st : JobState := .free
  owner : Source := .mailbox 0
  opc : BitVec 8 := 0
  unit : Nat := 0
  status : BitVec 16 := 0
  detail : BitVec 16 := 0
  endTb : Nat := 0
  deriving DecidableEq, Repr

/-- A command port (R236, R239, R412 to R418). -/
structure Port where
  replies : List Reply := []
  /-- CAN reassembly: bytes so far, next count, TB of the last segment (R237) -/
  part : Option (List Byte × Nat × Nat) := none
  /-- application frames received and waiting to be sent -/
  appRx : List (List Byte) := []
  appTx : List (List Byte) := []
  /-- hardware replies (ARP, echo) waiting to be sent (R414) -/
  hwTx : Nat := 0
  /-- frames of the oldest reply that have gone out (CAN, R237) -/
  sent : Nat := 0
  /-- packets received, with their CRC, that the command path has not taken yet (R239) -/
  rx : List (Source × List Byte) := []
  /-- what the port last put out: the bytes of a transaction, of a datagram, of a frame or on the line (R236, R237) -/
  out : List Byte := []
  /-- address and port that the last datagram went to (R236) -/
  outTo : Option (Word × BitVec 16) := none
  deriving DecidableEq, Repr

/-- The wheel staging buffer (R256). -/
structure Staging where
  owner : Option Source := none
  lastTb : Nat := 0
  words : List (Nat × Word) := []
  deriving DecidableEq, Repr

/-- The command path (R226 to R268). -/
structure Gnorum where
  sessions : List (Nat × Option Session) := []
  chains : List Chain := []
  staged : List (Nat × Req) := []
  slow : List Req := []
  jobs : List (Nat × Job) := []
  ports : List (Nat × Port) := []
  /-- words of the request being pushed to each mailbox -/
  boxes : List (Nat × List Word) := []
  staging : Staging := {}
  /-- trim entries that the FCP has written, with the tk of the write, as far as they are of the last one (R166) -/
  trims : List (Nat × Nat) := []
  /-- OUTEN_SET requests done in this tk, whose replies show the bits as the tk leaves them (R261) -/
  late : List Req := []
  /-- network parameters (R414) -/
  mac : BitVec 48 := 0
  ip : Word := 0
  mask : Word := 0
  gateway : Word := 0
  arxen : Bool := false
  deriving DecidableEq, Repr

/-- One entry of a core's context stack (R288). -/
structure Ctx where
  pc : Word
  mpie : Bool
  mpp : BitVec 2
  level : Nat
  interrupt : Bool
  source : Nat
  deriving DecidableEq, Repr

/-- A line of a data cache (R274). -/
structure Line where
  bytes : List Byte
  dirty : Bool
  deriving DecidableEq, Repr

/-- An application core (R269 to R276, R288): `level` 16 is thread execution. -/
structure Core where
  pc : Word := 0
  x : List (Nat × Word) := []
  f : List (Nat × Word) := []
  csr : List (Nat × Word) := []
  machine : Bool := true
  level : Nat := 16
  stack : List Ctx := []
  wfi : Bool := false
  halted : Bool := false
  dlines : List (Nat × Option Line) := []
  ilines : List Nat := []
  /-- words whose copy in the data cache has a single-bit or an uncorrectable error, and whose copy in the instruction cache has a parity
  error (R276) -/
  dsoft : List Nat := []
  dbad : List Nat := []
  ibad : List Nat := []
  deriving DecidableEq, Repr

/-- A pair of cores (R277 to R283). -/
structure Pair where
  hbTb : Nat := 0
  testTb : Nat := 0
  testJob : Nat := 0
  /-- TB of each restart by PERC (PAIRMAX, R353) -/
  restarts : List Nat := []
  bootSeq : BitVec 16 := 0
  /-- recovery by PERC (R353): 0 none, 1 a restart is due, 2 the self-test of a restart runs -/
  recover : Nat := 0
  /-- ROLE = STANDBY written, first checkpoint not yet taken (R279) -/
  standbyReq : Bool := false
  /-- a takeover has passed the role to the other pair, and this one has not been ACTIVE since (R29, R282) -/
  barred : Bool := false
  deriving DecidableEq, Repr

/-- A lock (R310 to R312). -/
structure Lock where
  owner : Option Nat := none
  broken : Bool := false
  waiters : List Nat := []
  deriving DecidableEq, Repr

/-- The wait of a MID (R311, R314): the lock it waits for and since when, or the lock passed to it. -/
structure Wait where
  lock : Option Nat := none
  since : Nat := 0
  granted : List Nat := []
  deriving DecidableEq, Repr

/-- A raised request at an arbiter (R306 to R308). -/
structure ArbReq where
  mid : Nat
  order : Nat
  left : Nat
  preemptible : Bool
  /-- address of the next beat, whether it writes, and whether the burst has been preempted since it was first granted -/
  addr : Nat := 0
  write : Bool := false
  resumes : Bool := false
  deriving DecidableEq, Repr

/-- An arbiter (R305 to R309). -/
structure Arb where
  count : Nat := 0
  order : Nat := 0
  raised : List ArbReq := []
  grant : Option ArbReq := none
  refill : Bool := false
  deriving DecidableEq, Repr

/-- A DMA channel: the fetched copy of its descriptor and the outcome of its transfer (R319 to R327). -/
structure Dma where
  desc : List Word := []
  status : Nat := 0
  done : Nat := 0
  errAddr : Nat := 0
  poison : Bool := false
  deriving DecidableEq, Repr

/-- An item of a hardware queue (R328, R329). -/
structure QItem where
  data : Word
  tag : BitVec 6
  /-- a single-bit error, or an uncorrectable one, of the pool word in class S or M; a parity error in class L (R329) -/
  ce : Bool
  ue : Bool
  poison : Bool
  deriving DecidableEq, Repr

/-- A hardware queue: its items, oldest first, and its credits (R328 to R333). -/
structure Queue where
  items : List QItem := []
  cred : Nat := 0
  rsv : Nat := 0
  deriving DecidableEq, Repr

/-- A log record (R339). -/
structure LogRec where
  lseq : Word
  tb : BitVec 64
  cls : BitVec 2
  summ : Bool
  dly : Bool
  src : BitVec 6
  code : BitVec 16
  arg0 : Word
  arg1 : Word
  rep : BitVec 16
  lastdt : BitVec 16
  pending : Bool
  /-- its entry in the on-chip ring (R343) -/
  slot : Nat := 0
  deriving DecidableEq, Repr

/-- A coalescing window (R342): the record it changes and the TB of its first occurrence. -/
structure Coalesce where
  lseq : Word
  openTb : Nat
  deriving DecidableEq, Repr

/-- An alarm subscription (R347, R348). -/
structure Alarm where
  src : Source
  sess : BitVec 8
  lowest : BitVec 2
  count : BitVec 16
  tokens : Nat
  /-- TB up to which tokens have been credited (R348) -/
  refillTb : Nat
  suppressed : BitVec 16
  deriving DecidableEq, Repr

/-- Rate bucket of a log source (R341). -/
structure Bucket where
  rate : Nat := 20
  burst : Nat := 64
  tokens : Nat := 64
  refillTb : Nat := 0
  deriving DecidableEq, Repr

/-- What a summary record gathers (R344). -/
structure Summary where
  offered : Nat
  dropped : Nat
  cls : BitVec 2
  deriving DecidableEq, Repr

/-- The Percolator: log, incident mode, alarms, sensors, Kettle count (R335 to R355). -/
structure Perc where
  ring : List LogRec := []
  windows : List (Nat × Option Coalesce) := []
  buckets : List (Nat × Bucket) := []
  summaries : List (Nat × Option Summary) := []
  alarms : List (Nat × Option Alarm) := []
  flash : List LogRec := []
  /-- records offered in the interval that runs, and intervals over and under the limits (R344) -/
  offered : Nat := 0
  overs : Nat := 0
  under : Nat := 0
  sumTb : Nat := 0
  /-- SEQ3: TB of the trigger while it runs, the readings of the last completed sample, and whether they are stale -/
  trigTb : Option Nat := none
  readings : List Word := []
  stale : Bool := false
  /-- sensor conditions that hold, by record code (R335) -/
  conds : List (Nat × Nat) := []
  /-- faults of blocks that PERC has recorded and whose status still shows them, as 8 * log source + class, 4 for a class that the spec
  leaves open (R338, R352) -/
  known : List Nat := []
  /-- time of the last copy to flash (R345) -/
  flashTb : Option Nat := none
  /-- an uncorrectable error in PERC memory has been met (R350) -/
  memBad : Bool := false
  clkHist : BitVec 6 := 63
  /-- TB of the last Kettle heartbeat, and the heartbeat toggle of the ring (R349, R373) -/
  hbTb : Nat := 0
  hbToggle : Bool := false
  caeTb : Option Nat := none
  trialTb : Option Nat := none
  /-- the ROM has gone back to the slot before the one in trial; PERC has still to log it (R363) -/
  reverted : Bool := false
  /-- PERC runs its firmware -/
  running : Bool := false
  /-- a Kettle reset has come since the firmware last ran; items that were in Q31 when it ran again (R339, R352) -/
  restarted : Bool := false
  delayed : Nat := 0
  /-- AON seconds of the Kettle resets since the last device reset, newest first (R351) -/
  resets : List Nat := []
  /-- the cold-start image has not been applied since the angle domain was reset (R367, R407) -/
  coldDue : Bool := true
  deriving DecidableEq, Repr

/-- State of an image slot (R358). -/
inductive SlotState where
  | empty | written | verified | switching | trial | active
  deriving DecidableEq, Repr

/-- An image slot of the flash (R358). -/
structure Slot where
  st : SlotState := .empty
  bytes : List Byte := []
  erasing : Bool := false
  /-- bytes from its start that the erase under way is known to have done (R359) -/
  erased : Nat := 0
  deriving DecidableEq, Repr

/-- The open update (R263, R359, R366). -/
structure Upd where
  comp : Nat
  unit : Nat
  size : Nat
  offset : Nat
  job : Nat
  deriving DecidableEq, Repr

/-- An activation or a revert under way (R361, R365): the slot that comes into use, the hardware bank that the switch selects, the
job, whether the switch has been requested, and whether it is a revert whose checks are still to be made. -/
structure Activation where
  comp : Nat
  unit : Nat
  slotB : Bool
  bank : Nat := 0
  job : Nat := 0
  asked : Bool := false
  revert : Bool := false
  deriving DecidableEq, Repr

/-- A calibration write that waits for its safe point (R364): the block's UNIT, the loop, channel or 0 that it waits for, address and
value. -/
structure CalWrite where
  unit : Nat
  part : Nat
  addr : Nat
  val : Nat
  deriving DecidableEq, Repr

/-- In-service change: the slots by (component * 256 + unit) * 2 + slot, which slot of each component and unit is active,
the open update, and the update a reset interrupted (R356 to R368). -/
structure Update where
  slots : List (Nat × Slot) := []
  activeB : List (Nat × Bool) := []
  opened : Option Upd := none
  closed : Option Upd := none
  generation : Nat := 0
  /-- UPD_VERIFY jobs under way, 0 for none -/
  verify : Nat := 0
  active : List Activation := []
  calib : List CalWrite := []
  /-- port keys of the ACT image loaded at boot, as they are wrapped (R368) -/
  keys : List (List Byte) := []
  /-- the ROM has loaded bank 0 of the access tables with its fallback (R368) -/
  fallback : Bool := false
  deriving DecidableEq, Repr

/-- Fuses and debug (R1, R360, R362, R365, R368, R369): among them the SHA-256 of each of the four root keys, as a number whose bytes
stand most significant first, and the key under which port keys are wrapped. -/
structure Fuses where
  variant : BitVec 8
  step : BitVec 8
  arbcnt : BitVec 8
  revk : BitVec 4
  rootHash : List (BitVec 256)
  deviceKey : BitVec 128
  dbg : BitVec 2
  chal : Option (BitVec 128 × Nat)
  deriving DecidableEq, Repr

/-- What a carafe member knows of a member whose slot it has seen since EN was set (R375, R377, R380, R382, R383, R387). -/
structure Peer where
  /-- consecutive frames missed, at most 3: lost -/
  missed : Nat := 3
  /-- STS of the last valid slot -/
  sts : Byte := 0
  /-- consecutive frames in which it was outvoted, and frames since then, at most 16 -/
  outvoted : Nat := 0
  sinceOutvoted : Nat := 16
  /-- consecutive frames with DEGR = 1, and whether that condition is armed (R380) -/
  degr : Nat := 0
  armed : Bool := false
  /-- consecutive frames that count for the release of its OREL_N (R387) -/
  goodFrames : Nat := 0
  /-- it has reported ACTIVE since this member entered STANDBY -/
  sawActive : Bool := false
  /-- time at which its Kettle heartbeat last toggled, or its slot was first seen (R355) -/
  hbtTb : Nat := 0
  /-- consecutive frames in which a third member showed no data of it (R383) -/
  noData : Nat := 0
  deriving DecidableEq, Repr

/-- The valid slots received so far in the frame of boundary `b` (R375). -/
structure RingGot where
  b : Nat
  slots : List (Nat × RingSlot)
  deriving DecidableEq, Repr

/-- The tracking that a tracker following the ring master keeps from its own input (R390). -/
structure Follow where
  trk : Tracker
  state : Nat
  dir : Nat
  phv : Nat
  guarded : Nat
  rate : Nat
  acc : Nat
  deriving DecidableEq, Repr

/-- An edge that enters the schedule digest (R381). -/
structure DigRec where
  chan : Nat
  level : Bool
  cut : Bool
  tb : Nat
  pass : Nat
  deriving DecidableEq, Repr

/-- The carafe (R370 to R390). -/
structure Ring where
  /-- members seen since EN was set, this one included -/
  peers : List (Nat × Peer) := []
  starts : List RingStart := []
  digs : List DigRec := []
  got : List RingGot := []
  /-- consecutive frames within and outside one tk (R376), and the phase steered so far, in 1/32 tk -/
  good : Nat := 0
  bad : Nat := 0
  steer : Int := 0
  /-- a frame of the ring master has come since the last close; frames closed without one (R377) -/
  heard : Bool := false
  noMaster : Nat := 0
  /-- frames closed since STANDBY was entered (R377) -/
  standbyFrames : Nat := 0
  /-- the first boundary whose frame is not closed yet, and the first whose frame this master has not started -/
  closeAt : Nat := 0
  startAt : Nat := 0
  isMaster : Bool := false
  /-- TB from which the lines are driven after a takeover or a handover (R384, R386) -/
  driveTb : Nat := 0
  /-- handovers that this member asked for, from TBS until the target drives (R386) -/
  handing : List RingStart := []
  /-- the member last known to be ACTIVE, and the one whose OREL_N this member asserted on a takeover (R383 to R385) -/
  active : Option Nat := none
  taken : Option Nat := none
  /-- the lowest ACTIVE slot in the last frame of the ring master (R389) -/
  lastAct : Option Nat := none
  /-- the member that started the frame that TB was last disciplined by, and its boundary (R376) -/
  framed : Option (Nat × Nat) := none
  /-- the slots that this member has written, by boundary, the latest first (R374, R375) -/
  wrote : List (Nat × RingSlot) := []
  /-- TBS of the handover that made this member ACTIVE, and the member that was ACTIVE before it (R385) -/
  handed : Option (Nat × Option Nat) := none
  /-- the frames of another master keep the role since a merge, and TBERR has not been within 1 tk of them yet (R389) -/
  merged : Bool := false
  /-- consecutive bad frames on E_IN and W_IN (R372) -/
  badE : Nat := 0
  badW : Nat := 0
  /-- the last boundary B, and the values published in tk B - 1, which its frame carries (R373) -/
  edgeTb : Nat := 0
  edge : List TrkBlock := []
  /-- the frames last sent on RING_E_OUT and RING_W_OUT (R374) -/
  outE : Option RingFrame := none
  outW : Option RingFrame := none
  /-- the own tracking of each tracker that follows the master (R390) -/
  follows : List (Nat × Follow) := []
  deriving DecidableEq, Repr

/-- Supply, clocks, power states and pins (R392 to R409, R424, R425). -/
structure Power where
  vsup : Nat := 5000
  entering : Option Nat := none
  wakes : BitVec 5 := 0
  exiting : Bool := false
  /-- time of the power-on reset, of the request of an entry, and of the first wake request of an exit (R399, R401, R405) -/
  porTb : Option Nat := none
  enterTb : Nat := 0
  wakeTb : Nat := 0
  warmTb : Nat := 0
  angleReset : Bool := true
  inReset : Bool := false
  startStep : Nat := 0
  /-- the ROM has loaded access bank 0 since the device reset (R304, R368) -/
  romDone : Bool := false
  xtalLossTb : Option Nat := none
  orel : Bool := false
  tapReset : Bool := false
  /-- the debug port's side-effect inhibit (R12, R310) -/
  inhibit : Bool := false
  /-- time at which AON.TMR was written (R401) -/
  tmrTb : Nat := 0
  seenPairs : BitVec 2 := 0
  deriving DecidableEq, Repr

/-- PSPI, SENT, OSPI, I2C and TRACE (R417, R419): a list runs and STAT.TOVR per PSPI port; per SENT port the messages kept (data, TB
of the calibration pulse, flag of a successive-calibration deviation) and the count of those discarded; a flash operation suspended;
times that the I2C bus was freed; OVERRUN markers sent and the count in the last one. -/
structure Ports where
  pspiRun : List (Nat × Bool) := []
  pspiTovr : List (Nat × Bool) := []
  sentMsgs : List (Nat × List (Word × Nat × Bool)) := []
  sentDisc : List (Nat × Nat) := []
  ospiSuspended : Bool := false
  i2cStuck : Nat := 0
  traceMarkers : Nat := 0
  traceStamp : BitVec 48 := 0
  traceLost : BitVec 32 := 0
  deriving DecidableEq, Repr

/-- The response to the last bus read (R15, R295): the model's output port for read data. -/
structure ReadResp where
  mid : Nat := 0
  data : Word := 0
  err : Bool := false
  deriving DecidableEq, Repr

/-- The state of the block. -/
structure State where
  /-- the commands that wait, first in first out -/
  pending : List Instr
  /-- TB (R7) -/
  tb : BitVec 64
  /-- tk that have passed, whether or not the angle domain runs: the timers outside that domain count it -/
  clock : Nat
  regs : List (Nat × Word)
  mem : List Host.Cell
  /-- words with an uncorrectable error, by byte address (R44, R296) -/
  ecc : List Nat
  /-- words with a single-bit error not yet corrected (R296) -/
  soft : List Nat
  /-- holding copies, by master and address (R15) -/
  hold : List (Nat × Option Word)
  resp : ReadResp
  inputs : List (Nat × Input)
  trackers : List (Nat × Tracker)
  occs : List (Nat × Occ)
  units : List (Nat × OutUnit)
  /-- what each tracker publishes as an ABUS value in the tk before this one (R20, R133) -/
  published : List Snap
  /-- words of the event and trim tables that were written since the last pass strobe, as that strobe found them: the pass under way
  still reads these (R21, R104) -/
  held : List (Nat × Word × Bool)
  /-- switch points of the pending bank request that have come, as 32 * tracker + cylinder, with 24 for BANG and 31 for a switch in
  the next pass; whether the request is CYLINDER mode; the job that waits for it (R121) -/
  switched : List Nat
  bankCyl : Bool
  bankJob : Nat
  copyTb : Nat
  copySrc : Bool
  copyJob : Nat
  esqs : List (Nat × Esq)
  loops : List (Nat × Loop)
  cses : List (Nat × Cse)
  padc : Padc
  cae : Cae
  gpts : List (Nat × Gpt)
  hadc : Hadc
  cmps : List (Nat × Cmp)
  gnorum : Gnorum
  cores : List (Nat × Core)
  /-- sources whose pending request has moved to its fallback target (R291) -/
  moved : List Nat
  pairs : List (Nat × Pair)
  takeover : Option Nat
  locks : List (Nat × Lock)
  waits : List (Nat × Wait)
  arbs : List (Nat × Arb)
  /-- next word that the scrubber of a bank reads, with the time of its last read; TB and job of a bank test (R297, R298) -/
  scrub : List (Nat × Nat × Nat)
  bistTb : List (Nat × Nat)
  bistJob : List (Nat × Nat)
  dmas : List (Nat × Dma)
  queues : List (Nat × Queue)
  perc : Perc
  update : Update
  fuses : Fuses
  ring : Ring
  power : Power
  ports : Ports
  /-- number of free values drawn so far (the model's own counter) -/
  draws : Nat
  deriving DecidableEq, Repr

/-- The block right after reset (R402 to R404): every register at its reset value, every memory as `regReset` and
`memDefault` give it, every unit at its reset structure; the fuses are those of a DZ6624-F whose keys are 0 (log entry 56). -/
def State.reset : State where
  pending := []
  tb := 0
  clock := 0
  regs := []
  mem := []
  ecc := []
  soft := []
  hold := []
  resp := {}
  inputs := []
  trackers := []
  occs := []
  units := []
  published := []
  held := []
  switched := []
  bankCyl := false
  bankJob := 0
  copyTb := 0
  copySrc := false
  copyJob := 0
  esqs := []
  loops := []
  cses := []
  padc := {}
  cae := {}
  gpts := []
  hadc := {}
  cmps := []
  gnorum := {}
  cores := []
  moved := []
  pairs := []
  takeover := none
  locks := []
  waits := []
  arbs := []
  scrub := []
  bistTb := []
  bistJob := []
  dmas := []
  queues := []
  perc := {}
  update := {}
  fuses := { variant := 0x09, step := 0, arbcnt := 0, revk := 0, rootHash := [0, 0, 0, 0], deviceKey := 0, dbg := 0, chal := none }
  ring := {}
  power := {}
  ports := {}
  draws := 0

end Sys2Proof.Machine
end

