-- ==== Sys2Proof/Machine/Store.lean ====
section
/-! DEFINITION. Sparse tables: a list of (key, value) pairs in which an unlisted key reads as a default. `putAt` keeps the keys
strictly rising; `storeAt` also keeps the canonical form, in which no listed value equals the default of its key. -/

namespace Sys2Proof.Machine

/-- The value at key `k`; an unlisted key reads as `d k`. -/
def findAt {α : Type} (d : Nat → α) (k : Nat) : List (Nat × α) → α
  | [] => d k
  | (j, v) :: rest => bif Nat.beq j k then v else findAt d k rest

/-- Write `v` at key `k`, keeping rising keys rising. -/
def putAt {α : Type} (k : Nat) (v : α) : List (Nat × α) → List (Nat × α)
  | [] => [(k, v)]
  | (j, w) :: rest =>
    bif Nat.blt k j then (k, v) :: (j, w) :: rest
    else bif Nat.beq j k then (k, v) :: rest
    else (j, w) :: putAt k v rest

/-- Remove the entry of key `k`. -/
def dropAt {α : Type} (k : Nat) : List (Nat × α) → List (Nat × α)
  | [] => []
  | (j, w) :: rest => bif Nat.beq j k then dropAt k rest else (j, w) :: dropAt k rest

/-- Write `v` at key `k` in the canonical form: a value equal to the default removes the entry. -/
def storeAt {α : Type} [DecidableEq α] (d : Nat → α) (k : Nat) (v : α) (l : List (Nat × α)) : List (Nat × α) :=
  if v = d k then dropAt k l else putAt k v l

/-- The keys of the list are strictly rising and all above `lo` (when given). -/
def risingFrom {α : Type} : Option Nat → List (Nat × α) → Bool
  | _, [] => true
  | lo, (j, _) :: rest => (match lo with | none => true | some m => Nat.blt m j) && risingFrom (some j) rest

/-- The canonical form of a sparse table: keys strictly rising, no value equal to the default of its key. -/
def tableWf {α : Type} [DecidableEq α] (d : Nat → α) (l : List (Nat × α)) : Bool :=
  risingFrom none l && l.all (fun p => decide (p.2 ≠ d p.1))

end Sys2Proof.Machine
end

