-- ==== Sys2Proof/Machine/Ops.lean ====
section
/-! DEFINITION. The named operations over the state: registers and their fields (R10, R11), byte memory, the tables of units,
the time base (R7), free values, and the counts of the variant (R1, R3). -/

namespace Sys2Proof.Machine

/-! ### Words and fields -/

/-- The two's-complement reading of the low `w` bits of `n`. -/
def signedOf (w n : Nat) : Int :=
  if n % 2 ^ w < 2 ^ (w - 1) then (n % 2 ^ w : Nat) else (n % 2 ^ w : Nat) - (2 ^ w : Nat)

/-- The `w`-bit two's-complement coding of `i`. -/
def codeOf (w : Nat) (i : Int) : Nat := (i % (2 ^ w : Nat)).toNat

/-- The `i` limited to `lo` to `hi`. -/
def clampInt (lo hi i : Int) : Int := if i < lo then lo else if hi < i then hi else i

/-- `a / b` rounded to the nearest integer, half toward plus infinity. -/
def rnd (a : Int) (b : Nat) : Int := (2 * a + b) / (2 * (b : Int))

/-- `a / b` rounded to the nearest integer, half away from zero, `b` positive. -/
def rndAway (a : Int) (b : Nat) : Int := if a < 0 then -((2 * -a + b) / (2 * (b : Int))) else (2 * a + b) / (2 * (b : Int))

/-- `a / b` rounded to the nearest integer, half up, for natural numbers. -/
def rndNat (a b : Nat) : Nat := (2 * a + b) / (2 * b)

/-- `a / b` rounded up. -/
def ceilDiv (a b : Nat) : Nat := (a + b - 1) / b

/-- The difference `b - a` modulo `m`, read as signed (R33). -/
def sdiff (m : Nat) (a b : Int) : Int :=
  let d := (b - a) % (m : Int)
  if 2 * d < m then d else d - m

/-- Bits `lo` to `lo + w - 1` of `n`. -/
def bitsAt (n lo w : Nat) : Nat := n / 2 ^ lo % 2 ^ w

/-- Bit `i` of `n`. -/
def bitAt (n i : Nat) : Bool := n / 2 ^ i % 2 == 1

/-- `n` with bits `lo` to `lo + w - 1` replaced by the low bits of `v`. -/
def putBits (n lo w v : Nat) : Nat := n - n / 2 ^ lo % 2 ^ w * 2 ^ lo + v % 2 ^ w * 2 ^ lo

/-- The value of field `f` in the register word `w`. -/
def fieldOf (f : Fld) (w : Word) : Nat := bitsAt w.toNat f.lo f.width

/-- The register word `w` with field `f` replaced. -/
def withField (f : Fld) (w : Word) (v : Nat) : Word := BitVec.ofNat 32 (putBits w.toNat f.lo f.width v)

/-! ### Registers -/

/-- The stored word of the register at byte address `a` (no side effect, no computed view). -/
def State.rd (s : State) (a : Nat) : Word := findAt regReset a s.regs

/-- Store a register word. -/
def State.wr (s : State) (a : Nat) (v : Word) : State := { s with regs := storeAt regReset a v s.regs }

/-- The value of a field. -/
def State.get (s : State) (f : Fld) : Nat := fieldOf f (s.rd f.reg)

/-- The value of a one-bit field, or whether a field is not zero. -/
def State.flag (s : State) (f : Fld) : Bool := s.get f != 0

/-- The value of a signed field. -/
def State.geti (s : State) (f : Fld) : Int := signedOf f.width (s.get f)

/-- Write a field, the rest of its register unchanged. -/
def State.set (s : State) (f : Fld) (v : Nat) : State := s.wr f.reg (withField f (s.rd f.reg) v)

/-- Write a one-bit field. -/
def State.setb (s : State) (f : Fld) (b : Bool) : State := s.set f b.toNat

/-- Write a signed field. -/
def State.seti (s : State) (f : Fld) (v : Int) : State := s.set f (codeOf f.width v)

/-- Count one in a saturating tally. -/
def State.tally (s : State) (f : Fld) : State := s.set f (min (2 ^ f.width - 1) (s.get f + 1))

/-- A register as a number. -/
def State.rdn (s : State) (a : Nat) : Nat := (s.rd a).toNat

/-- Write a register from a number. -/
def State.wrn (s : State) (a : Nat) (v : Nat) : State := s.wr a (BitVec.ofNat 32 v)

/-- `n` word addresses from `a`. -/
def wordAddrs (a n : Nat) : List Nat := (List.range n).map fun i => a + 4 * i

/-! ### Byte memory -/

/-- What a byte of memory that nothing has written reads as. -/
def memDefault (_ : Nat) : Byte := 0

/-- One byte of memory. -/
def State.byte (s : State) (a : Nat) : Byte := findAt memDefault a s.mem

/-- Write one byte of memory. -/
def State.putByte (s : State) (a : Nat) (v : Byte) : State := { s with mem := storeAt memDefault a v s.mem }

/-- The little-endian word of four bytes. -/
def wordOfBytes (b0 b1 b2 b3 : Byte) : Word := b3 ++ b2 ++ b1 ++ b0

/-- The little-endian word at byte address `a`. -/
def State.word (s : State) (a : Nat) : Word :=
  wordOfBytes (s.byte a) (s.byte (a + 1)) (s.byte (a + 2)) (s.byte (a + 3))

/-- Write the little-endian word at byte address `a`. -/
def State.putWord (s : State) (a : Nat) (v : Word) : State :=
  (((s.putByte a (v.extractLsb' 0 8)).putByte (a + 1) (v.extractLsb' 8 8)).putByte (a + 2) (v.extractLsb' 16 8)).putByte
    (a + 3) (v.extractLsb' 24 8)

/-- Write bytes from byte address `a` upwards. -/
def State.putBytes (s : State) (a : Nat) : List Byte → State
  | [] => s
  | b :: bs => (s.putByte a b).putBytes (a + 1) bs

/-- `n` bytes from byte address `a` upwards. -/
def State.bytes (s : State) (a : Nat) : Nat → List Byte
  | 0 => []
  | n + 1 => s.byte a :: s.bytes (a + 1) n

/-- `n` bytes from byte address `a` upwards become zero: their entries are removed. -/
def State.clearBytes (s : State) (a n : Nat) : State :=
  { s with mem := s.mem.filter fun c => Nat.blt c.1 a || Nat.ble (a + n) c.1 }

/-- The registers and memory words from address `a` for `n` bytes return to their reset values. -/
def State.clearRegs (s : State) (a n : Nat) : State :=
  { s with regs := s.regs.filter fun c => Nat.blt c.1 a || Nat.ble (a + n) c.1 }

/-! ### Units -/

/-- The timed input n. -/
def State.inp (s : State) (n : Nat) : Input := findAt (fun _ => {}) n s.inputs

/-- Replace the timed input n. -/
def State.putInp (s : State) (n : Nat) (v : Input) : State := { s with inputs := putAt n v s.inputs }

/-- The tracker n. -/
def State.trk (s : State) (n : Nat) : Tracker := findAt (fun _ => {}) n s.trackers

/-- Replace the tracker n. -/
def State.putTrk (s : State) (n : Nat) (v : Tracker) : State := { s with trackers := putAt n v s.trackers }

/-- The occurrence of event n. -/
def State.occ (s : State) (n : Nat) : Occ := findAt (fun _ => {}) n s.occs

/-- Replace the occurrence of event n. -/
def State.putOcc (s : State) (n : Nat) (v : Occ) : State := { s with occs := putAt n v s.occs }

/-- The output unit of channel n. -/
def State.unit (s : State) (n : Nat) : OutUnit := findAt (fun _ => {}) n s.units

/-- Replace the output unit of channel n. -/
def State.putUnit (s : State) (n : Nat) (v : OutUnit) : State := { s with units := putAt n v s.units }

/-- The sequencer n. -/
def State.esq (s : State) (n : Nat) : Esq := findAt (fun _ => {}) n s.esqs

/-- Replace the sequencer n. -/
def State.putEsq (s : State) (n : Nat) (v : Esq) : State := { s with esqs := putAt n v s.esqs }

/-- The regulation loop n. -/
def State.loop (s : State) (n : Nat) : Loop := findAt (fun _ => {}) n s.loops

/-- Replace the regulation loop n. -/
def State.putLoop (s : State) (n : Nat) (v : Loop) : State := { s with loops := putAt n v s.loops }

/-- The current shaping engine n. -/
def State.cse (s : State) (n : Nat) : Cse := findAt (fun _ => {}) n s.cses

/-- Replace the current shaping engine n. -/
def State.putCse (s : State) (n : Nat) (v : Cse) : State := { s with cses := putAt n v s.cses }

/-- The timer n. -/
def State.gpt (s : State) (n : Nat) : Gpt := findAt (fun _ => {}) n s.gpts

/-- Replace the timer n. -/
def State.putGpt (s : State) (n : Nat) (v : Gpt) : State := { s with gpts := putAt n v s.gpts }

/-- The comparator n. -/
def State.cmp (s : State) (n : Nat) : Cmp := findAt (fun _ => {}) n s.cmps

/-- Replace the comparator n. -/
def State.putCmp (s : State) (n : Nat) (v : Cmp) : State := { s with cmps := putAt n v s.cmps }

/-- The application core n (4: PERC). -/
def State.core (s : State) (n : Nat) : Core := findAt (fun _ => {}) n s.cores

/-- Replace the application core n (4: PERC). -/
def State.putCore (s : State) (n : Nat) (v : Core) : State := { s with cores := putAt n v s.cores }

/-- The pair n. -/
def State.pair (s : State) (n : Nat) : Pair := findAt (fun _ => {}) n s.pairs

/-- Replace the pair n. -/
def State.putPair (s : State) (n : Nat) (v : Pair) : State := { s with pairs := putAt n v s.pairs }

/-- The lock n. -/
def State.lock (s : State) (n : Nat) : Lock := findAt (fun _ => {}) n s.locks

/-- Replace the lock n. -/
def State.putLock (s : State) (n : Nat) (v : Lock) : State := { s with locks := putAt n v s.locks }

/-- The wait of master n. -/
def State.wait (s : State) (n : Nat) : Wait := findAt (fun _ => {}) n s.waits

/-- Replace the wait of master n. -/
def State.putWait (s : State) (n : Nat) (v : Wait) : State := { s with waits := putAt n v s.waits }

/-- The arbiter n. -/
def State.arb (s : State) (n : Nat) : Arb := findAt (fun _ => {}) n s.arbs

/-- Replace the arbiter n. -/
def State.putArb (s : State) (n : Nat) (v : Arb) : State := { s with arbs := putAt n v s.arbs }

/-- The DMA channel n. -/
def State.dma (s : State) (n : Nat) : Dma := findAt (fun _ => {}) n s.dmas

/-- Replace the DMA channel n. -/
def State.putDma (s : State) (n : Nat) (v : Dma) : State := { s with dmas := putAt n v s.dmas }

/-- The hardware queue n. -/
def State.queue (s : State) (n : Nat) : Queue := findAt (fun _ => {}) n s.queues

/-- Replace the hardware queue n. -/
def State.putQueue (s : State) (n : Nat) (v : Queue) : State := { s with queues := putAt n v s.queues }

/-! ### Time and free values -/

/-- TB as a number (R7). -/
def State.now (s : State) : Nat := s.tb.toNat

/-- tk passed on the clocks outside the angle domain (R394, R407). -/
def State.time (s : State) : Nat := s.clock

/-- The next free word. -/
def State.drawWord (s : State) : Word × State := (Config.freeWord s.draws, { s with draws := s.draws + 1 })

/-- The next free number. -/
def State.drawNat (s : State) : Nat × State := (Config.freeNat s.draws, { s with draws := s.draws + 1 })

/-- The next free condition. -/
def State.drawBool (s : State) : Bool × State := (Config.freeBool s.draws, { s with draws := s.draws + 1 })

/-- Apply `f` to the numbers `0` to `n - 1` in rising order. -/
def upTo (n : Nat) (f : Nat → State → State) (s : State) : State := (List.range n).foldl (fun t i => f i t) s

/-- `f` if the condition holds, else no effect. -/
def whenS (c : Bool) (f : State → State) (s : State) : State := bif c then f s else s

/-- The angle domain runs: the device is in RUN or SIMMER and the domain is out of reset (R397, R407). -/
def State.angleRuns (s : State) : Bool := Nat.blt (s.get Fields.CPR_PWRSTAT_STATE) 2 && !s.power.angleReset

/-- CPR.CLKSTAT.OK bit `k` (R395): 0 PLLS, 1 PLLT, 2 PLLA, 3 crystal, 4 MCLK, 5 AONCLK. -/
def State.clockOk (s : State) (k : Nat) : Bool := bitAt (s.get Fields.CPR_CLKSTAT_OK) k

/-- SYSCLK and CAECLK run: PLLS is locked, and the device is in RUN (R395, R397). -/
def State.sysClock (s : State) : Bool := s.clockOk 0 && s.get Fields.CPR_PWRSTAT_STATE == 0

/-- An operation of the angle domain: no effect while the domain is stopped. -/
def inAngle (s : State) (f : State → State) : State := bif s.angleRuns then f s else s

/-! ### The variant (R1, R3, R4) -/

/-- The counts of the variant table. -/
structure Counts where
  maxCyl : Nat
  outs : Nat
  loops : Nat
  cpi : Nat
  carafe : Bool
  cores : Nat
  /-- C400 package -/
  small : Bool
  deriving DecidableEq, Repr

/-- The variant table (R1); a code that the table does not list has the counts of the DZ6624-F. -/
def countsOf (code : Nat) : Counts :=
  match code with
  | 0x01 => ⟨12, 32, 6, 0, false, 2, true⟩
  | 0x02 => ⟨16, 40, 8, 0, false, 2, true⟩
  | 0x03 => ⟨12, 32, 6, 12, false, 4, true⟩
  | 0x04 => ⟨16, 40, 8, 16, false, 4, true⟩
  | 0x05 => ⟨8, 24, 4, 8, true, 4, true⟩
  | 0x06 => ⟨20, 56, 10, 0, true, 4, false⟩
  | 0x07 => ⟨24, 64, 12, 0, true, 4, false⟩
  | 0x08 => ⟨20, 56, 10, 20, true, 4, false⟩
  | 0x0B => ⟨24, 0, 0, 24, true, 4, false⟩
  | _ => ⟨24, 64, 12, 24, true, 4, false⟩

/-- The counts of this device. -/
def State.counts (s : State) : Counts := countsOf s.fuses.variant.toNat

/-- The device is a DZ4624-F, the observer (R4). -/
def State.observer (s : State) : Bool := s.fuses.variant == 0x0B

/-- Sequencer `n` is present (R3, R4). -/
def State.hasEsq (s : State) (n : Nat) : Bool := s.observer || Nat.blt (8 * n) s.counts.outs

/-- Channel `c` is present: its descriptor, commit and digest path (R3, R4). -/
def State.hasChan (s : State) (c : Nat) : Bool := s.observer || Nat.blt c s.counts.outs

/-- The output stage of channel `c` is present (R3, R4). -/
def State.hasPin (s : State) (c : Nat) : Bool := Nat.blt c s.counts.outs

/-- Loop `k` is present, at least its sense side (R3, R4). -/
def State.hasLoop (s : State) (k : Nat) : Bool := (s.observer && Nat.blt k 12) || Nat.blt k s.counts.loops

/-- Current shaping engine `n` is present (R3, R4). -/
def State.hasCse (s : State) (n : Nat) : Bool := s.observer || n == 0 || Nat.blt 6 s.counts.loops

/-- The pressure path (CPI, PADC, CAE) is present (R3). -/
def State.hasCae (s : State) : Bool := s.counts.cpi != 0

/-- Core `n` is present (R3). -/
def State.hasCore (s : State) (n : Nat) : Bool := Nat.blt n s.counts.cores

/-- Port `k` is bonded on this variant (R410): the DZ6608-CR is a C400 package with a carafe, the DZ6624-FD is code 0x0C. -/
def hasPort (s : State) (k : Nat) : Bool :=
  let c := s.counts
  bif k == 19 then s.fuses.variant == 0x0C
  else bif Nat.ble 20 k then c.carafe
  else bif c.small then
    !(k == 3 || k == 6 || k == 7 || k == 12 || k == 13) && !(c.carafe && (k == 10 || k == 11 || k == 15))
  else true

end Sys2Proof.Machine
end

