-- ==== Sys2Proof/Machine/Flags.lean ====
section
/-! DEFINITION. Flags and interrupt sources: the condition under which each hardware source is raised, as each chapter gives it,
and the step from raised to pending (R284, R293). -/

namespace Sys2Proof.Machine

open Fields

/-- Some number below `n` satisfies `f`. -/
def someBelow (n : Nat) (f : Nat → Bool) : Bool := (List.range n).any f

/-- A register has one of the bits of `mask` set. -/
def State.anyOf (s : State) (a mask : Nat) : Bool := (s.rdn a &&& mask) != 0

/-- Sources 32 + 2n and 33 + 2n of tracker n (R82, R102). -/
def levelTracker (s : State) (n : Nat) : Bool :=
  bif n % 2 == 0 then s.flag (AT_SSTAT_CHG (n / 2))
  else s.anyOf (Reg.AT_SFLT (n / 2)) 0xFC || s.anyOf (Reg.AT_CFLT (n / 2)) (s.rdn (Reg.AT_CFLTEN (n / 2)))

/-- Sources 40 + 2n and 41 + 2n of sequencer n (R148). -/
def levelEsq (s : State) (n : Nat) : Bool :=
  let q := n / 2
  bif n % 2 == 0 then
    s.anyOf (Reg.ESQ_FLT q) 0xFE || (s.flag (ESQ_STAT_SWI q) && s.flag (ESQ_INTEN_SWIEN q))
  else
    s.flag (ESQ_OWN_VALID q) &&
      someBelow 8 fun i => s.anyOf (Reg.SCH_CHSTAT (8 * s.get (ESQ_OWN_GRP q) + i)) (s.get (ESQ_INTEN_CHF q) * 2)

/-- Sources 56 + 2n and 57 + 2n of current shaping engine n (R170). -/
def levelCse (s : State) (n : Nat) : Bool :=
  bif n % 2 == 0 then s.anyOf (Reg.CSE_EVT (n / 2)) (s.rdn (Reg.CSE_INTEN (n / 2)))
  else s.anyOf (Reg.CSE_ERRINFO (n / 2)) 3

/-- Source t of timer t (R201). -/
def levelGpt (s : State) (t : Nat) : Bool :=
  (s.flag (GPTt_STAT_PEV t) && s.flag (GPTt_CTL_PIE t)) ||
    someBelow 2 fun x => s.flag (GPTt_CSTAT_EVT t x) && s.flag (GPTt_CCFG_IE t x)

/-- Source 84 + q of HADC sequence q, with the calibration flags in source 87 (R216). -/
def levelHadc (s : State) (q : Nat) : Bool :=
  (s.flag (HADC_SEQCFG_IE q) && s.anyOf (Reg.HADC_SEQSTAT q) 3) ||
    (q == 3 && (s.flag HADC_STAT_CALX || s.flag HADC_STAT_CALSTRV))

/-- Source 88 + n of comparator n, with window pair w in source 116 + 2w (R220, R224). -/
def levelCmp (s : State) (n : Nat) : Bool :=
  s.flag (CMP_CFG_IE n) &&
    (s.anyOf (Reg.CMP_LAT n) 3 ||
      (Nat.ble 28 n && n % 2 == 0 && s.anyOf (Reg.CMP_WSTAT ((n - 28) / 2)) 6))

/-- Source 136 + n of DMA channel n (R326): the channel is in ERROR (4), or a flag is set. -/
def levelDma (s : State) (n : Nat) : Bool :=
  (s.flag (DMA_STAT_DONEF n) && s.flag (DMA_CTL_DIE n)) ||
    (s.flag (DMA_CTL_EIE n) && (s.flag (DMA_STAT_WBERR n) || s.get (DMA_STAT_STATE n) == 4))

/-- Source 152 + q of queue q (R333). -/
def levelQueue (s : State) (q : Nat) : Bool :=
  (s.flag (Q_CFG2_IE q) && s.flag (Q_CFG2_WM q) && Nat.ble (s.get (Q_CFG2_WM q)) (s.queue q).items.length) ||
    (s.flag (Q_CFG2_EIE q) && s.anyOf (Reg.Q_STAT q) 0xF0000000)

/-- Source 184 + k of the lock block (R314). -/
def levelLock (s : State) (k : Nat) : Bool :=
  (k == 7 && s.anyOf Reg.LKB_ERRINFO 3) ||
    someBelow 64 fun m => s.get (LKB_WSTAT_SRC m) == k && (s.flag (LKB_WSTAT_GRANT m) || s.flag (LKB_WSTAT_TOUT m))

/-- Source 208 + p of port p: the ports that carry Gnorum (R418). -/
def levelPort (s : State) (p : Nat) : Bool :=
  bif Nat.blt p 2 then s.anyOf (Reg.HSPI_PFLG p) (s.rdn (Reg.HSPI_PIE p))
  else bif Nat.blt p 4 then s.anyOf (Reg.ETH_PFLG (p - 2)) (s.rdn (Reg.ETH_PIE (p - 2)))
  else bif Nat.blt p 8 then s.anyOf (Reg.CAN_PFLG (p - 4)) (s.rdn (Reg.CAN_PIE (p - 4)))
  else bif p == 14 || p == 15 then s.anyOf (Reg.UART_PFLG (p - 14)) (s.rdn (Reg.UART_PIE (p - 14)))
  else false

/-- Sources 240 and up: pairs, monitors, ring, Kettle (R278, R393, R395, R349 and the ring's INTEN). The sources that mark one
occurrence (242, 247, 252, 253, 254) have no level; `State.pulse` raises them. -/
def levelTop (s : State) (n : Nat) : Bool :=
  match n with
  | 240 => s.get (CPR_PAIRSTAT_STATE 0) == 6
  | 241 => s.get (CPR_PAIRSTAT_STATE 1) == 6
  | 243 => s.flag CPR_MONSTAT_RAIL
  | 244 => s.flag CPR_CLKSTAT_LOSS
  | 245 => s.flag CPR_MONSTAT_ILIM
  | 246 => s.flag CPR_MONSTAT_VLOW
  | 248 => bitAt (s.get RING_INTEN_IE) 0 && (s.flag RING_STAT_CHG || s.flag RING_STAT_LOSTF)
  | 249 => bitAt (s.get RING_INTEN_IE) 1 && (s.flag RING_STAT_TKOVR || s.flag RING_STAT_ORELF)
  | 250 => bitAt (s.get RING_INTEN_IE) 2 && s.flag RING_STAT_MMF
  | 251 => bitAt (s.get RING_INTEN_IE) 3 && s.flag RING_STAT_LINKF
  | 255 => s.flag KTL_STAT_WARN
  | _ => false

/-- Whether hardware source `n` is raised: its condition holds (R284, R293). -/
def levelOf (s : State) (n : Nat) : Bool :=
  bif Nat.blt n 32 then levelGpt s n
  else bif Nat.blt n 40 then levelTracker s (n - 32)
  else bif Nat.blt n 56 then levelEsq s (n - 40)
  else bif Nat.blt n 60 then levelCse s (n - 56)
  else bif Nat.blt n 72 then s.anyOf (Reg.CRL_FLT (n - 60)) 0x3E
  else bif Nat.blt n 80 then bitAt (s.rdn Reg.CAE_EVT &&& s.rdn Reg.CAE_INTEN) (n - 72)
  else bif Nat.blt n 84 then
    bitAt (s.get PADC_CAL_DONE ||| s.get PADC_CAL_FAIL ||| s.get PADC_CAL_STARVED) (n - 80)
  else bif Nat.blt n 88 then levelHadc s (n - 84)
  else bif Nat.blt n 136 then levelCmp s (n - 88)
  else bif Nat.blt n 152 then levelDma s (n - 136)
  else bif Nat.blt n 184 then levelQueue s (n - 152)
  else bif Nat.blt n 192 then levelLock s (n - 184)
  else bif Nat.blt n 208 then false
  else bif Nat.blt n 232 then levelPort s (n - 208)
  else levelTop s n

/-- The bits of word `w` whose sources are enabled, raised, and neither pending nor active. -/
def raisedBits (s : State) (w : Nat) : Nat :=
  let open_ := s.rdn (Reg.IRQC_ENSET w) &&& (0xFFFFFFFF ^^^ (s.rdn (Reg.IRQC_PNDSET w) ||| s.rdn (Reg.IRQC_ACTV w)))
  bif open_ == 0 then 0
  else (List.range 32).foldl (fun acc b => bif bitAt open_ b && levelOf s (32 * w + b) then acc + 2 ^ b else acc) 0

/-- Word `w` of the pending states after every raised source that is enabled and not active has become pending. -/
def pendWord (s : State) (w : Nat) : State :=
  let r := raisedBits s w
  bif r == 0 then s else s.wrn (Reg.IRQC_PNDSET w) (s.rdn (Reg.IRQC_PNDSET w) ||| r)

/-- Every source that is raised, enabled and not active becomes pending (R284). -/
def pendRaised (s : State) : State :=
  pendWord (pendWord (pendWord (pendWord (pendWord (pendWord (pendWord (pendWord s 0) 1) 2) 3) 4) 5) 6) 7

/-! ### Targets (R285, R290, R291) -/

/-- Core `n` can run as soon as it has its clock: its pair is in BOOT, ACTIVE, STANDBY or SPLIT, it issues on the bus, the debug port has
not halted it, and PLLS is locked, unless the stay in WARM has stopped it (R277, R279, R291, R369, R399). -/
def coreReady (s : State) (n : Nat) : Bool :=
  let st := s.get (CPR_PAIRSTAT_STATE (n / 2))
  s.hasCore n && (s.clockOk 0 || s.get CPR_PWRSTAT_STATE == 2) && (Nat.ble 2 st && Nat.ble st 5) && (n % 2 == 0 || s.flag (CPR_PAIRCTL_SPLIT (n / 2))) && !(s.core n).halted

/-- Core `n` runs: it can, and SYSCLK runs (R397, R399). -/
def coreRuns (s : State) (n : Nat) : Bool := coreReady s n && s.sysClock

/-- TSTAT.PWR of target `t` (R291, R293): 0 RUN, 1 WFI, 2 SIMMER, 3 WARM, 4 STEEP, 5 CELLAR, 6 not running. PERC runs in
SIMMER and WARM (R397). -/
def targetPower (s : State) (t : Nat) : Nat :=
  let p := s.get CPR_PWRSTAT_STATE
  bif t == 4 then (bif Nat.ble 3 p then p + 1 else bif s.perc.running then 0 else 6)
  else bif !coreReady s t then 6
  else bif p != 0 then p + 1
  else bif (s.core t).wfi then 1 else 0

/-- mstatus.MIE of a core, and the interrupt enable of PERC (R285). -/
def coreMie (s : State) (t : Nat) : Bool := bitAt (findAt (fun _ => 0) 0x300 (s.core t).csr).toNat 3

/-- PRIO of source `n`; source 242 ignores its SRCCFG (R293). -/
def sourcePrio (s : State) (n : Nat) : Nat := bif n == 242 then 15 else s.get (IRQC_SRCCFG_PRIO n)

/-- The target of source `n` (R293). -/
def sourceTarget (s : State) (n : Nat) : Nat :=
  bif n == 242 then 2 * s.get CPR_DPXSTAT_ACT else s.get (IRQC_SRCCFG_TARGET n)

/-- WAKE of source `n` (R293). -/
def sourceWake (s : State) (n : Nat) : Bool := n == 242 || s.flag (IRQC_SRCCFG_WAKE n)

/-- Target `t` cannot take a request of source `n`, which is for its fallback (R291). -/
def targetFails (s : State) (n t : Nat) : Bool :=
  let p := targetPower s t
  bif p == 0 then s.get (CPR_PAIRSTAT_STATE (t / 2)) == 2 && t != 4 && !coreMie s t
  else !(Nat.blt p 4 && sourceWake s n)

/-- The pending sources. -/
def pendingSources (s : State) : List Nat :=
  (List.range 8).flatMap fun w =>
    let v := s.rdn (Reg.IRQC_PNDSET w)
    bif v == 0 then [] else ((List.range 32).filter (bitAt v ·)).map (32 * w + ·)

/-- The requests that stand on their fallback: those that moved there before, and those whose target cannot take them. -/
def fallbacks (s : State) : List Nat :=
  (pendingSources s).filter fun n =>
    n != 242 && s.flag (IRQC_SRCCFG_FBEN n) && (s.moved.contains n || targetFails s n (sourceTarget s n))

/-- Raised sources become pending, and requests whose target cannot take them move to their fallback (R284, R291). -/
def State.settle (s : State) : State := { pendRaised s with moved := fallbacks (pendRaised s) }

/-- One occurrence of source `n`: it becomes pending when it is enabled and not active (R284). -/
def State.pulse (s : State) (n : Nat) : State :=
  let w := n / 32
  bif bitAt (s.rdn (Reg.IRQC_ENSET w)) (n % 32) && !bitAt (s.rdn (Reg.IRQC_ACTV w)) (n % 32) then
    s.wrn (Reg.IRQC_PNDSET w) (s.rdn (Reg.IRQC_PNDSET w) ||| 2 ^ (n % 32))
  else s

/-- The outcome of a command whose effect is `s`: the sources that its effect raises become pending. -/
def done (s : State) : Host.Outcome State Fault Refusal := .next s.settle

end Sys2Proof.Machine
end

