-- ==== Sys2Proof/Machine/Jobs.lean ====
section
/-! DEFINITION. Long-running jobs (R252). -/

namespace Sys2Proof.Machine

/-- Job slot `j`. -/
def State.job (s : State) (j : Nat) : Job := findAt (fun _ => {}) j s.gnorum.jobs

/-- Replace job slot `j`. -/
def State.putJob (s : State) (j : Nat) (v : Job) : State := { s with gnorum := { s.gnorum with jobs := putAt j v s.gnorum.jobs } }

/-- Job `j` ends with its final status; 0 names no job (R252). -/
def endJob (j status detail : Nat) (s : State) : State :=
  let x := s.job j
  bif j != 0 && x.st == .running then
    s.putJob j { x with st := .ended, status := BitVec.ofNat 16 status, detail := BitVec.ofNat 16 detail, endTb := s.time }
  else s

/-- The lowest free job slot, 1 to 15 (R252). -/
def freeJob (s : State) : Option Nat := ((List.range 15).map (· + 1)).find? fun j => (s.job j).st == .free

/-- Job `j` starts for a requester. -/
def startJob (j : Nat) (src : Source) (opc : BitVec 8) (unit : Nat) (s : State) : State :=
  s.putJob j { st := .running, owner := src, opc := opc, unit := unit, status := 0, detail := 0, endTb := 0 }

/-- The waiting calibration writes that satisfy `f` are made (R364). -/
def calibTake (f : CalWrite → Bool) (s : State) : State :=
  let t := { s with update := { s.update with calib := s.update.calib.filter fun c => !f c } }
  (s.update.calib.filter f).foldl (fun u c => u.wrn c.addr c.val) t

end Sys2Proof.Machine
end

