-- ==== Sys2Proof/Machine/Access.lean ====
section
/-! DEFINITION. The address map, the access tables and the bus error records (R11, R17, R291, R294 to R301). -/

namespace Sys2Proof.Machine

open Fields

/-- What stands at a byte address (R294). -/
inductive Place where
  | unmapped
  /-- a byte memory: boot ROM, TCM, SRAM, CAE data memory, OSPI window, PERC SRAM, AON SRAM -/
  | bytes
  /-- a word memory of the angle domain, or a register of a block -/
  | words
  deriving DecidableEq, Repr

/-- Address `a` lies in the `n` bytes from `base`. -/
def within (base n a : Nat) : Bool := Nat.ble base a && Nat.blt a (base + n)

/-- The shared SRAM bank of an address (R294). -/
def sramBank (a : Nat) : Option Nat := bif within 0x10000000 (12 * 0x80000) a then some ((a - 0x10000000) / 0x80000) else none

/-- A TCM global window, of core `(a - base) / 0x40000` (R275, R294). -/
def tcmWindow (a : Nat) : Option Nat :=
  bif within 0x0C000000 (4 * 0x40000) a && Nat.blt (a % 0x40000) 0x20000 then some ((a - 0x0C000000) / 0x40000) else none

/-- The word memories of the angle domain (R294): tooth table, profiles, period stores, event and trim tables, program banks,
trace buffers, microcode. -/
def angleMemory (a : Nat) : Bool :=
  within 0x50040000 0x10000 a || within 0x50050000 0x10000 a || within 0x50060000 0xA000 a ||
  (within 0x50000000 0x40000 a && within 0x4000 0x4000 (a % 0x10000)) ||
  (within 0x50090000 0x2000 a && within 0x400 0xC00 (a % 0x1000)) || within 0x5009A000 (12 * 0x800) a ||
  within 0x500D0000 0x20000 a

/-- The address as its target sees it: a core's local TCM alias is its global window (R275). -/
def busAddr (mid a : Nat) : Nat :=
  bif Nat.blt mid 4 && within 0x08000000 0x20000 a then 0x0C000000 + mid * 0x40000 + (a - 0x08000000) else a

/-- The offsets of AT1 to AT3 at which no register stands, and which read zero (R45). -/
def trackerVoid (a : Nat) : Bool := within 0x50010000 0x30000 a && Nat.ble 0x8000 (a % 0x10000)

/-- What stands at `a`, a bus address, for master `mid` (R45, R294, R300). -/
def placeOf (mid a : Nat) : Place :=
  bif within 0x00000000 0x10000 a || (tcmWindow a).isSome || (sramBank a).isSome || within 0x14000000 0x100000 a ||
      within 0x20000000 0x10000000 a || (mid == 15 && within 0x60000000 0x40000 a) || within 0x70000000 0x10000 a then
    .bytes
  else bif angleMemory a || trackerVoid a then .words
  else match descAt (a / 4 * 4) with
    | some _ => .words
    | none => .unmapped

/-- The TCM mirror of a checker core in lockstep: its window reads zero and takes no write (R275). -/
def checkerTcm (s : State) (a : Nat) : Bool :=
  match tcmWindow a with
  | some n => n % 2 == 1 && !s.flag (CPR_PAIRCTL_SPLIT (n / 2))
  | none => false

/-- The SRAM bank at `a` is offline (R298). -/
def bankOff (s : State) (a : Nat) : Bool := match sramBank a with | some b => s.flag (MEMC_BANKSTAT_ISOFF b) | none => false

/-- Region `e` of access bank `k` is enabled and covers `a`. -/
def regionCovers (s : State) (k e a : Nat) : Bool :=
  let w := s.rdn (Reg.ACT_RGN0 k e)
  bitAt w 0 && a / 2 ^ bitsAt w 7 5 == (w / 4096 * 4096) / 2 ^ bitsAt w 7 5

/-- The numbers of the regions of bank `k` whose word 0 has been written. -/
def regionsOf (s : State) (k : Nat) : List Nat :=
  (s.regs.filter fun r => within (Reg.ACT_RGN0 k 0) 0xC00 r.1 && r.1 % 0x20 == 0).map fun r => (r.1 - Reg.ACT_RGN0 k 0) / 0x20

/-- Some enabled region of the active bank covers `a` and grants master `mid` the access (R299). -/
def regionGrants (s : State) (mid a : Nat) (write : Bool) : Bool :=
  let k := s.get ACT_CTL_SEL
  (regionsOf s k).any fun e => regionCovers s k e a &&
    (let base := bif write then (bif Nat.blt mid 32 then Reg.ACT_WMASK0 k e else Reg.ACT_WMASK1 k e)
      else (bif Nat.blt mid 32 then Reg.ACT_RMASK0 k e else Reg.ACT_RMASK1 k e)
     bitAt (s.rdn base) (mid % 32))

/-- Master `mid` is revoked (R303). -/
def revoked (s : State) (mid : Nat) : Bool :=
  bitAt (s.rdn (bif Nat.blt mid 32 then Reg.ACT_REVOKEL else Reg.ACT_REVOKEH)) (mid % 32)

/-- Addresses whose writes R17 limits to PERC, the FCP and the engines themselves (R17, R300). -/
def engineRange (a : Nat) : Bool :=
  (angleMemory a && !within 0x5009A000 (12 * 0x800) a) || within 0x50000000 0x40000 a || within 0x5006A000 0x1000 a || within 0x50070000 0x8000 a ||
  within 0x50090000 0xA000 a || within 0x40070000 0x1000 a || within 0x500A0000 0x1000 a

/-- Addresses that only MID 15 writes: ACT, MEMC, ARB (R300), CPR but for its pair and duplex registers, RING, KTL and PST,
which the spec says only PERC writes. DEDUCED (log entry 31): a write by another MID is denied. -/
def percRange (a : Nat) : Bool :=
  within 0x40090000 0x10000 a || within 0x40080000 0x100 a || within 0x500C0000 0x1000 a || within 0x70010400 0x800 a

/-- Addresses that no master writes: boot ROM and OSPI window (R300). -/
def readOnlyRange (a : Nat) : Bool := within 0 0x10000 a || within 0x20000000 0x10000000 a

/-- The register or memory word of a flag register of R18. -/
def flagRegister (a : Nat) : Bool :=
  let at_ := within 0x50000000 0x40000 a
  let o := a % 0x10000
  let ti := within 0x50008000 0x1000 a
  let tio := a % 0x100
  (at_ && Nat.blt o 0x4000 && (o == 0x208 || o == 0x210 || o == 0x320 || o == 0x31C || o == 0x14 || o == 0x404 || o == 0x504 || o == 0x100)) ||
  (ti && (tio == 0x0C || tio == 0x18 || tio == 0x4C)) ||
  (within 0x5006A800 0x800 a && a % 0x20 == 0x14) || a == Reg.SCH_BSTAT || a == Reg.SCH_ERRINFO ||
  (within 0x50070000 0x8000 a && (a % 0x1000 == 0x8 || a % 0x1000 == 0x18 || a % 0x1000 == 0x24)) ||
  (within 0x50090000 0x2000 a && (a % 0x1000 == 0xC || a % 0x1000 == 0x8)) ||
  (within 0x50098000 0xC00 a && a % 0x100 == 0xC) ||
  a == Reg.CAE_EVT || a == Reg.CAE_ERRINFO || a == Reg.PADC_CAL || a == Reg.PADC_ERRINFO

/-- Whether a write is limited to the W1C fields of a flag register: a master other than PERC and the FCP (R18). -/
def flagOnly (mid a : Nat) : Bool := mid != 15 && mid != 16 && engineRange a

/-- ACT allows the access (R299, R300), and the debug port may make it (R369). -/
def actAllows (s : State) (mid a : Nat) (write : Bool) : Bool :=
  let tables := mid == 15 || regionGrants s mid a write
  let rules := !revoked s mid && !(mid == 20 && (s.fuses.dbg == 3 || (write && s.fuses.dbg == 1))) &&
    !(write && readOnlyRange a) && !(write && percRange a && mid != 15) &&
    !(write && engineRange a && mid != 15 && mid != 16 && !flagRegister a)
  tables && rules

/-- Record an access in VREC0/VREC1 or BERR0/BERR1, or count it (R295, R301). -/
def recordIn (valid write midF cause cnt : Fld) (addrReg mid a c : Nat) (w : Bool) (s : State) : State :=
  bif s.flag valid then s.tally cnt
  else (((s.setb valid true).setb write w).set midF mid |>.set cause c).wrn addrReg a

/-- A denied access: VREC0 and source 252 (R301). -/
def recordViolation (mid a : Nat) (w : Bool) (s : State) : State :=
  (recordIn ACT_VREC0_VALID ACT_VREC0_WRITE ACT_VREC0_MID ACT_VREC0_CAUSE ACT_VREC0_CNT Reg.ACT_VREC1 mid a 0 w s).pulse 252

/-- A bus error of cause `c`: BERR0, and source 254, or 253 for an uncorrectable word (R295, R296). -/
def recordError (mid a c : Nat) (w : Bool) (s : State) : State :=
  (recordIn ACT_BERR0_VALID ACT_BERR0_WRITE ACT_BERR0_MID ACT_BERR0_CAUSE ACT_BERR0_CNT Reg.ACT_BERR1 mid a c w s).pulse
    (bif c == 3 then 253 else 254)

/-- How an access ends before it reaches its target. -/
inductive Judge where
  | pass
  | denied
  | error (cause : Nat)
  /-- the master issues no requests (R25) -/
  | silent
  deriving DecidableEq, Repr

/-- Bytes of a transfer. -/
def AccSize.bytes : AccSize → Nat
  | .byte => 1
  | .half => 2
  | .word => 4

/-- The block behind master `mid` is present on this variant (R2, R3, R25). -/
def midPresent (s : State) (mid : Nat) : Bool :=
  bif Nat.blt mid 4 then s.hasCore mid
  else bif mid == 4 then s.hasCae
  else bif Nat.ble mid 12 then s.hasEsq (mid - 5)
  else bif Nat.ble mid 14 then s.hasCse (mid - 13)
  else bif mid == 17 then s.counts.carafe
  else bif mid == 18 || mid == 19 then hasPort s (mid - 16)
  else true

/-- Master `mid` issues requests: an absent block does not (R2), nor does a checker core in lockstep (R25, R277). -/
def issues (s : State) (mid : Nat) : Bool :=
  midPresent s mid && (!(mid == 1 || mid == 3) || s.flag (CPR_PAIRCTL_SPLIT (mid / 2)))

/-- The access of master `mid` to bus address `a` (R11, R25, R295, R298 to R301). -/
def judge (s : State) (mid a : Nat) (size : AccSize) (write : Bool) : Judge :=
  let n := AccSize.bytes size
  bif !issues s mid then .silent
  else match placeOf mid a with
  | .unmapped => .error 1
  | .words => bif n != 4 || a % 4 != 0 then .error 2 else bif actAllows s mid a write then .pass else .denied
  | .bytes =>
    bif a % n != 0 then .error 2
    else bif bankOff s a then .error 4
    else bif !actAllows s mid a write then .denied
    else bif checkerTcm s a && write then .error 1
    else .pass

/-- The SRAM word that covers `a` holds an uncorrectable error (R296). -/
def wordBad (s : State) (a : Nat) : Bool := s.ecc.contains (a / 4 * 4)

/-- An uncorrectable SRAM error is found at `a` (R296). -/
def sramUe (a : Nat) (s : State) : State :=
  match sramBank a with
  | none => s
  | some b => bif s.flag (MEMC_BANKSTAT_UE b) then s
      else (s.setb (MEMC_BANKSTAT_UE b) true).wrn (Reg.MEMC_UEADDR b) (a / 4 * 4)

/-- A single-bit error met by a read of the SRAM word at `a` is corrected and counted (R296). -/
def softCorrect (a : Nat) (s : State) : State :=
  let w := a / 4 * 4
  match sramBank a with
  | none => s
  | some b =>
    bif s.soft.contains w then { (s.tally (MEMC_BANKSTAT_CECNT b)) with soft := s.soft.filter (· != w) } else s

/-- The checker's copy of the word at `a`: in lockstep a write of the issuing core's TCM reaches both (R275). -/
def mirrorOf (s : State) (a : Nat) : Option Nat :=
  match tcmWindow a with
  | some k => bif k % 2 == 0 && !s.flag (CPR_PAIRCTL_SPLIT (k / 2)) then some (a + 0x40000) else none
  | none => none

/-- The record ring takes no write of master `mid`: PERC alone writes it, while the CAE does not run (R181). -/
def recordHeld (s : State) (mid a : Nat) : Bool := within 0x140E0000 0x8000 a && (mid != 15 || s.flag CAE_CTL_RUN)

/-- A word written by an internal master to a byte memory: whether it was written, and the state (R181, R296, R299, R301). A whole
word replaces an uncorrectable one. -/
def ramWrite (mid addr : Nat) (v : Word) (s : State) : Bool × State :=
  let a := busAddr mid addr
  match judge s mid a .word true with
  | .pass =>
    bif recordHeld s mid a then (false, recordError mid a 5 true s) else
    let t := s.putWord a v
    let stale (w : Nat) : Bool := w == a || mirrorOf s a == some w
    (true, { (match mirrorOf s a with | some b => t.putWord b v | none => t) with
      ecc := s.ecc.filter fun w => !stale w, soft := s.soft.filter fun w => !stale w })
  | .denied => (false, recordViolation mid a true s)
  | .error c => (false, recordError mid a c true s)
  | .silent => (false, s)

end Sys2Proof.Machine
end

