-- ==== Sys2Proof/Machine/Filter.lean ====
section
/-! DEFINITION. The filter of a timed input: sampling, the run of samples at a new level, and the timing comparator of a VR front end
that feeds it (R47 to R49, R53, R54, R57). -/

namespace Sys2Proof.Machine

open Fields

/-- The input whose filter and blanking settings input `n` uses: channel B of a quadrature pair uses those of channel A
(R57). -/
def filterOwner (s : State) (n : Nat) : Nat :=
  bif n % 2 == 1 && s.get (TI_CFG_MODE n) == 4 && s.get (TI_CFG_MODE (n - 1)) == 2 then n - 1 else n

/-- The filter of input `n` runs: EN is set, or `n` is channel B of a quadrature pair whose channel A is enabled (R47, R57). -/
def filterRuns (s : State) (n : Nat) : Bool :=
  s.flag (TI_CFG_EN n) || (filterOwner s n != n && s.flag (TI_CFG_EN (n - 1)))

/-- The sampling period k of an input, in tk (R48). -/
def samplePeriod (s : State) (n : Nat) : Nat := 4 ^ s.get (TI_FLT_PSC (filterOwner s n))

/-- FLEN of an input (R48). -/
def filterLen (s : State) (n : Nat) : Nat := s.get (TI_FLT_FLEN (filterOwner s n))

/-- The capture delay D of an input: 6 + FLEN × k tk (R49, R87). -/
def captureDelay (s : State) (n : Nat) : Nat := 6 + filterLen s n * samplePeriod s n

/-- The first sampling instant at or after TB `t` (R49); sampling instants are the multiples of k. -/
def nextSample (k t : Nat) : Nat := (t + k - 1) / k * k

/-- The samples taken at a level first seen at `ts` before TB `t`. -/
def samplesBefore (k ts t : Nat) : Nat := bif Nat.ble t ts then 0 else (t - ts + k - 1) / k

/-- The samples taken before TB `t` reach the filter, whose length is `len`: those at the filtered level end a run of samples at the
other, those at the other begin or go on with it, and a run of `len` samples passes (R48). A level that no sample sees leaves no
trace. -/
def Input.sampled (k len t : Nat) (i : Input) : Input :=
  let first := nextSample k i.pinTb
  bif Nat.ble t first then i
  else bif i.pin == i.flt then { i with run := none, pinTb := t }
  else
    let ts := i.run.getD first
    bif Nat.ble (max 1 len) (samplesBefore k ts t) then
      { i with run := none, flt := i.pin, passed := i.passed ++ [(ts, i.pin)], pinTb := t }
    else { i with run := some ts, pinTb := t }

/-- Input `n` with the samples before TB `t` in its filter, which takes samples only while it runs (R47). -/
def filterAt (s : State) (n t : Nat) : Input :=
  bif filterRuns s n then (s.inp n).sampled (samplePeriod s n) (filterLen s n) t else s.inp n

/-- The filter of input `n` takes the samples before now. -/
def filterSync (n : Nat) (s : State) : State := bif filterRuns s n then s.putInp n (filterAt s n s.now) else s

/-- The level at the input of the filter changes now (R48). -/
def pinLevel (s : State) (n : Nat) (level : Bool) : State :=
  s.putInp n { filterAt s n s.now with pin := level, pinTb := s.now }

/-- The filter of input `i` restarts at TB `t` from the current level, with no edge (R47). -/
def Input.restarted (t : Nat) (i : Input) : Input := { i with pinTb := t, flt := i.pin, run := none, passed := [], hist := [], lastPass := none }

/-- The timing comparator of a VR front end re-arms: its output returns (R53). -/
def vrRearm (s : State) (n : Nat) : State :=
  let s1 := pinLevel s n (!s.flag (TI_VRCFG_INV n))
  s1.putInp n { s1.inp n with rearmed := true }

/-- The signal of a VR input stands at `code`, in steps of 20 mV: the peak memory takes it, and above +ZHYS, in steps of 10 mV, it re-arms
the timing comparator of a front end with INV = 0, below -ZHYS that of one with INV = 1 (R53, R55). -/
def vrSignal (n : Nat) (code : Int) (s : State) : State :=
  let s1 := s.putInp n { s.inp n with peak := max (s.inp n).peak code.toNat }
  let away : Int := bif s.flag (TI_VRCFG_INV n) then -2 * code else 2 * code
  whenS (!(s.inp n).rearmed && decide ((s.get (TI_VRCFG_ZHYS n) : Int) < away)) (vrRearm · n) s1

end Sys2Proof.Machine
end

