-- ==== Sys2Proof/Machine/Gpt.lean ====
section
/-! DEFINITION. The general-purpose timers: count, period, shadows, capture and width channels, BREW (R193 to R204). The
period end and the compare event stand in Trigger.lean, after the blocks they trigger. -/

namespace Sys2Proof.Machine

open Fields

/-- Channel `x` of a timer. -/
def Gpt.chan (g : Gpt) (x : Nat) : GptChan := bif x == 0 then g.ch0 else g.ch1

/-- Replace channel `x` of a timer. -/
def Gpt.putChan (g : Gpt) (x : Nat) (c : GptChan) : Gpt := bif x == 0 then { g with ch0 := c } else { g with ch1 := c }

/-- tk per count: PSC + 1 (R193). -/
def gptStep (s : State) (t : Nat) : Nat := s.get (GPTt_CTL_PSC t) + 1

/-- The count of timer `t` at TB `at_`, not yet wrapped. -/
def gptRaw (s : State) (t at_ : Nat) : Nat :=
  let g := s.gpt t
  bif s.flag (GPTt_CTL_RUN t) then g.base + (at_ - g.from_) / gptStep s t else s.get (GPTt_CNT_CNT t)

/-- TB of the tick at which the period of timer `t` ends (R193, R196). -/
def gptEndTb (s : State) (t : Nat) : Nat :=
  let g := s.gpt t
  match g.shortAt with
  | some e => e
  | none => g.from_ + max 1 (g.per + 1 - g.base) * gptStep s t

/-- The count of timer `t` now: a count above PER stands until the tick that ends the period, and from that tick the new period counts from
0 (R193, R196). -/
def gptCount (s : State) (t : Nat) : Nat :=
  let e := gptEndTb s t
  bif s.flag (GPTt_CTL_RUN t) && Nat.ble e s.now then (s.now - e) / gptStep s t % ((s.gpt t).per + 1) % 2 ^ 32
  else gptRaw s t s.now % 2 ^ 32

/-- TB of the tick at which the count becomes the compare value of channel `x`: for the value 0, the end of the period
(R197). -/
def gptCompareTb (s : State) (t x : Nat) : Nat :=
  let g := s.gpt t
  let c := (g.chan x).cmp
  bif c == 0 then gptEndTb s t else g.from_ + (c - g.base) * gptStep s t

/-- The compare event of channel `x` of timer `t` is due (R196, R197). -/
def gptCompareDue (s : State) (t x : Nat) : Bool :=
  let g := s.gpt t
  let c := g.chan x
  s.get (GPTt_CCFG_MODE t x) == 1 &&
    (c.zeroDue || (s.flag (GPTt_CTL_RUN t) && !c.fired && Nat.ble c.cmp g.per && Nat.ble (gptCompareTb s t x) s.now))

/-- The period of timer `t` has ended and its end is still to be raised. -/
def gptEndDue (s : State) (t : Nat) : Bool := s.flag (GPTt_CTL_RUN t) && Nat.ble (gptEndTb s t) s.now

/-- The shadows of timer `t` load. -/
def gptLoad (s : State) (t : Nat) (g : Gpt) : Gpt :=
  { g with
    per := s.rdn (Reg.GPTt_PER t)
    ch0 := { g.ch0 with cmp := s.rdn (Reg.GPTt_CMP t 0), fired := false }
    ch1 := { g.ch1 with cmp := s.rdn (Reg.GPTt_CMP t 1), fired := false }
    shortAt := none }

/-- The start of a timer's period clears the latches of the comparators that its channels select and that set LCLR
(R198, R222). -/
def gptClearLatches (s : State) (t : Nat) : State :=
  upTo 2 (fun x u =>
    let src := u.get (GPTt_CCFG_SRC t x)
    whenS (Nat.ble 16 src && u.flag (CMP_CFG_LCLR (src - 16))) (·.wr (Reg.CMP_LAT (src - 16)) 0) u) s

/-- The end of a period: the count becomes 0, PEV is set, the shadows load; ONESHOT clears RUN (R193, R194, R196). -/
def gptEndPeriod (s : State) (t : Nat) : State :=
  let g := s.gpt t
  let e := gptEndTb s t
  let s1 := whenS g.shortAt.isSome (·.setb (GPTt_STAT_PSHORT t) true) (s.setb (GPTt_STAT_PEV t) true)
  let g1 := gptLoad s t { g with base := 0, from_ := e }
  bif s.get (GPTt_CTL_MODE t) == 1 then
    let g2 := { g1 with ch0 := { g1.ch0 with widthFrom := none }, ch1 := { g1.ch1 with widthFrom := none } }
    ((s1.setb (GPTt_CTL_RUN t) false).wr (Reg.GPTt_CNT t) 0).putGpt t g2
  else gptClearLatches (s1.putGpt t g1) t

/-- A compare value at or below the count produces no event in this period; the count becomes 0 only at its end (R196, R197). -/
def passedBy (v c : Nat) : Bool := v != 0 && Nat.ble v c

/-- RUN is set: counting goes on from the count that CNT holds. -/
def gptRun (s : State) (t : Nat) : State :=
  let c := s.get (GPTt_CNT_CNT t)
  let g := s.gpt t
  let g1 := { g with base := c, from_ := s.now, shortAt := none }
  (s.setb (GPTt_CTL_RUN t) true).putGpt t
    { g1 with ch0 := { g1.ch0 with fired := passedBy g1.ch0.cmp c }, ch1 := { g1.ch1 with fired := passedBy g1.ch1.cmp c } }

/-- RUN is cleared: the count stands, and a measurement in progress is abandoned (R200). -/
def gptStop (s : State) (t : Nat) : State :=
  let g := s.gpt t
  (s.wrn (Reg.GPTt_CNT t) (gptCount s t) |>.setb (GPTt_CTL_RUN t) false).putGpt t
    { g with ch0 := { g.ch0 with widthFrom := none, zeroDue := false }, ch1 := { g.ch1 with widthFrom := none, zeroDue := false }, shortAt := none }

/-- BREW of timer `t`: the count becomes 0, the prescaler restarts, the shadows load, RUN sets, a measurement in progress is
abandoned (R202). -/
def gptBrew (s : State) (t : Nat) : State :=
  let g := gptLoad s t { s.gpt t with base := 0, from_ := s.now }
  (s.setb (GPTt_CTL_RUN t) true).putGpt t
    { g with
      ch0 := { g.ch0 with widthFrom := none, zeroDue := g.ch0.cmp == 0 && s.get (GPTt_CCFG_MODE t 0) == 1 }
      ch1 := { g.ch1 with widthFrom := none, zeroDue := g.ch1.cmp == 0 && s.get (GPTt_CCFG_MODE t 1) == 1 } }

/-- BREW of every timer whose bit is set in `mask` (R202). -/
def gptBrewMask (mask : Nat) (s : State) : State := upTo 32 (fun t u => whenS (bitAt mask t) (fun v => gptClearLatches (gptBrew v t) t) u) s

/-- Push `v` into the capture queue of channel `x`, or drop it; either sets EVT (R199, R201). -/
def gptPush (s : State) (t x : Nat) (v : Word) : State :=
  let g := s.gpt t
  let c := g.chan x
  let s1 := s.setb (GPTt_CSTAT_EVT t x) true
  bif Nat.blt c.queue.length 4 then s1.putGpt t (g.putChan x { c with queue := c.queue ++ [v] })
  else
    let n := s.get (GPTt_CSTAT_DROP t x)
    let fresh : GptDrop := ⟨s.now, v, s.flag (GPTt_CSTAT_OVR t x), n⟩
    let late := match c.lateDrop with
      | some d => bif d.tb == s.now then { d with ovr := true, count := n } else fresh
      | none => fresh
    ((s1.putGpt t (g.putChan x { c with lateDrop := some late })).setb (GPTt_CSTAT_OVR t x) true).tally (GPTt_CSTAT_DROP t x)

/-- Ticks of timer `t` up to TB `at_`, counted from an origin that its periods keep. -/
def gptTicks (s : State) (t at_ : Nat) : Nat :=
  let p := gptStep s t
  (at_ + p - (s.gpt t).from_ % p) / p

/-- The opposite edge of a WIDTH measurement, or its saturation: its length enters the queue (R197, R200). -/
def gptWidthEnd (s : State) (t x start : Nat) : State :=
  let g := s.gpt t
  let s1 := s.putGpt t (g.putChan x { g.chan x with widthFrom := none })
  let n := gptTicks s t s.now - gptTicks s t start
  bif Nat.blt n 0xFFFFFFFF then gptPush s1 t x (BitVec.ofNat 32 n)
  else gptPush (s1.setb (GPTt_CSTAT_SAT t x) true) t x 0xFFFFFFFF

/-- An edge of source `src` reaches channel `x` of timer `t` (R197, R198). -/
def gptEdge (s : State) (src : Nat) (rising : Bool) (t x : Nat) : State :=
  bif s.get (GPTt_CCFG_SRC t x) != src then s
  else
    let edge := s.get (GPTt_CCFG_EDGE t x)
    let hit := edge == 2 || (edge == 0) == rising
    match s.get (GPTt_CCFG_MODE t x) with
    | 2 => bif hit then gptPush s t x (BitVec.ofNat 32 (gptCount s t)) else s
    | 3 =>
      let g := s.gpt t
      match (g.chan x).widthFrom with
      | some st => bif hit then s else gptWidthEnd s t x st
      | none =>
        bif hit && s.flag (GPTt_CTL_RUN t) then s.putGpt t (g.putChan x { g.chan x with widthFrom := some s.now }) else s
    | _ => s

/-- An edge of source `src` (0 to 15 TI, 16 to 63 CMP) is offered to every channel (R198). -/
def gptCapture (src : Nat) (rising : Bool) (s : State) : State :=
  upTo 32 (fun t u => gptEdge (gptEdge u src rising t 0) src rising t 1) s

/-- A WIDTH measurement of channel `x` has reached 0xFFFF_FFFF ticks (R200). -/
def gptSaturate (s : State) (t x : Nat) : State :=
  match ((s.gpt t).chan x).widthFrom with
  | some st => bif Nat.ble 0xFFFFFFFF (gptTicks s t s.now - gptTicks s t st) then gptWidthEnd s t x st else s
  | none => s

/-- A refused write of a timer register: ERRINFO.PARAM with the timer's number (R195). -/
def gptRefuse (s : State) (t : Nat) : State := (s.setb GPT_ERRINFO_PARAM true).set GPT_ERRINFO_TMR t

/-- A write of PER or CMPx that takes effect: to the shadow, or at once with IMM = 1 (R195, R196). -/
def gptWriteShadow (s : State) (t : Nat) (r : GptImm) (val : Word) : State :=
  let v := val.toNat
  let imm := s.flag (GPTt_CTL_IMM t)
  let g := s.gpt t
  let c := gptCount s t
  let run := s.flag (GPTt_CTL_RUN t)
  match r with
  | .per =>
    bif v == 0 then gptRefuse s t
    else
      let s1 := s.wr (Reg.GPTt_PER t) val
      bif !imm then s1
      else bif run && Nat.ble v c then
        s1.putGpt t { g with per := v, shortAt := some (g.from_ + ((s.now - g.from_) / gptStep s t + 1) * gptStep s t) }
      else s1.putGpt t { g with per := v }
  | .cmp0 =>
    let s1 := s.wr (Reg.GPTt_CMP t 0) val
    bif imm then s1.putGpt t { g with ch0 := { g.ch0 with cmp := v, fired := passedBy v c } } else s1
  | .cmp1 =>
    let s1 := s.wr (Reg.GPTt_CMP t 1) val
    bif imm then s1.putGpt t { g with ch1 := { g.ch1 with cmp := v, fired := passedBy v c } } else s1

/-- A read of CAPx: the head entry leaves the queue; an empty queue reads 0. A pop precedes a push, so that a value which the full queue
dropped in this tk is stored after all, and its overflow undone (R199). -/
def gptCapPop (s : State) (t x : Nat) : Word × State :=
  let g := s.gpt t
  let c := g.chan x
  match c.queue with
  | [] => (0, s)
  | v :: rest =>
    match c.lateDrop.filter fun d => d.tb == s.now with
    | none => (v, s.putGpt t (g.putChan x { c with queue := rest }))
    | some d => (v, ((s.putGpt t (g.putChan x { c with queue := rest ++ [d.val], lateDrop := none })).setb (GPTt_CSTAT_OVR t x) d.ovr).set
        (GPTt_CSTAT_DROP t x) d.count)

/-- A ring start waits: BREW writes to the ring are refused (R204). -/
def ringBrewPending (s : State) : Bool := s.ring.starts.any fun r => r.kind == 0

/-- A BREW write with RING = 1: TBS is four frames after the first boundary at or after now (R203, R204). -/
def gptRingBrew (s : State) : State :=
  bif !s.counts.carafe then s.setb GPT_ERRINFO_PARAM true
  else bif ringBrewPending s then s.setb GPT_BSTAT_RBBUSY true
  else
    let tbs := (s.now + 127) / 128 * 128 + 512
    { s with ring := { s.ring with starts := s.ring.starts ++ [{ kind := 0, target := 0, tbs := tbs, own := true, job := 0 }] } }

/-- A write of GPT.BREW: local, or to the ring with BREWC.RING = 1 (R202, R203). -/
def gptBrewWrite (mask : Word) (s : State) : State :=
  bif s.flag GPT_BREWC_RING then gptRingBrew s else gptBrewMask mask.toNat s

end Sys2Proof.Machine
end

