-- ==== Sys2Proof/Machine/Cmp.lean ====
section
/-! DEFINITION. The comparators CMP0 to CMP47: thresholds and their owners, resolution, latch and routing, window pairs
(R219 to R225). -/

namespace Sys2Proof.Machine

open Fields

/-- The thresholds of CMPn are driven by a VR front end (R52). -/
def cmpVr (s : State) (n : Nat) : Bool :=
  Nat.blt n 4 && s.get (TI_CFG_MODE n) == 1 && Nat.blt (s.get CPR_PWRSTAT_STATE) 3

/-- The thresholds of CMPn are driven by a regulation loop (R149, R219). -/
def cmpLoop (s : State) (n : Nat) : Bool :=
  Nat.ble 4 n && Nat.blt n 28 && s.flag (CRL_CFG_EN ((n - 4) / 2)) && Nat.blt (s.get CPR_PWRSTAT_STATE) 3

/-- STAT.OWNED: the thresholds are driven by a front end or a loop (R219). -/
def cmpOwned (s : State) (n : Nat) : Bool := cmpVr s n || cmpLoop s n

/-- The THR of a front end that drives CMPn, or that has left CMPn with its last thresholds (R52, R54); while the angle domain is off,
software's are in force (R400). -/
def cmpThr (s : State) (n : Nat) : Option Nat := bif cmpVr s n then some (s.get (TI_VRSTAT_THR n))
  else bif Nat.blt (s.get CPR_PWRSTAT_STATE) 3 then (s.cmp n).kept else none

/-- The upper threshold in force (R52, R219). -/
def cmpHigh (s : State) (n : Nat) : Nat :=
  match cmpThr s n with
  | some t => t
  | none => bif cmpLoop s n then (s.cmp n).code else s.get (CMP_THR_THRH n)

/-- The lower threshold in force (R52, R219). -/
def cmpLow (s : State) (n : Nat) : Nat :=
  match cmpThr s n with
  | some t => t / 2
  | none => bif cmpLoop s n then (s.cmp n).code - s.get (CMP_CFG_HYS n) else s.get (CMP_THR_THRL n)

/-- The comparator is present: those of absent loops are not (R3, R4). -/
def cmpPresent (s : State) (n : Nat) : Bool :=
  !(Nat.ble 4 n && Nat.blt n 28) || s.hasLoop ((n - 4) / 2)

/-- The comparator is powered and resolves its input (R149, R225). -/
def cmpPowered (s : State) (n : Nat) : Bool :=
  cmpPresent s n && (s.flag (CMP_CFG_EN n) || cmpLoop s n) &&
    (Nat.blt (s.get CPR_PWRSTAT_STATE) 3 || s.flag (CMP_CFG_AON n))

/-- A sleeping device starts its exit, unless one runs already (R399). -/
def exitStart (s : State) : State :=
  bif s.power.exiting then s else { s with power := { s.power with exiting := true, wakeTb := s.time } }

/-- The AONCLK period that a time lies in (R394; DESIGN CHOICE, log 78: the phase of AONCLK, one of whose periods starts at time 0). -/
def aonPeriod (t : Nat) : Nat := t * 32768 / 200000000

/-- A wake request of source bit `b` reaches CPR, where it is enabled (R399, R401): a sleeping device starts its exit, which records the
requests of its first AONCLK period, and an entry in progress is abandoned. -/
def requestWake (b : Nat) (s : State) : State :=
  bif !bitAt (s.get CPR_PWRCTL_WAKEEN) b then s
  else bif s.get CPR_PWRSTAT_STATE != 0 then
    let t := exitStart s
    bif aonPeriod t.power.wakeTb == aonPeriod t.time then
      { t with power := { t.power with wakes := BitVec.ofNat 5 (t.power.wakes.toNat ||| 2 ^ b) } }
    else t
  else bif s.power.entering.isSome then
    ({ s with power := { s.power with entering := none } }.set CPR_PWRSTAT_ABORT 6).pulse 247
  else s

/-- The window pair of comparator `n` follows OUT and WCFG.EN: a change of IN sets ENTER or EXIT, a first resolution sets neither
(R224). DEDUCED: with EN = 0 IN reads 0, and a change that EN brings about is a change of IN (log 70). -/
def windowUpdate (n : Nat) (first : Bool) (s : State) : State :=
  bif Nat.blt n 28 then s
  else
    let w := (n - 28) / 2
    let inn := s.flag (CMP_WCFG_EN w) && s.flag (CMP_STAT_OUT (28 + 2 * w)) && !s.flag (CMP_STAT_OUT (29 + 2 * w))
    let old := s.flag (CMP_WSTAT_IN w)
    let s1 := s.setb (CMP_WSTAT_IN w) inn
    bif first || inn == old then s1
    else bif inn then s1.setb (CMP_WSTAT_ENTER w) true else s1.setb (CMP_WSTAT_EXIT w) true

/-- An edge of OUT that CFG.EDGE selects is on its way to the latch: 2 tk of synchronisation and 1 tk to latch (R222). -/
def cmpEdge (n : Nat) (rising : Bool) (s : State) : State :=
  let e := s.get (CMP_CFG_EDGE n)
  bif !(e == 2 || (e == 0) == rising) then s
  else s.putCmp n { s.cmp n with edges := (s.cmp n).edges ++ [(s.time + 3, rising)] }

/-- A selected edge of OUT reaches the latch: it sets its bit and is routed, or finds the bit set and counts in ELOST
(R222, R223). -/
def cmpLatch (n : Nat) (rising : Bool) (s : State) : State :=
  let f := bif rising then CMP_LAT_RISE n else CMP_LAT_FALL n
  bif s.flag f then s.tally (CMP_STAT_ELOST n)
  else
    let s1 := inAngle (s.setb f true) (gptCapture (16 + n) rising)
    whenS (s1.flag (CMP_CFG_WAKE n)) (requestWake 0) s1

/-- The edges of CMPn that are due reach its latch (R222). -/
def cmpLatchDue (n : Nat) (s : State) : State :=
  let c := s.cmp n
  let due := c.edges.filter fun e => Nat.ble e.1 s.time
  bif due.isEmpty then s
  else due.foldl (fun u e => cmpLatch n e.2 u) (s.putCmp n { c with edges := c.edges.filter fun e => Nat.blt s.time e.1 })

/-- The edges of all comparators that are due reach their latches (R222). -/
def cmpLatchesDue (s : State) : State := s.cmps.foldl (fun u p => cmpLatchDue p.1 u) s

/-- A genuine crossing of the arming comparator: it counts in PRIME, or arms in RUN (R54). -/
def vrCrossing (s : State) (n : Nat) (risingTHR : Bool) : State :=
  match s.get (TI_VRSTAT_STATE n) with
  | 1 =>
    bif s.get (TI_VRSTAT_PCNT n) == 0 then s.set (TI_VRSTAT_PCNT n) 1
    else
      let s1 := (s.set (TI_VRSTAT_PCNT n) 2).set (TI_VRSTAT_STATE n) 2
      s1.putInp n { s1.inp n with armed := false }
  | 2 => bif risingTHR then s.putInp n { s.inp n with armed := true } else s
  | _ => s

/-- OUT, INBAND and the edges of CMPn follow its input against the thresholds in force; a genuine crossing is seen by the VR front end
that the comparator arms (R54, R219 to R221). -/
def cmpJudge (n : Nat) (s : State) : State :=
  bif !cmpPowered s n then s
  else
    let c := s.cmp n
    let above := decide (c.input > (cmpHigh s n : Int))
    let below := decide (c.input < (cmpLow s n : Int))
    let old := s.flag (CMP_STAT_OUT n)
    bif c.fresh then
      let s1 := s.putCmp n { c with fresh := false }
      let s2 := bif above || below then (s1.setb (CMP_STAT_OUT n) above).setb (CMP_STAT_INBAND n) false
        else (s1.setb (CMP_STAT_OUT n) (s.flag (CMP_CFG_PUS n))).setb (CMP_STAT_INBAND n) true
      s2
    else
      let out := bif above then true else bif below then false else old
      let genuine := out != old || (s.flag (CMP_STAT_INBAND n) && (above || below))
      let s1 := whenS (above || below) (·.setb (CMP_STAT_INBAND n) false) s
      let s2 := whenS (genuine && cmpVr s n) (vrCrossing · n above) s1
      bif out == old then s2 else cmpEdge n out (s2.setb (CMP_STAT_OUT n) out)

/-- CMPn resolves, and its window pair follows (R219 to R221, R224). -/
def cmpResolve (n : Nat) (s : State) : State :=
  bif !cmpPowered s n then s else windowUpdate n (s.cmp n).fresh (cmpJudge n s)

/-- The comparators that watch the input of CMPn: the two of a loop its current sense, those of window pairs the pin that SRC names
(R149, R219). -/
def cmpShared (s : State) (n : Nat) : List Nat :=
  bif Nat.blt n 4 then [n]
  else bif Nat.blt n 28 then [n / 2 * 2, n / 2 * 2 + 1]
  else ((List.range 20).map (28 + ·)).filter fun m => s.get (CMP_WCFG_SRC ((m - 28) / 2)) == s.get (CMP_WCFG_SRC ((n - 28) / 2))

/-- The first resolution of a comparator of the window pair of CMPn is still to come (R221). -/
def windowFresh (s : State) (n : Nat) : Bool :=
  (cmpPowered s (n / 2 * 2) && (s.cmp (n / 2 * 2)).fresh) || (cmpPowered s (n / 2 * 2 + 1) && (s.cmp (n / 2 * 2 + 1)).fresh)

/-- The comparators that watch the input of CMPn have this input from now on. -/
def cmpWatch (n : Nat) (input : Int) (s : State) : State :=
  (cmpShared s n).foldl (fun u m => u.putCmp m { u.cmp m with input := input }) s

/-- The input of CMPn takes a new value: every comparator that watches it resolves, and then the window pairs follow (R149, R219,
R224). -/
def cmpInput (n : Nat) (input : Int) (s : State) : State :=
  let ms := cmpShared s n
  ms.foldl (fun u m => windowUpdate m (windowFresh s m) u) (ms.foldl (fun u m => cmpJudge m u) (cmpWatch n input s))

/-- The thresholds of a comparator that the angle domain drove, or had left, pass back to software (R219, R220, R400). `was` is the state
before the domain let go. -/
def cmpBack (was : State) (n : Nat) (s : State) : State :=
  bif cmpOwned was n || (was.cmp n).kept.isSome then cmpResolve n (s.putCmp n { s.cmp n with kept := none }) else s

/-- The thresholds that the angle domain drove pass back to software (R220, R400). -/
def cmpsBack (was s : State) : State := upTo 28 (cmpBack was) s

/-- The comparator resolves for the first time: it is enabled, powered again, or taken over by a loop (R221). -/
def cmpFirst (n : Nat) (s : State) : State := cmpResolve n (s.putCmp n { s.cmp n with fresh := true })

/-- Whether a threshold word is allowed: THRL ≤ THRH, and codes of CMP0 to CMP3 up to 255 (R219). -/
def thrOk (n : Nat) (v : Word) : Bool :=
  let h := bitsAt v.toNat 16 10
  let l := bitsAt v.toNat 0 10
  Nat.ble l h && (Nat.ble 4 n || Nat.ble h 255)

/-- A write of CMPn.THR: stored, and used unless an owner drives the thresholds (R219, R220). -/
def cmpThrWrite (n : Nat) (v : Word) (s : State) : State :=
  bif !cmpPresent s n then s
  else bif !thrOk n v then s.setb CMP_ERRINFO_PARAM true
  else
    let s1 := (s.set (CMP_THR_THRH n) (bitsAt v.toNat 16 10)).set (CMP_THR_THRL n) (bitsAt v.toNat 0 10)
    bif cmpOwned s n then s1 else cmpResolve n (s1.putCmp n { s1.cmp n with kept := none })

/-- CMPn.CFG.EN is set, with the input at code `input` (R221). -/
def cmpEnable (n : Nat) (input : Int) (s : State) : State :=
  bif !cmpPresent s n || s.flag (CMP_CFG_EN n) then s
  else
    let s1 := cmpInput n input s
    bif cmpLoop s n then s1.setb (CMP_CFG_EN n) true else cmpFirst n (s1.setb (CMP_CFG_EN n) true)

/-- A comparator input takes the value `input`, in codes; one that a VR front end uses also shows it to the front end (R53, R54, R219). -/
def cmpCross (n : Nat) (input : Int) (s : State) : State := cmpInput n input (whenS (cmpVr s n) (vrSignal n input) s)

/-- A genuine crossing of the arming comparator of VR input `n` (R54): of a comparator that resolves its input, OUT follows (R219); the
same crossing is not taken twice. A rising one shows that the signal stands above THR, so that the timing comparator has re-armed where
ZHYS does not lie higher (R53). -/
def vrGenuine (n : Nat) (rising : Bool) (s : State) : State :=
  let s1 := whenS (rising && !(s.inp n).rearmed && !s.flag (TI_VRCFG_INV n) &&
    Nat.ble (s.get (TI_VRCFG_ZHYS n)) (2 * s.get (TI_VRSTAT_THR n))) (vrRearm · n) s
  bif !(cmpPowered s n && cmpVr s n) then vrCrossing s1 n rising
  else
    let c := s1.cmp n
    let s2 := bif c.fresh then (s1.putCmp n { c with fresh := false }).setb (CMP_STAT_OUT n) (!rising) else s1
    bif s2.flag (CMP_STAT_OUT n) == rising && !s2.flag (CMP_STAT_INBAND n) then s2
    else cmpInput n (bif rising then cmpHigh s2 n + 1 else (cmpLow s2 n : Int) - 1) s2

/-- A genuine crossing of the arming comparator (R54). -/
def execVrGenuineCrossing (n : Fin 4) (risingTHR : Bool) (s : State) : Host.Outcome State Fault Refusal :=
  done (inAngle s (vrGenuine n risingTHR))

/-- A write of CMPn.THR (R220). -/
def execThresholdWrite (n : Fin 48) (val : Word) (s : State) : Host.Outcome State Fault Refusal := done (cmpThrWrite n val s)

/-- CMPn.CFG.EN is set (R221). -/
def execComparatorEnable (n : Fin 48) (input : Int) (s : State) : Host.Outcome State Fault Refusal :=
  done (cmpEnable n input s)

end Sys2Proof.Machine
end

