-- ==== Sys2Proof/Machine/Inputs.lean ====
section
/-! DEFINITION. The timed inputs TI0 to TI15: filter, fixed blanking, capture queues, VR front ends, quadrature and
direction-coded sensors (R45 to R61). -/

namespace Sys2Proof.Machine

open Fields

/-- The level at the pin changes (R48). For a VR input the pin is the swing that re-arms its timing comparator: past ZHYS on the side away
from the timed crossing it re-arms; the timed crossing itself is VR_ZERO_CROSSING (R53). -/
def pinEdge (s : State) (n : Nat) (level : Bool) : State :=
  bif s.get (TI_CFG_MODE n) == 1 && Nat.blt n 4 then
    bif filterRuns s n && !(s.inp n).rearmed && level == !s.flag (TI_VRCFG_INV n) then vrRearm s n else s
  else bif !filterRuns s n then s.putInp n { s.inp n with pin := level, pinTb := s.now }
  else bif level == (s.inp n).pin then s
  else pinLevel s n level

/-- The filtered level of input `n` at an edge with timestamp `ts` of another input: an edge of the same tk is seen at its
new level, a later one not yet (R58). -/
def levelAt (s : State) (n ts : Nat) : Bool :=
  let i := filterAt s n (s.now + 1)
  let base := match i.hist.getLast? with
    | some p => !p.2
    | none => s.flag (TI_STAT_LVL n)
  (i.hist.reverse ++ i.passed).foldl (fun l p => bif Nat.ble p.1 ts then p.2 else l) base

/-- Store an entry in the capture queue of input `n`, or drop it (R60, R61). -/
def capPush (s : State) (n : Nat) (e : CapEntry) : State :=
  let i := s.inp n
  bif Nat.blt i.queue.length 4 then
    let e1 := { e with ovrb := i.dropped }
    s.putInp n { i with queue := i.queue ++ [e1], stored := some e1, dropped := false }
  else
    let late : LateDrop := match i.lateDrop with
      | some d => bif d.tb == s.now then { d with more := d.more + 1 }
          else ⟨s.now, e, i.dropped, s.flag (CAP_STAT_OVR n), s.get (CAP_STAT_DROP n), 0⟩
      | none => ⟨s.now, e, i.dropped, s.flag (CAP_STAT_OVR n), s.get (CAP_STAT_DROP n), 0⟩
    ((s.setb (CAP_STAT_OVR n) true).tally (CAP_STAT_DROP n)).putInp n { i with dropped := true, lateDrop := some late }

/-- The queue of input `n` has been popped: a pop precedes a push, so that a capture which the full queue dropped in this tk is stored
after all, and its overflow undone (R61). -/
def capPopped (n : Nat) (s : State) : State :=
  let i := s.inp n
  match i.lateDrop with
  | none => s
  | some d =>
    bif d.tb != s.now then s
    else
      let e := { d.entry with ovrb := d.dropped }
      let s1 := s.putInp n { i with queue := i.queue ++ [e], stored := some e, dropped := d.more != 0, lateDrop := none }
      (s1.setb (CAP_STAT_OVR n) (d.ovr || d.more != 0)).set (CAP_STAT_DROP n) (min (2 ^ (CAP_STAT_DROP n).width - 1) (d.count + d.more))

/-- The INDEX tag of an entry of input `n` with timestamp `ts` (R58). -/
def indexTag (s : State) (n ts : Nat) : Bool :=
  s.flag (TI_CFG_IDXEN n) && levelAt s (s.get (TI_CFG_IDXSRC n)) ts

/-- Fixed blanking (R50): the edge passes, and becomes the reference of the next, or is counted in BLKCNT. -/
def blanked (s : State) (n ts : Nat) : Bool :=
  match (s.inp n).lastPass with
  | some t0 => Nat.blt ts (t0 + s.get (TI_FLT_BLNK (filterOwner s n)))
  | none => false

/-- A DIRPW pulse saturates: its entry is pushed with WSAT = 1 and DIRV = 0 (R59); LEVEL is that after the leading edge, the
only edge so far. -/
def dirpwSaturate (s : State) (n ts : Nat) : State :=
  let i := s.inp n
  capPush (s.putInp n { i with pulseSat := true }) n
    { ts := ts, ovrb := false, index := indexTag s n ts, dir := false, dirv := false, level := s.get (TI_CFG_POL n) == 0,
      wsat := true, width := 0xFFFF }

/-- The trailing edge of a DIRPW pulse at `tt`, its leading edge at `ts` (R59). DEDUCED: LEVEL is the level after the trailing edge,
which pushes the entry, though TS is that of the leading edge (R60, log 66). -/
def dirpwTrailing (s : State) (n ts tt : Nat) (level : Bool) : State :=
  let i := s.inp n
  let s1 := s.putInp n { i with pulse := none, pulseSat := false }
  bif i.pulseSat then s1
  else bif Nat.ble 0xFFFF (tt - ts) then
    let s2 := dirpwSaturate s1 n ts
    s2.putInp n { s2.inp n with pulseSat := false }
  else
    let w := tt - ts
    let rev := Nat.ble (s.get (TI_DWCFG_DWTH n)) w != s.flag (TI_CFG_DIRINV n)
    capPush (s1.setb (TI_STAT_DIRNOW n) rev) n
      { ts := ts, ovrb := false, index := indexTag s n ts, dir := rev, dirv := true, level := level, wsat := false,
        width := BitVec.ofNat 16 w }

/-- A quadrature edge: the Gray-code transition gives the direction, and the entry of a counted edge carries it (R57). `a`
and `b` are the levels after the edge, `onA` says which channel changed. -/
def quadPush (s : State) (n ts : Nat) (a b onA counted : Bool) : State :=
  let fwd := bif onA then a != b else a == b
  let rev := fwd == s.flag (TI_CFG_DIRINV n)
  let s1 := s.setb (TI_STAT_DIRNOW n) rev
  whenS counted (fun t => capPush t n
    { ts := ts, ovrb := false, index := indexTag s n ts, dir := rev, dirv := true, level := bif onA then a else b,
      wsat := false, width := 0 }) s1

/-- What a filtered edge of input `n` pushes, once it has passed blanking (R46, R57, R59). -/
def pushEdge (s : State) (n ts : Nat) (level : Bool) : State :=
  match s.get (TI_CFG_MODE n) with
  | 2 => quadPush s n ts level (levelAt s (n + 1) ts) true (level || s.get (TI_CFG_QX n) != 0)
  | 4 =>
    bif filterOwner s n != n && s.flag (TI_CFG_EN (n - 1)) then
      quadPush s (n - 1) ts (levelAt s (n - 1) ts) level false (s.get (TI_CFG_QX (n - 1)) == 2)
    else s
  | _ =>
    capPush s n { ts := ts, ovrb := false, index := indexTag s n ts, dir := false, dirv := false, level := level, wsat := false,
                  width := 0 }

/-- Whether an edge to `level` is one that the input counts, and so undergoes fixed blanking: the edges that POL selects, all
edges of a QUAD or AUX input, the timed edge of a VR input, and the leading edge of a DIRPW pulse. DEDUCED: R50 blanks what would be
captured, so an edge that POL does not select and the trailing edge of a DIRPW pulse neither fall under the blanking nor restart it
(log 69). -/
def countedEdge (s : State) (n : Nat) (level : Bool) : Bool :=
  match s.get (TI_CFG_MODE n) with
  | 0 => s.get (TI_CFG_POL n) == 2 || (s.get (TI_CFG_POL n) == 0) == level
  | 1 => level == s.flag (TI_VRCFG_INV n)
  | 3 => (s.get (TI_CFG_POL n) == 0) == level
  | _ => true

/-- The oldest edge of input `n` that has passed the filter and whose entry is due in the queue: its TS and level, and the
input without it (R49). -/
def dueEdge (s : State) (n : Nat) : Option (Nat × Bool × Input) :=
  let i := bif (s.inp n).passed.isEmpty then filterAt s n s.now else s.inp n
  match i.passed with
  | (ts, l) :: rest => bif Nat.ble (ts + captureDelay s n) s.now then some (ts, l, { i with passed := rest }) else none
  | [] => none

/-- The input with one more edge in the record that index tags look back on: twice the longest time from an edge to the push of its
entry (R49, R58, R59). -/
def Input.remember (ts : Nat) (level : Bool) (i : Input) : Input :=
  { i with hist := (ts, level) :: i.hist.filter fun p => Nat.ble ts (p.1 + 2 ^ 17) }

/-- The filter passes a new level: blanking, the capture queue and the timers (R49, R50, R60, R198); of an input whose capture is stopped
it passes none (R47). -/
def filteredEdge (s : State) (n : Nat) : State :=
  bif !filterRuns s n then s
  else match dueEdge s n with
  | none => s
  | some (ts, level, i) =>
    let s1 := (s.putInp n (i.remember ts level)).setb (TI_STAT_LVL n) level
    bif !countedEdge s n level then
      let s2 := gptCapture n level s1
      match s.get (TI_CFG_MODE n), i.pulse with
      | 3, some lead => dirpwTrailing s2 n lead ts level
      | _, _ => s2
    else bif blanked s1 n ts then s1.tally (TI_STAT_BLKCNT n)
    else
      let s2 := gptCapture n level (s1.putInp n { s1.inp n with lastPass := some ts })
      bif s.get (TI_CFG_MODE n) == 3 then s2.putInp n { s2.inp n with pulse := some ts, pulseSat := false }
      else pushEdge s2 n ts level

/-- A pulse of a DIRPW input reaches 0xFFFF tk without a trailing edge: its entry is due (R59). -/
def dirpwSaturateDue (s : State) (n : Nat) : State :=
  let i := s.inp n
  match i.pulse with
  | some ts =>
    bif s.get (TI_CFG_MODE n) == 3 && s.flag (TI_CFG_EN n) && !i.pulseSat && Nat.ble (ts + 0xFFFF + captureDelay s n) s.now then
      dirpwSaturate s n ts
    else s
  | none => s

/-- Whether setting EN of input `n` is refused (R46). -/
def inputRefused (s : State) (n : Nat) : Bool :=
  let d := s.get (TI_CFG_DEST n)
  let m := s.get (TI_CFG_MODE n)
  (d != 0 && someBelow 16 fun j => j != n && s.flag (TI_CFG_EN j) && s.get (TI_CFG_DEST j) == d) ||
    (m == 3 && s.get (TI_CFG_POL n) == 2)

/-- A refused write of an input's registers: PARAM of the input, and of the tracker that DEST names (R46). -/
def inputRefuse (s : State) (n : Nat) : State :=
  let d := s.get (TI_CFG_DEST n)
  whenS (Nat.ble 1 d && Nat.ble d 4) (·.setb (AT_ERRINFO_PARAM (d - 1)) true) (s.setb (TI_STAT_PARAM n) true)

/-- A VR front end enters PRIME (R54). DEDUCED: before the first delivered edge VRTO counts from here (log 69). -/
def vrPrime (s : State) (n : Nat) : State :=
  let s1 := s.set (TI_VRSTAT_THR n) (s.get (TI_VRCFG_ARM n)) |>.set (TI_VRSTAT_PCNT n) 0 |>.set (TI_VRSTAT_STATE n) 1
  cmpResolve n (s1.putInp n { s1.inp n with armed := false, peak := 0, rearmed := true, vrFrom := some s.now })

/-- The filter of channel B restarts with the enable of channel A `n`, unless its own EN keeps it running (R47, R57). -/
def quadStart (s : State) (n : Nat) : State :=
  let b := n + 1
  bif s.flag (TI_CFG_EN b) then s
  else (s.setb (TI_STAT_LVL b) (s.inp b).pin).putInp b ((s.inp b).restarted s.now)

/-- The edge inside the filter of channel B is discarded when channel A `n` is disabled (R47, R57). -/
def quadStop (s : State) (n : Nat) : State :=
  let b := n + 1
  bif s.flag (TI_CFG_EN b) then s else s.putInp b { s.inp b with run := none, passed := [] }

/-- EN of input `n` is set: queue, OVR, filter and blanking restart; a VR front end enters PRIME (R46, R47). -/
def inputEnable (s : State) (n : Nat) : State :=
  bif s.flag (TI_CFG_EN n) || s.flag (TI_CFG_LOCK n) then s
  else bif inputRefused s n then inputRefuse s n
  else
    let i0 := { s.inp n with lateDrop := none, timedOut := none }
    let i := bif s.get (TI_CFG_MODE n) == 1 then { i0 with pin := !s.flag (TI_VRCFG_INV n) } else i0
    let s1 := (s.setb (TI_CFG_EN n) true).setb (CAP_STAT_OVR n) false |>.setb (TI_STAT_LVL n) i.pin
    let s2 := s1.putInp n
      { i.restarted s.now with queue := [], stored := none, dropped := false, pulse := none, pulseSat := false }
    bif s.get (TI_CFG_MODE n) == 1 && Nat.blt n 4 then vrPrime s2 n
    else bif s.get (TI_CFG_MODE n) == 2 then quadStart s2 n
    else s2

/-- EN of input `n` is cleared: capture stops, an edge in the filter is discarded, a VR front end goes OFF; the queue keeps
its entries (R47, R54). -/
def inputDisable (s : State) (n : Nat) : State :=
  bif !s.flag (TI_CFG_EN n) || s.flag (TI_CFG_LOCK n) then s
  else
    let s1 := s.setb (TI_CFG_EN n) false
    let s2 := s1.putInp n { s1.inp n with run := none, passed := [], pulse := none, pulseSat := false, vrFrom := none }
    let s3 := whenS (s.get (TI_CFG_MODE n) == 2) (quadStop · n) s2
    bif Nat.blt n 4 then s3.set (TI_VRSTAT_STATE n) 0 else s3

/-- The threshold after a delivered edge with peak `pk` (R55). -/
def vrThreshold (s : State) (n pk : Nat) : Nat :=
  max (max (s.get (TI_VRCFG_THMIN n)) (s.get (TI_VRSTAT_THR n) / 2)) ((pk * s.get (TI_VRCFG_FRAC n) + 8) / 16)

/-- The front end of input `n` as it stands without a timeout of this tk, which an edge delivered in the same tk prevents (R54); `armed`
says that it has armed since. -/
def timeoutBack (n : Nat) (s : State) : State :=
  let i := s.inp n
  match i.timedOut with
  | none => s
  | some u =>
    bif u.tb != s.now then s
    else
      let s1 := (s.wr (Reg.TI_VRSTAT n) u.vrstat).wr (Reg.CMP_STAT n) u.cmpstat
      (s1.putInp n { i with armed := i.armed || u.armed, peak := max i.peak u.peak, timedOut := none }).putCmp n
        { s.cmp n with edges := u.edges }

/-- The signal crosses zero in the timed direction: a timing comparator that has re-armed switches, and an armed front end in RUN delivers
the edge to the filter and updates THR (R53 to R55). `peak` is the highest signal level since the zero crossing before, in steps of
20 mV; what is not delivered stays in the peak memory. -/
def vrZero (s0 : State) (n : Nat) (peak : Nat) : State :=
  let back := timeoutBack n s0
  let s := bif (s0.inp n).rearmed && (back.inp n).armed && back.get (TI_VRSTAT_STATE n) == 2 then back else s0
  let i := s.inp n
  let top := max i.peak peak
  bif !i.rearmed || s.get (TI_VRSTAT_STATE n) == 0 then s.putInp n { i with peak := top }
  else bif !(s.get (TI_VRSTAT_STATE n) == 2 && i.armed) then s.putInp n { i with peak := top, rearmed := false }
  else
    let pk := min top 0xFF
    let s1 := pinLevel ((s.set (TI_VRSTAT_THR n) (vrThreshold s n pk % 256)).set (TI_VRSTAT_PK n) pk) n (s.flag (TI_VRCFG_INV n))
    cmpResolve n (s1.putInp n { s1.inp n with armed := false, rearmed := false, peak := 0, vrFrom := some s.now })

/-- No edge was delivered for VRTO × 4096 tk: THR returns to ARM, the peak memory is cleared, TOUT is set (R54). DEDUCED: the timer
restarts at a delivered edge only, so that one silence gives one timeout (log 69). -/
def vrTimeout (s : State) (n : Nat) : State :=
  let i := s.inp n
  match i.vrFrom with
  | some t0 =>
    bif s.get (TI_VRSTAT_STATE n) == 2 && s.flag (TI_VRTO_VRTO n) && Nat.ble (t0 + s.get (TI_VRTO_VRTO n) * 4096) s.now then
      let undo : VrUndo := { tb := s.now, vrstat := s.rd (Reg.TI_VRSTAT n), cmpstat := s.rd (Reg.CMP_STAT n), armed := i.armed, peak := i.peak,
                             edges := (s.cmp n).edges }
      cmpResolve n
        (((s.set (TI_VRSTAT_THR n) (s.get (TI_VRCFG_ARM n))).setb (TI_VRSTAT_TOUT n) true).putInp n
          { i with vrFrom := none, peak := 0, timedOut := some undo })
    else s
  | none => s

/-- The INFO word of a capture entry (R60). -/
def infoWord (e : CapEntry) : Word :=
  BitVec.ofNat 32 (0x80000000 + e.ovrb.toNat * 0x40000000 + e.index.toNat * 0x20000000 + e.dir.toNat * 0x10000000
    + e.dirv.toNat * 0x8000000 + e.level.toNat * 0x4000000 + e.wsat.toNat * 0x10000 + e.width.toNat)

/-- What a read of CAPn.TSL returns, with the holding copies of TSH and INFO, and the state after it (R60). -/
def capRead (s : State) (n : Nat) : Word × Word × Word × State :=
  let i := s.inp n
  let show_ (e : CapEntry) : Word × Word × Word :=
    (BitVec.ofNat 32 e.ts, BitVec.ofNat 32 (e.ts / 2 ^ 32), infoWord e)
  bif s.get (TI_CFG_DEST n) == 0 then
    match i.queue with
    | [] => (0, 0, 0, s)
    | e :: rest => ((show_ e).1, (show_ e).2.1, (show_ e).2.2, capPopped n (s.putInp n { i with queue := rest }))
  else
    match i.stored with
    | some e => ((show_ e).1, (show_ e).2.1, (show_ e).2.2, s)
    | none => (0, 0, 0, s)

/-- A level change on a TI pin (R48). -/
def execTiPinEdge (n : Fin 16) (level : Bool) (s : State) : Host.Outcome State Fault Refusal := done (inAngle s (pinEdge · n level))

/-- The filter passes a new level (R49). -/
def execFilteredEdge (n : Fin 16) (s : State) : Host.Outcome State Fault Refusal := done (inAngle s (filteredEdge · n))

/-- A DIRPW pulse saturates (R59). -/
def execDirpwWidthSaturate (n : Fin 16) (s : State) : Host.Outcome State Fault Refusal := done (inAngle s (dirpwSaturateDue · n))

/-- TIn.CFG.EN is set (R47). -/
def execInputEnable (n : Fin 16) (s : State) : Host.Outcome State Fault Refusal := done (inAngle s (inputEnable · n))

/-- TIn.CFG.EN is cleared (R47). -/
def execInputDisable (n : Fin 16) (s : State) : Host.Outcome State Fault Refusal := done (inAngle s (inputDisable · n))

/-- The timing comparator crosses zero (R54). -/
def execVrZeroCrossing (n : Fin 4) (peak : BitVec 16) (s : State) : Host.Outcome State Fault Refusal :=
  done (inAngle s (vrZero · n peak.toNat))

/-- VRTO passes with no delivered edge (R54). -/
def execVrTimeout (n : Fin 4) (s : State) : Host.Outcome State Fault Refusal := done (inAngle s (vrTimeout · n))

/-- A WIDTH measurement reaches 0xFFFF_FFFF ticks (R200). -/
def execGptWidthSaturate (t : Fin 32) (x : Fin 2) (s : State) : Host.Outcome State Fault Refusal := done (inAngle s (gptSaturate · t x))

/-- An immediate write of a timer's PER or CMPx (R196). -/
def execGptPerImmediate (t : Fin 32) (reg : GptImm) (val : Word) (s : State) : Host.Outcome State Fault Refusal :=
  done (inAngle s (gptWriteShadow · t reg val))

/-- A write of GPT.BREW with RING = 0 (R202). -/
def execBrewMaskWrite (mask : Word) (s : State) : Host.Outcome State Fault Refusal := done (inAngle s (gptBrewMask mask.toNat))

/-- A write of GPT.BREW with RING = 1 (R203). -/
def execRingBrewWrite (s : State) : Host.Outcome State Fault Refusal := done (inAngle s gptRingBrew)

end Sys2Proof.Machine
end

