-- ==== Sys2Proof/Machine/Wheel.lean ====
section
/-! DEFINITION. Wheels: the tooth table, descriptors, ranges in use, the checks of a wheel, symmetry, corrected angles and gaps
(R32 to R44, R83). -/

namespace Sys2Proof.Machine

open Fields

/-- Address of word 0 of tooth table entry `e` (R36). -/
def toothAddr (e : Nat) : Nat := 0x50040000 + 8 * e

/-- A wheel as a descriptor names it (R39, R83). -/
structure Wheel where
  base : Nat
  cnt : Nat
  span720 : Bool
  ngap : Nat
  deriving DecidableEq, Repr

/-- The wheel of descriptor `d` of tracker `n`. -/
def wheelOf (s : State) (n d : Nat) : Wheel :=
  let w := s.rdn (bif d == 0 then Reg.AT_WDESC0 n else Reg.AT_WDESC1 n)
  { base := bitsAt w 0 13, cnt := bitsAt w 16 13, span720 := bitAt w 31,
    ngap := bitsAt (s.rdn (bif d == 0 then Reg.AT_NGAP0 n else Reg.AT_NGAP1 n)) 0 24 }

/-- The active wheel of tracker `n`. -/
def activeWheel (s : State) (n : Nat) : Wheel := wheelOf s n (s.get (AT_WCFG_ACTSEL n))

/-- The span S of a wheel, in au (R37). -/
def Wheel.span (w : Wheel) : Nat := bif w.span720 then 2 ^ 24 else 2 ^ 23

/-- The cycle length L of tracker `n`, in au (R33). -/
def cycleLen (s : State) (n : Nat) : Nat := bif s.flag (AT_WCFG_CYCLE n) then 2 ^ 23 else 2 ^ 24

/-- Index of entry `i` of a wheel in the tooth table; `i` is taken modulo the count (R67). -/
def Wheel.entry (w : Wheel) (i : Int) : Nat := w.base + (i % (max w.cnt 1 : Nat)).toNat

/-- Word 0 of entry `i` of a wheel. -/
def tooth0 (s : State) (w : Wheel) (i : Int) : Nat := s.rdn (toothAddr (w.entry i))

/-- Word 1 of entry `i` of a wheel. -/
def tooth1 (s : State) (w : Wheel) (i : Int) : Nat := s.rdn (toothAddr (w.entry i) + 4)

/-- ANGLE, GAP, REF, INDEX, CAMPH and RPREV of entry `i` (R36). -/
def toothAngle (s : State) (w : Wheel) (i : Int) : Nat := bitsAt (tooth0 s w i) 0 24
def toothGap (s : State) (w : Wheel) (i : Int) : Bool := bitAt (tooth0 s w i) 24
def toothRef (s : State) (w : Wheel) (i : Int) : Bool := bitAt (tooth0 s w i) 25
def toothIndex (s : State) (w : Wheel) (i : Int) : Bool := bitAt (tooth0 s w i) 26
def toothCam (s : State) (w : Wheel) (i : Int) : Bool := bitAt (tooth0 s w i) 27
def toothRatio (s : State) (w : Wheel) (i : Int) : Nat := bitsAt (tooth1 s w i) 0 16

/-- CORR of entry `i` (R36). -/
def toothCorr (s : State) (w : Wheel) (i : Int) : Int := signedOf 16 (bitsAt (tooth1 s w i) 16 16)

/-- The corrected angle of entry `i` for tracker `n` (R83). -/
def thetaC (s : State) (n : Nat) (w : Wheel) (i : Int) : Int :=
  let corr := bif s.flag (AT_PCFG_CORREN n) && w.ngap != 0 then rnd (toothCorr s w i * w.ngap) 65536 else 0
  let rv := bif s.flag (AT_SSTAT_DIR n) then s.geti (AT_RVOFS_RVOFS n) else 0
  toothAngle s w i + corr + rv

/-- The corrected gap that ends at entry `i`, modulo the span; of a wheel of one entry, the span (R83). -/
def gapC (s : State) (n : Nat) (w : Wheel) (i : Int) : Nat :=
  bif w.cnt == 1 then w.span else ((thetaC s n w i - thetaC s n w (i - 1)) % (w.span : Int)).toNat

/-- The step of the entry index in the direction of rotation. -/
def dirStep (rev : Bool) : Int := bif rev then -1 else 1

/-- The corrected gap from entry `i` to the next entry in the direction of rotation (R83, R95). -/
def gapAhead (s : State) (n : Nat) (w : Wheel) (rev : Bool) (i : Int) : Nat := gapC s n w (bif rev then i else i + 1)

/-- Entry `i` of wheel `w` holds an uncorrectable error (R44). -/
def entryBad (s : State) (w : Wheel) (i : Int) : Bool :=
  s.ecc.contains (toothAddr (w.entry i)) || s.ecc.contains (toothAddr (w.entry i) + 4)

/-- Some entry of wheel `w` holds an uncorrectable error (R44). -/
def wheelBad (s : State) (w : Wheel) : Bool := bif s.ecc.isEmpty then false else someBelow w.cnt fun (i : Nat) => entryBad s w i

/-! ### Ranges and checks -/

/-- Whether a wheel's range is empty or passes the end of the tooth table (R40). -/
def Wheel.badRange (w : Wheel) : Bool := w.cnt == 0 || Nat.ble 8193 (w.base + w.cnt)

/-- Whether two ranges of entries share an entry. -/
def Wheel.overlaps (w v : Wheel) : Bool :=
  w.cnt != 0 && v.cnt != 0 && Nat.blt w.base (v.base + v.cnt) && Nat.blt v.base (w.base + w.cnt)

/-- The ranges that tracker `n` has in use (R40). -/
def rangesInUse (s : State) (n : Nat) : List Wheel :=
  let a := s.get (AT_WCFG_ACTSEL n)
  (bif s.flag (AT_CTL_EN n) then [wheelOf s n a] else []) ++ (bif s.flag (AT_WCFG_SWREQ n) then [wheelOf s n (1 - a)] else [])

/-- Whether the range of descriptor `d` of tracker `n` may not come into use (R40). -/
def rangeRefused (s : State) (n d : Nat) : Bool :=
  let w := wheelOf s n d
  w.badRange || someBelow 4 fun m => m != n && (rangesInUse s m).any w.overlaps

/-- Whether tooth table entry `e` lies inside a range in use (R41). -/
def entryInUse (s : State) (e : Nat) : Bool :=
  someBelow 4 fun n => (rangesInUse s n).any fun w => Nat.ble w.base e && Nat.blt e (w.base + w.cnt)

/-- The expected ratio met in reverse for a forward ratio RPREV (R37, R67). -/
def reverseRatio (r : Nat) : Nat := bif r == 0 then 0xFFFF else min 0xFFFF (rndNat (2 ^ 24) r)

/-- Whether two lists agree pair by pair within ±2^-6 relative of the second (R37). -/
def closeLists : List Nat → List Nat → Bool
  | r :: rs, f :: fs => decide (((r : Int) - f).natAbs * 64 ≤ f) && closeLists rs fs
  | [], [] => true
  | _, _ => false

/-- The symmetry test on a list of forward ratios: some rotation of the reverse sequence matches it (R37). -/
def symmetricList (fwd : List Nat) : Bool :=
  let back := (fwd.reverse).map reverseRatio
  (List.range fwd.length).any fun k => closeLists (back.drop k ++ back.take k) fwd

/-- Whether the wheel of descriptor `d` is symmetric (R37). -/
def wheelSymmetric (s : State) (n d : Nat) : Bool :=
  let w := wheelOf s n d
  w.cnt != 0 && symmetricList ((List.range w.cnt).map fun (i : Nat) => toothRatio s w i)

/-- The first entry of a staged wheel that fails a condition of R38: `prev` and `prev2` are the angles of the entries before
it, `first` that of entry 0, `wrapped` says that the angle has passed zero. DEDUCED: the step from the last entry to entry 0 is one of the
steps from entry to entry, so after a wrap an entry at or past entry 0's angle fails, since a second wrap would follow; and where both gaps
are zero (two entries at one angle) the angles give no ratio, so that Ratios holds there and Order names the later entry (log 69). -/
def checkEntries (s720 : Bool) (cnt span first : Nat) : Nat → Nat → Nat → Bool → List (Word × Word) → Option Nat
  | _, _, _, _, [] => none
  | i, prev, prev2, wrapped, (w0, w1) :: rest =>
    let a := bitsAt w0.toNat 0 24
    let r := bitsAt w1.toNat 0 16
    let wraps := wrapped || (i != 0 && Nat.blt a prev)
    let g (x y : Nat) : Nat := bif cnt == 1 then span else (((x : Int) - y) % (span : Int)).toNat
    let gi := g a prev
    let gp := g prev prev2
    let bad :=
      (bitAt w0.toNat 25 != (i == 0)) || Nat.ble span a ||
      (i != 0 && (a == prev || (wrapped && Nat.blt a prev) || (wraps && Nat.ble first a))) ||
      Nat.blt r 0x100 || Nat.blt 0xF000 r ||
      decide (4096 * gi < ((r * gp : Nat) - (4096 * gi : Nat) : Int).natAbs * 64) ||
      (bitAt w0.toNat 24 != Nat.blt 0x1400 r) || (bitAt w0.toNat 27 && !s720)
    bif bad then some i else checkEntries s720 cnt span first (i + 1) a prev wraps rest

/-- The check of a staged wheel: none when it is valid, else DETAIL (R38). -/
def checkWheel (s720 twoStroke : Bool) (es : List (Word × Word)) : Option Nat :=
  let n := es.length
  bif n == 0 || Nat.blt 4096 n || (s720 && twoStroke) then some 0xFFFF
  else
    let span := bif s720 then 2 ^ 24 else 2 ^ 23
    let ang (i : Nat) : Nat := bitsAt ((es.map (·.1)).getD (i % n) 0).toNat 0 24
    checkEntries s720 n span (ang 0) 0 (ang (n - 1)) (ang (2 * n - 2)) false es

end Sys2Proof.Machine
end

