-- ==== Sys2Proof/Machine/Predict.lean ====
section
/-! DEFINITION. The predictor of a tracker: accumulator, segments, acceleration term, learning, period store
(R34, R83 to R86, R88 to R92, R94 to R101). -/

namespace Sys2Proof.Machine

open Fields

/-! ### States and the accumulator -/

/-- SSTAT.STATE of tracker `n` (R62): 0 NONE, 1 CANDIDATE, 2 CONFIRMING, 3 SYNC360, 4 SYNC720, 5 LOST, 6 STALLED. -/
def syncState (s : State) (n : Nat) : Nat := s.get (AT_SSTAT_STATE n)

/-- NONE, LOST or STALLED: only the finder sees edges (R62, R66). -/
def finding (st : Nat) : Bool := st == 0 || st == 5 || st == 6

/-- SYNC360 or SYNC720. -/
def synced (st : Nat) : Bool := st == 3 || st == 4

/-- CANDIDATE or CONFIRMING. -/
def confirming (st : Nat) : Bool := st == 1 || st == 2

/-- A four-stroke tracker on a 360 °CA wheel (R39, R63). -/
def halfWheel (s : State) (n : Nat) : Bool := !s.flag (AT_WCFG_CYCLE n) && !(activeWheel s n).span720

/-- The modulus of the NCO phase: bit 47 is held at zero on a two-stroke tracker, and on a four-stroke one without cam phase in SYNC360
and, on a 360 °CA wheel, in CANDIDATE and CONFIRMING (R34, R62, R68); in SYNC720 it is kept, whatever wheel a switch has brought
(R77). -/
def phaseMod (s : State) (n : Nat) : Nat :=
  let st := syncState s n
  bif s.flag (AT_WCFG_CYCLE n) || (!s.flag (AT_SSTAT_PHV n) && (st == 3 || (halfWheel s n && confirming st))) then 2 ^ 47 else 2 ^ 48

/-- How far the accumulator moves from `phaseTb` to TB `t` at rate `rate`: a catch-up runs at its factor until it reaches its
target, and nothing passes the halt point (R34, R90, R91). -/
def Tracker.advance (k : Tracker) (rate t : Nat) : Nat :=
  let dt := t - k.phaseTb
  let run := match k.catchup with
    | none => rate * dt
    | some c => min (c.factor * c.rate * dt) (c.lead + (c.rate * (t - c.ts) : Nat)).toNat
  match k.haltAt with
  | none => run
  | some h => min run h

/-- Move the phase by `d` phase units in the direction of rotation. -/
def Tracker.shift (k : Tracker) (rev : Bool) (m d : Nat) : Tracker :=
  { k with
    phase := bif rev then (k.phase + m - d % m) % m else (k.phase + d) % m
    haltAt := k.haltAt.map (· - d)
    togo := k.togo - d
    catchup := k.catchup.map fun c => { c with lead := c.lead - d }
    wraps := bif rev then k.wraps else k.wraps + (k.phase + d) / m
    backWraps := bif rev then k.backWraps + (d - k.phase + m - 1) / m else k.backWraps
    travel := k.travel + d
    camAdv := k.camAdv + d }

/-- The tracker with its phase brought up to TB `t`. -/
def trackerAt (s : State) (n t : Nat) : Tracker :=
  let k := s.trk n
  let d := k.advance (s.get (AT_RATE_RATE n)) t
  { k.shift (s.flag (AT_SSTAT_DIR n)) (phaseMod s n) d with phaseTb := t }

/-- Bring the phase of tracker `n` up to now. -/
def trackerSync (n : Nat) (s : State) : State := s.putTrk n (trackerAt s n s.now)

/-- What tracker `n` publishes now, as a `Follow` (R390). -/
def ownView (s : State) (n : Nat) : Follow :=
  { trk := s.trk n, state := s.get (AT_SSTAT_STATE n), dir := s.get (AT_SSTAT_DIR n), phv := s.get (AT_SSTAT_PHV n),
    guarded := s.get (AT_PSTAT_MODE n), rate := s.get (AT_RATE_RATE n), acc := s.get (AT_ACC_ACC n) }

/-- Tracker `n` publishes `v`. -/
def showView (n : Nat) (v : Follow) (s : State) : State :=
  (s.set (AT_SSTAT_STATE n) v.state |>.set (AT_SSTAT_DIR n) v.dir |>.set (AT_SSTAT_PHV n) v.phv |>.set (AT_PSTAT_MODE n) v.guarded
    |>.set (AT_RATE_RATE n) v.rate |>.set (AT_ACC_ACC n) v.acc).putTrk n v.trk

/-- An operation of tracker `n` on its own input: on a tracker that follows the ring master it acts on the tracking that the
tracker keeps for itself, and what it publishes stays (R390). -/
def ownTracking (n : Nat) (f : State → State) (s : State) : State :=
  match s.ring.follows.find? fun p => p.1 == n with
  | none => f s
  | some p =>
    let t := f (showView n p.2 s)
    showView n (ownView s n) { t with ring := { t.ring with follows := putAt n (ownView t n) t.ring.follows } }

/-- The published angle of tracker `n` at TB `t`: phase bits 47:24 (R34, R35). -/
def angleAt (s : State) (n t : Nat) : Nat := (trackerAt s n t).phase / 2 ^ 24

/-- The published angle of tracker `n` now. -/
def angleOf (s : State) (n : Nat) : Nat := angleAt s n s.now

/-! ### Segments -/

/-- `a / b` rounded half up and saturated at 32 bits; a division by zero saturates (R84, R90). -/
def satDiv (a b : Nat) : Nat := bif b == 0 then 0xFFFFFFFF else min 0xFFFFFFFF (rndNat a b)

/-- The plain speed of a gap of `g` au passed in `p` tk, 8.24, half up and not clipped (R89, R92, R94). -/
def speedOf (g p : Nat) : Nat := rndNat (g * 2 ^ 24) (max p 1)

/-- The forecast acceleration from speed `v` to speed `u` over `p` tk, before it saturates (R89, R92). -/
def accOf (u v p : Nat) : Int := rnd (((u : Int) - v) * 2 ^ 16) (max p 1)

/-- The slot of entry `e` when its phase bit 47 is `upper` (R98). -/
def slotOf (s : State) (n : Nat) (w : Wheel) (e : Int) (upper : Bool) : Nat :=
  let i := (e % (max w.cnt 1 : Nat)).toNat
  bif halfWheel s n && upper then i + w.cnt else i

/-- The profile is usable: its highest slot does not exceed 2047 (R98). -/
def profileUsable (s : State) (n : Nat) (w : Wheel) : Bool :=
  Nat.ble (bif halfWheel s n then 2 * w.cnt else w.cnt) 2048

/-- Address of word 0 of profile slot `i` of tracker `n` (R98). -/
def slotAddr (n i : Nat) : Nat := 0x50004000 + n * 0x10000 + 8 * i

/-- The work term x of a slot, where its cylinder has a valid work value and WREF is not zero (R85). -/
def workTerm (s : State) (n i : Nat) : Option Int :=
  let c := bitsAt (s.rdn (slotAddr n i + 4)) 0 5
  let wref := s.get (AT_WREF_WREF n)
  bif Nat.blt c 24 && bitAt (s.get (AT_WVAL_VALID n)) c && wref != 0 then
    some (clampInt (-65536) 131072 (rnd (s.rdn (Reg.AT_WCYL n c) * 65536 : Nat) wref - 65536))
  else none

/-- A_s and B_s of a slot (R98). -/
def slotA (s : State) (n i : Nat) : Int := signedOf 16 (bitsAt (s.rdn (slotAddr n i)) 16 16)
def slotB (s : State) (n i : Nat) : Int := signedOf 16 (bitsAt (s.rdn (slotAddr n i)) 0 16)

/-- Whether slot `i` holds an uncorrectable error (R98). -/
def slotBad (s : State) (n i : Nat) : Bool := s.ecc.contains (slotAddr n i) || s.ecc.contains (slotAddr n i + 4)

/-- The acceleration term α of slot `i`; a slot with an uncorrectable error gives zero (R85, R98). -/
def alphaOf (s : State) (n i : Nat) : Int :=
  bif slotBad s n i then 0
  else
    let a := bif s.flag (AT_PCFG_ACCEN n) then slotA s n i else 0
    let b := bif s.flag (AT_PCFG_FFEN n) then
        match workTerm s n i with
        | some x => rnd (slotB s n i * x) 65536
        | none => 0
      else 0
    let lim : Int := s.get (AT_FF_ALIM n)
    clampInt (-lim) lim (a + b)

/-- The expected period of a segment: P times the gap ahead over the gap behind, with α in units of 2^-16 (R84). -/
def expectedPeriod (p ahead behind : Nat) (alpha : Int) : Nat :=
  satDiv (p * ahead * (65536 - alpha).toNat) (behind * 65536)

/-- Open a segment at entry `e` with reference time `ts`, period `p` and expected period `phat`: thresholds, spacing limits and
the registers that show them (R84, R86). -/
def openSegment (n e ts p phat : Nat) (plain : Bool) (s : State) : State :=
  let k := s.trk n
  let th (ratio : Nat) : Nat := ceilDiv (ratio * phat) 4096
  (s.set (AT_PEXP_PHAT n) phat).putTrk n
    { k with segK := e, tref := ts, lastP := p, plain := plain, tb := th (s.get (AT_WIN2_BLANK n)),
             tlo := th (s.get (AT_WIN0_WLO n)), thi := th (s.get (AT_WIN0_WHI n)), clo := s.get (AT_WIN1_CLO n),
             chi := s.get (AT_WIN1_CHI n) }

/-- TPER takes the measured period; a saturated one sets PSTAT.SAT (R206). -/
def showPeriod (n p : Nat) (s : State) : State :=
  whenS (Nat.ble 0xFFFFFFFF p) (·.setb (AT_PSTAT_SAT n) true) (s.set (AT_TPER_PER n) (min p 0xFFFFFFFF))

/-- The class of the last entry or tooth (R87). -/
def showClass (n c : Nat) (s : State) : State := s.set (AT_PSTAT_LCLS n) c

/-- ACC is published (R92). -/
def showAcc (n : Nat) (a : Int) (s : State) : State := s.seti (AT_ACC_ACC n) (clampInt (-(2 ^ 31)) (2 ^ 31 - 1) a)

/-- A guarded segment from entry `e` with the angle set to it: after a candidate, where the angle is that of the entry as it stands
in the table, or after a reversal, where it is the entry's angle nearest to the angle now (`keep`) (R68, R73, R84, R95). DEDUCED: a
suspect that is held when a reversal edge arrives is let go without SDISC and SDISCNT, since R87 discards one only by classifying an
entry or a virtual tooth (log 69). -/
def startSegment (n e ts p : Nat) (keep : Bool) (s : State) : State :=
  let w := activeWheel s n
  let rev := s.flag (AT_SSTAT_DIR n)
  let g := gapAhead s n w rev e
  let behind := gapAhead s n w rev (e - dirStep rev)
  let phat := expectedPeriod p g behind 0
  let m := phaseMod s n
  let k := s.trk n
  let span := w.span * 2 ^ 24
  let target := (thetaC s n w e * 2 ^ 24 % (span : Int)).toNat
  let aim := bif keep then (k.phase : Int) + sdiff span k.phase target else target
  let k1 := { k with phase := (aim % (m : Int)).toNat, phaseTb := ts, haltAt := some (g * 2 ^ 24), togo := g * 2 ^ 24,
                     catchup := none, suspect := none }
  let s1 := (s.set (AT_RATE_RATE n) (satDiv (g * 2 ^ 24) phat)).setb (AT_PSTAT_MODE n) true |>.setb (AT_PSTAT_SUSP n) false
    |>.setb (AT_PSTAT_CATCH n) false |>.setb (AT_PSTAT_HALT n) false |> showAcc n 0 |> showPeriod n p
  trackerSync n (openSegment n e ts p phat false (s1.putTrk n k1))

/-! ### Period store (R101) -/

/-- The word of the period store. -/
def storeWord (v l j : Bool) (p : Nat) : Word :=
  BitVec.ofNat 32 (v.toNat * 2 ^ 31 + l.toNat * 2 ^ 30 + j.toNat * 2 ^ 29 + (Nat.ble 0xFFFFFFF p).toNat * 2 ^ 28 + min p 0xFFFFFFF)

/-- Write one word to the tooth period store of tracker `n` for entry `e` (R101). -/
def periodStore (n : Nat) (e : Int) (upper v l j : Bool) (p : Nat) (s : State) : State :=
  bif !(s.flag (AT_PSCFG_EN n) && synced (syncState s n) && !s.flag (AT_PSCFG_FRZ n)) then s
  else
    let base := 0x50050000 + n * 0x4000
    bif s.flag (AT_PSCFG_MODE n) then
      s.wr (base + 4 * (slotOf s n (activeWheel s n) e upper % 4096)) (storeWord v l j p)
    else
      let i := s.get (AT_PSPTR_WPTR n)
      let s1 := s.wr (base + 4 * i) (storeWord v l j p) |>.set (AT_PSPTR_WPTR n) ((i + 1) % 4096)
      whenS (i == 4095) (·.setb (AT_PSPTR_WRAP n) true) s1

/-! ### Learning (R96, R97, R99) -/

/-- CORR learning runs (R96). -/
def learning (s : State) (n : Nat) : Bool :=
  s.get (AT_LCFG_CLRN n) == 1 || (s.get (AT_LCFG_CLRN n) == 2 && s.flag (AT_LCFG_QUIET n))

/-- The accumulation restarts (R96). -/
def learnRestart (n : Nat) (s : State) : State :=
  (s.set (AT_LSTAT_NPASS n) 0).putTrk n
    { s.trk n with sumP := [], sumT := 0, passTs := none, passValid := false, passP := [], passPrev := none }

/-- The learned CORR of each entry from entry `i` on, the measured gaps accumulated in `cum` (16 fraction bits) (R97). -/
def learnCorr (n : Nat) (w : Wheel) (sums : List (Nat × Nat)) (sumT : Nat) : Nat → Nat → Int → State → State
  | 0, _, _, s => s
  | left + 1, i, cum, s =>
    let m := findAt (fun _ => 0) i sums * w.span * 65536 / sumT
    let gn := ((toothAngle s w i : Int) - toothAngle s w ((i : Int) - 1)) % (w.span : Int)
    let cum1 := cum + m - gn * 65536
    let target := clampInt (-32767) 32767 (rnd cum1 w.ngap)
    let old := toothCorr s w i
    let csh := s.get (AT_LCFG_CSH n)
    let half : Int := bif csh == 0 then 0 else 2 ^ (csh - 1)
    let new := old + (target - old + half) / 2 ^ csh
    let a := toothAddr (w.entry i) + 4
    learnCorr n w sums sumT left (i + 1) cum1 (s.wrn a (putBits (s.rdn a) 16 16 (codeOf 16 new)))

/-- The average of 64 passes is complete: CORR is written, AVGCNT counts, the accumulation restarts; what it replaces is kept for a
bus write of CORR later in the same tk (R42, R97). With an uncorrectable error in an entry, all of which it reads, nothing is written
(R44). -/
def learnComplete (n : Nat) (s : State) : State :=
  let w := activeWheel s n
  let k := s.trk n
  let old : Average :=
    { tb := s.now, avgcnt := s.get (AT_LSTAT_AVGCNT n),
      words := (List.range w.cnt).map fun (i : Nat) => (toothAddr (w.entry i) + 4, (tooth1 s w i)) }
  let s1 := bif w.ngap == 0 || k.sumT == 0 || wheelBad s w then s
    else
      let u := learnCorr n w k.sumP k.sumT (w.cnt - 1) 1 0 s
      let a := toothAddr (w.entry 0) + 4
      u.wrn a (putBits (u.rdn a) 16 16 0)
  let s2 := (whenS (!wheelBad s w) (·.tally (AT_LSTAT_AVGCNT n)) s1).set (AT_LSTAT_NPASS n) 0
  s2.putTrk n { s2.trk n with sumP := [], sumT := 0, average := some old }

/-- A bus write of CORR in the tk in which a learned average was written: the bus write stands, every other CORR takes its old
value back, AVGCNT too, and LSTAT.DISC is set (R42, R97). -/
def averageUndo (n : Nat) (s : State) : State :=
  match (s.trk n).average with
  | none => s
  | some a =>
    bif a.tb != s.now then s
    else
      let u := a.words.foldl (fun v p => v.wrn p.1 p.2) s
      ((u.set (AT_LSTAT_AVGCNT n) a.avgcnt).setb (AT_LSTAT_DISC n) true).putTrk n { u.trk n with average := none }

/-- CORR of the active wheel of tracker `n` is about to be written over the bus: the accumulation restarts (R96); an average that has valid
passes is cut short, and one that was written in this tk is discarded (R42, R97). -/
def corrTouched (n : Nat) (s : State) : State :=
  learnRestart n (whenS (s.get (AT_LSTAT_NPASS n) != 0) (·.setb (AT_LSTAT_DISC n) true) (averageUndo n s))

/-- A pass ends at an accepted REF tooth at `ts`: a valid one is added, the 64th completes the average (R96). -/
def passEnd (n ts : Nat) (s : State) : State :=
  let k := s.trk n
  match k.passTs with
  | none => s
  | some t0 =>
    let len := ts - t0
    let steady := match k.passPrev with
      | some p => decide (((len : Int) - p).natAbs * 4096 ≤ s.get (AT_LCFG_STOL n) * p)
      | none => false
    bif !(k.passValid && steady && learning s n) then s.putTrk n { k with passPrev := some len }
    else
      let sums := k.passP.foldl (fun l p => putAt p.1 ((findAt (fun _ => 0) p.1 l + p.2) % 2 ^ 40) l) k.sumP
      let np := s.get (AT_LSTAT_NPASS n) + 1
      let s1 := s.putTrk n { k with sumP := sums, sumT := k.sumT + len, passPrev := some len }
      bif np == 64 then learnComplete n s1 else s1.set (AT_LSTAT_NPASS n) np

/-- The part of an accepted tooth at entry `e` in CORR learning: `ok` says that its segment meets the conditions of R96. -/
def learnTooth (n : Nat) (w : Wheel) (e ts p : Nat) (ok : Bool) (s : State) : State :=
  let k := s.trk n
  let s1 := s.putTrk n { k with passValid := k.passValid && ok, passP := k.passP ++ [(e, p)] }
  bif toothRef s w e then
    let s2 := passEnd n ts s1
    s2.putTrk n { s2.trk n with passTs := some ts, passValid := true, passP := [] }
  else s1

/-- Profile learning at an accepted tooth at entry `e`, slot `i`, with the period before it (R99). DEDUCED: a slot that holds an
uncorrectable error, whose A and B are not known, is not updated and stays to be rewritten (R98, log 69). -/
def learnProfile (n : Nat) (w : Wheel) (e i p prevP : Nat) (s : State) : State :=
  let behind := gapC s n w (e - 1)
  let own := gapC s n w e
  bif prevP == 0 || own == 0 || (s.trk n).profWrite == some (slotAddr n i, s.now) || slotBad s n i || bitAt (s.rdn (slotAddr n i + 4)) 5 || !profileUsable s n w then s
  else
    let meas : Int := 65536 - rnd (65536 * p * behind : Nat) (prevP * own)
    let x := workTerm s n i
    let model := slotA s n i + (match x with | some v => rnd (slotB s n i * v) 65536 | none => 0)
    let err := meas - model
    let lsh := s.get (AT_LCFG_LSH n)
    let a1 := clampInt (-32767) 32767 (slotA s n i + rnd err (2 ^ (lsh + 4)))
    let b1 := match x with
      | some v => clampInt (-32767) 32767 (slotB s n i + rnd (err * v) (2 ^ (lsh + 20)))
      | none => slotB s n i
    (s.wrn (slotAddr n i) (codeOf 16 a1 * 65536 + codeOf 16 b1)).putTrk n
      { s.trk n with profUpdate := some (s.now, slotAddr n i, s.rdn (slotAddr n i)) }

/-- The bus writes a word of the profile slot at address `a`: an update of that slot in the same tk is discarded (R99). -/
def profileWritten (n a : Nat) (s : State) : State :=
  let slot := a / 8 * 8
  let s1 := match (s.trk n).profUpdate with
    | some (tb, at_, old) => bif tb == s.now && at_ == slot then s.wrn slot old else s
    | none => s
  s1.putTrk n { s1.trk n with profUpdate := none, profWrite := some (slot, s.now) }

/-! ### Accepted and virtual teeth -/

/-- What an accepted tooth needs to know of the segment it closes (R84, R89, R90): its entry, its timestamp, its measured
period, the gap that this period covers, the gaps between the expected entry and the accepted one, whether the plain formula
applies, the ACC of a late acceptance, and the entries accepted. -/
structure Accept where
  e : Nat
  ts : Nat
  p : Nat
  behind : Nat
  extra : Nat
  plain : Bool
  late : Option Int
  count : Nat
  refs : Nat
  deriving DecidableEq, Repr

/-- The mode machine at an accepted tooth with plain speed `v` (R94): true is GUARDED. The rows set no condition on the sync state:
in CANDIDATE and CONFIRMING it is GRCNT that holds GUARDED. -/
def nextMode (s : State) (n v count : Nat) : Bool :=
  let force := s.flag (AT_PCFG_FORCEG n)
  let g := s.get (AT_GSPD_GSPD n)
  let gr := s.flag (AT_PSTAT_GRCNT n)
  bif s.flag (AT_PSTAT_MODE n) then force || gr || Nat.blt v (g + g / 16) || Nat.blt ((s.trk n).sinceRev + count) 2
  else force || gr || Nat.blt v g

/-- The distance in the direction of rotation from the phase of tracker `n` to the corrected angle of entry `e`, the one of its
values a span apart that is nearest to `near` (R90). -/
def distanceTo (s : State) (n : Nat) (w : Wheel) (e near : Int) : Int :=
  near + sdiff (w.span * 2 ^ 24) near (dirStep (s.flag (AT_SSTAT_DIR n)) * (thetaC s n w e * 2 ^ 24 - (s.trk n).phase))

/-- Phase bit 47 at the distance `d` ahead of the phase of tracker `n` (R98). -/
def upperAt (s : State) (n : Nat) (d : Int) : Bool :=
  decide ((2 : Int) ^ 47 ≤ ((s.trk n).phase + dirStep (s.flag (AT_SSTAT_DIR n)) * d) % (phaseMod s n : Int))

/-- The accumulator at an accepted tooth, whose corrected angle lies nearest to `near` ahead: forward correction, rate, halt
point, ACC, and the segment to the next entry in the mode `guarded` (R84, R85, R89 to R92, R94). An early tooth is caught up with
where `catch_` says so, else the angle jumps. Answers whether the tooth corrected the angle forward, whether the floor applied, and
whether the entry lies in the upper half of the cycle. -/
def moveAccumulator (n : Nat) (a : Accept) (near : Int) (catch_ guarded : Bool) (s : State) : State × Bool × Bool × Bool :=
  let w := activeWheel s n
  let rev := s.flag (AT_SSTAT_DIR n)
  let σ := dirStep rev
  let k := s.trk n
  let g1 := gapAhead s n w rev a.e
  let g2 := gapAhead s n w rev (a.e + σ)
  let d := distanceTo s n w a.e near
  let back : Int := (s.get (AT_RATE_RATE n) * (s.now - a.ts) : Nat)
  let early := decide (0 < d + back)
  let base := bif early then d else -back
  let next := d + g1 * 2 ^ 24
  let sp : Int := max (next - base) (g1 * 2 ^ 22 : Nat)
  let slot := slotOf s n w (a.e + σ) (upperAt s n next)
  let useAlpha := !guarded && !a.plain && !rev && syncState s n != 3 && profileUsable s n w
  let alpha := bif useAlpha then alphaOf s n slot else 0
  let s1 := whenS (useAlpha && slotBad s n slot) (fun u => (u.setb (AT_ERRINFO_ECCP n) true).pulse 253) s
  let phat := expectedPeriod a.p g1 a.behind alpha
  let rate := satDiv sp.toNat phat
  let halt := (max 0 (next + (bif guarded then 0 else (g2 * 2 ^ 24 : Int)))).toNat
  let k1 := { k with togo := next, haltAt := some halt, catchup := none }
  let jump := early && !catch_
  let floor := !early && decide (sp = (g1 * 2 ^ 22 : Nat))
  let lead := (max 0 (base + (rate * (s.now - a.ts) : Nat))).toNat
  let k2 := bif jump then k1.shift rev (phaseMod s n) (min lead halt)
    else bif early then
      { k1 with catchup := some { lead := base, ts := a.ts, rate := rate, factor := s.get (AT_PCFG_CATCHK n) } }
    else k1
  let acc : Int := bif guarded || rev then 0
    else match a.late with
      | some x => x
      | none => accOf (speedOf g1 phat) (speedOf a.behind a.p) phat
  let s2 := (s1.putTrk n k2).set (AT_RATE_RATE n) rate |>.setb (AT_PSTAT_MODE n) guarded
    |>.setb (AT_PSTAT_CATCH n) (early && !jump) |>.setb (AT_PSTAT_HALT n) false |> showAcc n acc |> showPeriod n a.p
  let s3 := whenS jump (·.setb (AT_CFLT_JUMP n) true) (whenS floor (·.setb (AT_CFLT_FLOOR n) true) s2)
  (openSegment n a.e a.ts a.p phat false s3, early, floor, upperAt s n d)

/-- An accepted tooth: the guard count, then the mode, then the accumulator and the segment that it opens (R90, R94). Answers as
`moveAccumulator` does. -/
def acceptTooth (n : Nat) (a : Accept) (s0 : State) : State × Bool × Bool × Bool :=
  let s := trackerSync n s0
  let catch_ := s.flag (AT_PSTAT_MODE n) && s.flag (AT_PCFG_GCORR n)
  let near := (s.trk n).togo + (a.extra * 2 ^ 24 : Nat)
  let s1 := whenS (synced (syncState s n)) (fun u => u.set (AT_PSTAT_GRCNT n) (u.get (AT_PSTAT_GRCNT n) - a.refs)) s
  moveAccumulator n a near catch_ (nextMode s1 n (speedOf a.behind a.p) a.count) s1

/-- The segment under way begins at entry `e` of the wheel that has just become active, which lies nearest to `near` ahead: it is
opened again from that wheel's angles, gaps and profile, in the mode selected at its tooth `a` (R43, R77). -/
def reopenSegment (n e : Nat) (near : Int) (a : Accept) (s : State) : State :=
  let rev := s.flag (AT_SSTAT_DIR n)
  let b := { a with e := e, behind := gapAhead s n (activeWheel s n) rev (e - dirStep rev) }
  (moveAccumulator n b near (s.trk n).catchup.isSome (s.flag (AT_PSTAT_MODE n)) s).1

/-- A virtual tooth takes the next entry at its predicted arrival: the phase is not written; the rate and the halt point are, from
the corrected angles as they stand now; ACC is 0 (R83, R88). Answers the entry, its expected period, and whether it lies in the
upper half of the cycle. -/
def virtualTooth (n : Nat) (s0 : State) : State × Nat × Nat × Bool :=
  let s := trackerSync n s0
  let w := activeWheel s n
  let rev := s.flag (AT_SSTAT_DIR n)
  let σ := dirStep rev
  let k := s.trk n
  let e := ((k.segK + σ) % (max w.cnt 1 : Nat)).toNat
  let phat := s.get (AT_PEXP_PHAT n)
  let tv := k.tref + phat
  let g1 := gapAhead s n w rev k.segK
  let g2 := gapAhead s n w rev e
  let g3 := gapAhead s n w rev (e + σ)
  let phat2 := satDiv (phat * g2) g1
  let d := distanceTo s n w e k.togo
  let next := distanceTo s n w (e + σ) (d + (g2 * 2 ^ 24 : Nat))
  let sp : Int := max next (g2 * 2 ^ 22 : Nat)
  let rate := satDiv sp.toNat (max (tv + phat2 - s.now) 1)
  let s1 := s.putTrk n { k with togo := next, haltAt := some (max (0 : Int) (next + (g3 * 2 ^ 24 : Nat))).toNat, catchup := none }
  let s2 := (s1.set (AT_RATE_RATE n) rate).setb (AT_CFLT_VIRT n) true |>.tally (AT_CCNT0_VIRTCNT n) |>.setb (AT_PSTAT_HALT n) false
    |>.setb (AT_PSTAT_CATCH n) false |> showAcc n 0 |> showClass n 5
  (openSegment n e tv phat phat2 true s2, e, phat, upperAt s n d)

end Sys2Proof.Machine
end

