-- ==== Sys2Proof/Machine/Windows.lean ====
section
/-! DEFINITION. The discard of open pressure windows (R175), which a tracker's loss of SYNC720 or reversal also causes. -/

namespace Sys2Proof.Machine

open Fields

/-- Every open window is discarded with no record: ABNCNT counts each, and their conversions are dropped (R175). -/
def windowsDiscard (s : State) : State :=
  let s1 := s.padc.windows.foldl (fun u _ => u.tally PADC_STAT_ABNCNT) s
  { s1 with padc := { s1.padc with windows := [], lastMark := none, queue0 := [], queue1 := [], queue2 := [], queue3 := [] } }

/-- The windows paced by tracker `n` are discarded (R175). -/
def windowsLost (n : Nat) (s : State) : State :=
  whenS (s.get PADC_CFG_TRK == n) windowsDiscard s

end Sys2Proof.Machine
end

