-- ==== Sys2Proof/Machine/Sync.lean ====
section
/-! DEFINITION. The tracker as a whole: the finder, confirmation, cam phase, direction, loss, wheel switch, classification of
entries, and the commands on a tracker (R62 to R82, R87, R93, R100, R429, R430). -/

namespace Sys2Proof.Machine

open Fields

/-- Cylinder ages and similar small tables. -/
def natAt (l : List (Nat × Nat)) (i : Nat) : Nat := findAt (fun _ => 0) i l

/-- Change the hidden part of tracker `n`. -/
def State.modTrk (s : State) (n : Nat) (f : Tracker → Tracker) : State := s.putTrk n (f (s.trk n))

/-- The input whose queue tracker `n` takes its edges from (R46). DEDUCED: an input whose EN is cleared names no tracker, so what its
queue still holds waits for the bus and no tracker pops it (R47, R60, log 69). -/
def sourceOf (s : State) (n : Nat) : Option Nat :=
  (List.range 16).find? fun i => s.flag (TI_CFG_EN i) && s.get (TI_CFG_DEST i) == n + 1 && s.get (TI_CFG_MODE i) != 4

/-- The source input of tracker `n` sets IDXEN (R67, R75). -/
def indexChecked (s : State) (n : Nat) : Bool :=
  match sourceOf s n with
  | some i => s.flag (TI_CFG_IDXEN i)
  | none => false

/-- Tracker `n` publishes the master's values, so that its own tracking is hidden (R390). -/
def hidden (s : State) (n : Nat) : Bool := s.ring.follows.any fun p => p.1 == n

/-- STATE or DIR of tracker `n` has changed: SSTAT.CHG, where the change is published (R82, R390). -/
def markChange (n : Nat) (s : State) : State := whenS (!hidden s n) (·.setb (AT_SSTAT_CHG n) true) s

/-- The published tracker `n` has left SYNC720 or reversed: open pressure windows are discarded (R175). -/
def dropWindows (n : Nat) (s : State) : State := whenS (!hidden s n) (windowsLost n) s

/-! ### State changes -/

/-- Tracker `n` takes state `st`; `cause` is written on LOST. The states of the finder hold the angle, clear PHV and ADOPTED
and publish rate 0 (R62, R64, R75, R82, R96); `confirmFail` alone keeps PHV. DEDUCED: R75 names only passing checks and teeth as what
resets the loss counts; they count within one synchronisation, so they start at zero with a candidate, and an adoption, which takes the
tracker on from where it was, keeps them (log 69). -/
def enterState (n st cause : Nat) (s0 : State) : State :=
  let s := trackerSync n s0
  let old := syncState s n
  let s1 := whenS (st != old) (markChange n) (s.set (AT_SSTAT_STATE n) st)
  let s2 := whenS (old == 4 && st != 4) (dropWindows n) (s1.modTrk n fun k => { k with wraps := 0, backWraps := 0 })
  bif finding st then
    let s3 := (s2.setb (AT_SSTAT_PHV n) false).setb (AT_SSTAT_ADOPTED n) false |>.set (AT_RATE_RATE n) 0
      |>.setb (AT_PSTAT_SUSP n) false |>.setb (AT_PSTAT_CATCH n) false |>.setb (AT_PSTAT_HALT n) false |> showAcc n 0
    let s4 := s3.modTrk n fun k =>
      { k with haltAt := none, catchup := none, suspect := none, window := [], adoptLeft := 0, clean := true, lastValid := false, revCount := 0 }
    let s5 := whenS (st != 6) (learnRestart n) s4
    whenS (st == 5) (fun u => (u.set (AT_SSTAT_CAUSE n) cause).tally (AT_SFLT_LOSTCNT n)) s5
  else bif st == 1 then
    s2.modTrk n fun k =>
      { k with confCount := 0, virtCons := 0, virtRev := 0, gapBad := 0, idxBad := 0, camBad := 0, revCount := 0, sinceRev := 2 }
  else bif st == 4 && old != 4 then s2.modTrk n fun k => { k with camAdv := 0 }
  else s2

/-- The finder window begins with entry `e`, or empty (R429, R430). -/
def windowStart (n : Nat) (e : Option CapEntry) (s : State) : State :=
  let dir := s.flag (AT_SSTAT_DIR n)
  s.modTrk n fun k => { k with window := match e with
    | some c => [{ ts := c.ts, index := c.index, dir := bif c.dirv then c.dir else dir }]
    | none => [] }

/-- A confirmation fails: NONE, and the window restarts (R64, R429). DEDUCED: the row of R64 for a failed confirmation does not clear
PHV, as those of disable, LOST and STALLED do, so that PHV stays as it was (log 69). -/
def confirmFail (n : Nat) (e : Option CapEntry) (s : State) : State :=
  let phv := s.flag (AT_SSTAT_PHV n)
  windowStart n e ((enterState n 0 0 ((s.setb (AT_SFLT_CFAIL n) true).tally (AT_SFLT_CFCNT n))).setb (AT_SSTAT_PHV n) phv)

/-- An edge that is not accepted, or a virtual tooth, as confirmation and the check after adoption see it (R64, R81). -/
def notAccepted (n : Nat) (e : Option CapEntry) (s : State) : State :=
  bif confirming (syncState s n) then confirmFail n e s
  else bif (s.trk n).adoptLeft != 0 then enterState n 5 8 (s.setb (AT_SFLT_ADPFAIL n) true)
  else s

/-- The completion state of tracker `n` (R63). -/
def completionState (s : State) (n : Nat) : Nat := bif halfWheel s n && !s.flag (AT_SSTAT_PHV n) then 3 else 4

/-! ### Cam phase (R70, R71) -/

/-- Cam phase is resolved: PHV := 1, phase bit 47 := `bit` (R64, R70). -/
def resolvePhase (n : Nat) (bit : Bool) (s0 : State) : State :=
  let s := trackerSync n s0
  (s.setb (AT_SSTAT_PHV n) true).modTrk n fun k => { k with phase := k.phase % 2 ^ 47 + bit.toNat * 2 ^ 47 }

/-- Tracker `n` handles a cam edge with timestamp `ts` at cam angle `c` (R70, R71, R75). DEDUCED: R70 sets CAMERR in step 3, and its
step 4 names CONFIRMING and SYNC360, so that in CANDIDATE and in the states of the finder a cam edge neither resolves nor disagrees
(log 69). -/
def camEdge (ts c n : Nat) (s0 : State) : State :=
  let st := syncState s0 n
  bif !(st == 2 || synced st) then s0
  else
    let s := trackerSync n s0
    let tol : Nat := s.get (AT_CAMCFG_CAMTOL n) * 2 ^ 16
    let back : Int := (s.get (AT_RATE_RATE n) * (s.now - ts) : Nat)
    let ang : Int := (angleOf s n : Nat)
    let a := ((ang * 2 ^ 24 - dirStep (s.flag (AT_SSTAT_DIR n)) * back) / 2 ^ 24) % (cycleLen s n : Int)
    bif st == 4 then
      let s1 := s.modTrk n fun k => { k with camAdv := 0 }
      bif decide ((sdiff (cycleLen s n) a c).natAbs ≤ tol) then s1.modTrk n fun k => { k with camBad := 0 }
      else
        let bad := (s.trk n).camBad + 1
        let s2 := (s1.setb (AT_SFLT_CAMERR n) true).modTrk n fun k => { k with camBad := bad }
        bif Nat.ble (s.get (AT_CAMCFG_CAMMAX n)) bad then enterState n 5 5 s2 else s2
    else bif !halfWheel s n then s
    else
      let d := sdiff (2 ^ 23) a c
      bif decide (d.natAbs ≤ tol) then
        let s1 := resolvePhase n (decide ((2 : Int) ^ 23 ≤ ((c : Int) - d) % 2 ^ 24)) s
        bif st == 3 then enterState n 4 0 s1 else s1
      else s.setb (AT_SFLT_CAMERR n) true

/-- An edge of tracker `n` assigned to entry `e` is a cam edge for the trackers that name it: its entry has CAMPH, and the
tracker is in SYNC720 or its wheel has one entry (R70); a tracker that follows the ring master takes it for its own tracking (R390). DEDUCED: on a wheel of one entry an edge that classification discards is
assigned to no entry and is no cam edge (log 69). -/
def camNotify (n e ts : Nat) (s : State) : State :=
  let w := activeWheel s n
  bif toothCam s w e && (syncState s n == 4 || w.cnt == 1) then
    let c := toothAngle s w e
    upTo 4 (fun m u => whenS (m != n && u.flag (AT_CTL_EN m) && u.get (AT_CAMCFG_CAMSRC m) == n + 1) (ownTracking m (camEdge ts c m)) u) s
  else s

/-- An edge that a tracker pops while it finds: on a wheel of one entry it is a cam edge (R70). -/
def camFinding (n : Nat) (e : CapEntry) (s : State) : State := whenS ((activeWheel s n).cnt == 1) (camNotify n 0 e.ts) s

/-! ### The finder (R66 to R68) -/

/-- A measured ratio, 4.12, half up, saturating (R66). -/
def ratioOf (p prev : Nat) : Nat := bif prev == 0 then 0xFFFF else min 0xFFFF (rndNat (p * 4096) prev)

/-- Ratio `r` matches `e` (R67). -/
def ratioMatch (rtol r e : Nat) : Bool := decide (((r : Int) - e).natAbs * 32 ≤ rtol * e)

/-- The ratio expected on reaching entry `i` (R37, R67). -/
def expectRatio (s : State) (w : Wheel) (rev : Bool) (i : Int) : Nat :=
  bif rev then reverseRatio (toothRatio s w (i + 2)) else toothRatio s w i

/-- The periods between the edges of a window, 32-bit (R66). -/
def windowPeriods : List WinEdge → List Nat
  | a :: b :: rest => (b.ts - a.ts) % 2 ^ 32 :: windowPeriods (b :: rest)
  | _ => []

/-- The ratios of neighbouring periods (R66). -/
def windowRatios : List Nat → List Nat
  | p :: q :: rest => ratioOf q p :: windowRatios (q :: rest)
  | _ => []

/-- Whether the ratios match those expected at entries `i`, `i + step`, … -/
def ratiosHold (s : State) (w : Wheel) (rtol : Nat) (rev : Bool) : Int → List Nat → Bool
  | _, [] => true
  | i, r :: rest => ratioMatch rtol r (expectRatio s w rev i) && ratiosHold s w rtol rev (i + dirStep rev) rest

/-- Whether the INDEX tags equal the INDEX flags from entry `i` on. -/
def tagsHold (s : State) (w : Wheel) (rev : Bool) : Int → List WinEdge → Bool
  | _, [] => true
  | i, e :: rest => (e.index == toothIndex s w i) && tagsHold s w rev (i + dirStep rev) rest

/-- The alignment in which the newest edge of the window is entry `i` holds (R67). -/
def alignmentHolds (s : State) (n : Nat) (w : Wheel) (win : List WinEdge) (rs : List Nat) (rev : Bool) (i : Nat) : Bool :=
  let len : Int := rs.length
  ratiosHold s w (s.get (AT_SCFG_RTOL n)) rev (i - dirStep rev * (len - 1)) rs &&
    (!indexChecked s n || tagsHold s w rev (i - dirStep rev * (win.length - 1 : Int)) win)

/-- The direction that tracker DIRTRK publishes; forward while it finds (R67, R72). -/
def dirTrkDir (s : State) (n : Nat) : Bool :=
  let m := s.get (AT_SCFG_DIRTRK n)
  !finding (syncState s m) && s.flag (AT_SSTAT_DIR m)

/-- The alignments that hold, as entry and direction (R67). -/
def alignments (s : State) (n : Nat) (win : List WinEdge) : List (Nat × Bool) :=
  let w := activeWheel s n
  let rs := windowRatios (windowPeriods win)
  let test (rev : Bool) : List (Nat × Bool) :=
    ((List.range w.cnt).filter (alignmentHolds s n w win rs rev)).map fun i => (i, rev)
  match s.get (AT_SCFG_DIRSRC n) with
  | 0 => test false
  | 1 => test (match win.getLast? with | some e => e.dir | none => false)
  | 2 => test false ++ test true
  | _ => test (dirTrkDir s n)

/-- A candidate: entry, angle, direction, a guarded predictor with GRCNT := GREV (R64, R68, R94). -/
def takeCandidate (n i ts p : Nat) (rev : Bool) (s : State) : State :=
  let s1 := (s.setb (AT_SSTAT_DIR n) rev).set (AT_SSTAT_ENTRY n) i |>.set (AT_PSTAT_GRCNT n) (s.get (AT_PCFG_GREV n))
  let s2 := whenS (rev != s.flag (AT_SSTAT_DIR n)) (markChange n) s1
  let s3 := enterState n 1 0 s2
  startSegment n i ts p false (s3.modTrk n fun k => { k with lastTs := ts, ratios := [], candTb := some s.now })

/-- The window after edge `e` (R66, R430). -/
def windowPush (s : State) (n : Nat) (e : CapEntry) : List WinEdge :=
  let win := (s.trk n).window
  let now_ := s.flag (AT_SSTAT_DIR n)
  let last := match win.getLast? with | some x => x.dir | none => now_
  let dir := bif e.dirv then e.dir else bif e.ovrb then now_ else last
  let edge : WinEdge := { ts := e.ts, index := e.index, dir := dir }
  bif e.ovrb || (s.get (AT_SCFG_DIRSRC n) == 1 && !win.isEmpty && dir != last) then [edge] else win ++ [edge]

/-- An edge popped in NONE or LOST enters the finder's window, which is tested when it is full (R64, R66, R67); the period of a candidate
saturates as a measuring counter does (R206). -/
def finderEdge (n : Nat) (e : CapEntry) (s : State) : State :=
  let w := activeWheel s n
  let need := min (s.get (AT_SCFG_K n)) w.cnt + 1
  let full := windowPush s n e
  let win := full.drop (full.length - need)
  bif Nat.blt win.length need then s.modTrk n fun k => { k with window := win }
  else
    match alignments s n win with
    | [(i, rev)] =>
      let p := min (e.ts - ((win.dropLast.getLast?.map (·.ts)).getD e.ts)) 0xFFFFFFFF
      takeCandidate n i e.ts p rev (s.modTrk n fun k => { k with window := [] })
    | _ => s.modTrk n fun k => { k with window := win.drop 1 }

/-! ### Accepted teeth as the sync machine sees them -/

/-- An uncorrectable error in an entry that the tracker reads (R44, R75). -/
def toothEccLoss (n : Nat) (s : State) : State :=
  enterState n 5 6 (((s.setb (AT_ERRINFO_ECC n) true).pulse 253).pulse (33 + 2 * n))

/-- Whether an entry that tracker `n` reads for its next decision, or for a virtual tooth, holds an uncorrectable error (R44). DEDUCED: the
finder reads the whole wheel; from CANDIDATE on the tracker reads the entry behind the segment, the two that bound it and the two ahead
of it, one more with a suspect held (R84, R87 to R90, log 69). -/
def toothBad (s : State) (n : Nat) : Bool :=
  let w := activeWheel s n
  let k := s.trk n
  bif s.ecc.isEmpty then false
  else bif finding (syncState s n) then someBelow w.cnt fun (i : Nat) => entryBad s w i
  else someBelow (5 + k.suspect.isSome.toNat) fun (i : Nat) => entryBad s w (k.segK + dirStep (s.flag (AT_SSTAT_DIR n)) * ((i : Int) - 1))

/-- Whether the wheel that has become active fits the teeth before its entry 0: its last W - 1 ratios, and its angle against
`old0`, that of the wheel before (R77). DEDUCED: with fewer than W - 1 ratios measured since the candidate or the adoption, not all of them
match, so that sync is dropped with cause 7 (log 69). -/
def wheelFits (s : State) (n : Nat) (old0 : Int) : Bool :=
  let w := activeWheel s n
  let rev := s.flag (AT_SSTAT_DIR n)
  let cnt := min (s.get (AT_SCFG_K n)) w.cnt - 1
  let rs := ((s.trk n).ratios.take cnt).reverse
  rs.length == cnt && ratiosHold s w (s.get (AT_SCFG_RTOL n)) rev (-(dirStep rev * ((cnt : Int) - 1))) rs &&
    decide ((sdiff (cycleLen s n) old0 (toothAngle s w 0)).natAbs ≤ s.get (AT_CAMCFG_CAMTOL n) * 2 ^ 16)

/-- Sync is kept across a switch: a forward difference of the angles moves the phase at once, and the segment under way, which began
`steps` entries past the REF tooth and `near` phase units ahead of the phase, is opened again from the new wheel (R43, R77). -/
def wheelKeep (n : Nat) (steps near old0 : Int) (a : Accept) (s : State) : State :=
  let w := activeWheel s n
  let rev := s.flag (AT_SSTAT_DIR n)
  let ahead := dirStep rev * sdiff (cycleLen s n) old0 (toothAngle s w 0) * 2 ^ 24
  let u := bif decide (0 < ahead) then
      (s.setb (AT_CFLT_JUMP n) true).modTrk n fun k =>
        { k.shift rev (phaseMod s n) ahead.toNat with haltAt := k.haltAt, togo := k.togo, catchup := k.catchup }
    else s
  reopenSegment n ((dirStep rev * steps) % (max w.cnt 1 : Nat)).toNat (near + min ahead 0) a u

/-- The pending wheel becomes active at an accepted REF tooth, `steps` entries before the tooth `a` that opened the segment under way
(R43, R77): sync is kept where the wheel fits, in CANDIDATE and CONFIRMING the tracker restarts in NONE, and where the tooth itself has
lost sync the switch leaves that transition as it is (R65). DEDUCED: an uncorrectable error in the entries that the decision reads is a
loss with cause 6, not a wheel found inconsistent, so that SWNOSYNC stays clear (R44, log 69). -/
def wheelTake (n : Nat) (steps : Int) (a : Accept) (s0 : State) : State :=
  let s := trackerSync n s0
  let old0 : Int := toothAngle s (activeWheel s n) 0
  let k := s.trk n
  let near := k.togo - (gapAhead s n (activeWheel s n) (s.flag (AT_SSTAT_DIR n)) k.segK * 2 ^ 24 : Nat)
  let s1 := (s.set (AT_WCFG_ACTSEL n) (1 - s.get (AT_WCFG_ACTSEL n))).setb (AT_WCFG_SWREQ n) false |>.setb (AT_WCFG_SWDONE n) true
    |>.set (AT_SSTAT_ENTRY n) 0 |> learnRestart n
  let w := activeWheel s1 n
  let st := syncState s n
  let reads := min (s.get (AT_SCFG_K n)) w.cnt + 2
  bif confirming st then enterState n 0 0 s1
  else bif st == 0 then s1
  else bif synced st && someBelow reads (fun (i : Nat) => entryBad s1 w (dirStep (s.flag (AT_SSTAT_DIR n)) * (2 - (i : Int)))) then
    toothEccLoss n s1
  else bif !wheelFits s1 n old0 then whenS (synced st) (enterState n 5 7) (s1.setb (AT_WCFG_SWNOSYNC n) true)
  else bif synced st then wheelKeep n steps near old0 a s1
  else s1

/-- The wheel switch at an accepted REF tooth, and the end of the job that waits for it (R43, R256). -/
def wheelSwitchNow (n : Nat) (steps : Int) (a : Accept) (s : State) : State :=
  let j := (s.trk n).switchJob
  let u := wheelTake n steps a (s.setb (AT_WCFG_SWNOSYNC n) false)
  let v := endJob j (bif u.flag (AT_WCFG_SWNOSYNC n) || (synced (syncState s n) && syncState u n == 5) then 0x0219 else 0) 0 u
  (whenS (s.flag (AT_WCFG_SWNOSYNC n)) (·.setb (AT_WCFG_SWNOSYNC n) true) v).modTrk n fun k => { k with switchJob := 0 }

/-- The calibration image that waits for an accepted REF tooth of tracker `n` is applied, and learning restarts (R96, R364); an image that
writes CORR discards an average completed by that tooth (R42). -/
def calibRef (n : Nat) (s : State) : State :=
  let mine (c : CalWrite) : Bool := c.unit == n
  let corr := s.update.calib.any fun c => mine c && Nat.ble 0x50040000 c.addr && Nat.blt c.addr 0x50050000 && c.addr % 8 == 4
  bif s.update.calib.any mine then learnRestart n (calibTake mine (whenS corr (corrTouched n) s)) else s

/-- The gap and index checks of an accepted tooth in SYNC360 or SYNC720, and the cause of a loss, 0 for none (R75). -/
def lossChecks (n e : Nat) (hit idxOk : Bool) (s : State) : State × Nat :=
  let w := activeWheel s n
  let k := s.trk n
  let gapBad := bif toothGap s w e then (bif hit then 0 else k.gapBad + 1) else k.gapBad
  let idxBad := bif indexChecked s n then (bif idxOk then 0 else k.idxBad + 1) else k.idxBad
  let s1 := whenS (toothGap s w e && !hit) (·.setb (AT_SFLT_GAPERR n) true) s
  let s2 := whenS (indexChecked s n && !idxOk) (·.setb (AT_SFLT_IDXERR n) true) s1
  let s3 := s2.modTrk n fun j =>
    { j with virtCons := 0, virtRev := bif toothRef s w e then 0 else j.virtRev, gapBad := gapBad, idxBad := idxBad }
  let cause := bif toothGap s w e && !hit && Nat.ble (s.get (AT_SCFG_GAPMAX n)) gapBad then 3
    else bif indexChecked s n && !idxOk && Nat.ble (s.get (AT_SCFG_IDXMAX n)) idxBad then 4 else 0
  (s3, cause)

/-- What follows an accepted tooth at entry `e`, whatever state it has led to: its cam edge, the calibration image and the wheel
switch that wait for a REF tooth (R43, R70). -/
def afterTooth (n e ts : Nat) (steps : Int) (a : Accept) (s : State) : State :=
  let ref := toothRef s (activeWheel s n) e
  let u := whenS ref (calibRef n) (camNotify n e ts s)
  whenS (ref && u.flag (AT_WCFG_SWREQ n) && Nat.blt (u.trk n).swreqTb u.now) (wheelSwitchNow n steps a) u

/-- An accepted tooth at entry `e` with ratio `r`: confirmation, loss criteria, cam edges, wheel switch (R64, R69, R75). `entry`
is the capture entry, `newest` the newest entry popped, and `a` the tooth that opened the segment under way, `steps` entries on. -/
def syncAccepted (n e r : Nat) (entry newest : CapEntry) (steps : Int) (a : Accept) (s0 : State) : State :=
  let w := activeWheel s0 n
  let rev := s0.flag (AT_SSTAT_DIR n)
  let st := syncState s0 n
  let hit := ratioMatch (s0.get (AT_SCFG_RTOL n)) r (expectRatio s0 w rev e)
  let idxOk := !indexChecked s0 n || entry.index == toothIndex s0 w e
  let s := (s0.set (AT_SSTAT_ENTRY n) e).modTrk n fun k =>
    { k with lastTs := entry.ts, sinceRev := k.sinceRev + 1, ratios := (r :: k.ratios).take 7, adoptLeft := k.adoptLeft - 1 }
  let finish := afterTooth n e entry.ts steps a
  bif confirming st then
    bif !(hit && idxOk) then finish (confirmFail n (some newest) s)
    else
      let c := (s.trk n).confCount
      bif st == 1 && w.cnt != 1 then finish (enterState n 2 0 (s.modTrk n fun k => { k with confCount := 1 }))
      else bif st == 2 && Nat.blt (c + 1) w.cnt then finish (s.modTrk n fun k => { k with confCount := c + 1 })
      else finish (enterState n (completionState s n) 0 s)
  else bif synced st then
    let (u, cause) := lossChecks n e hit idxOk s
    finish (whenS (cause != 0) (enterState n 5 cause) u)
  else s

/-- A virtual tooth as the sync machine sees it (R64, R75, R81). DEDUCED: where a virtual tooth fails the check after adoption and
meets VMAX or VREV too, R81 names the cause 8 for every virtual tooth among the four edges, and R65 speaks of two criteria on one edge
only (log 69). -/
def syncVirtual (n : Nat) (s : State) : State :=
  let st := syncState s n
  bif confirming st then confirmFail n none s
  else bif !synced st then s
  else bif (s.trk n).adoptLeft != 0 then enterState n 5 8 (s.setb (AT_SFLT_ADPFAIL n) true)
  else
    let c := (s.trk n).virtCons + 1
    let r := (s.trk n).virtRev + 1
    let u := s.modTrk n fun k => { k with virtCons := c, virtRev := r }
    bif Nat.ble (s.get (AT_SCFG_VMAX n)) c then enterState n 5 1 u
    else bif Nat.ble (s.get (AT_SCFG_VREV n)) r then enterState n 5 2 u
    else u

/-! ### Classification (R87) -/

/-- An edge of the segment was not accepted at first classification (R96). -/
def unclean (n : Nat) (s : State) : State := s.modTrk n fun k => { k with clean := false, passValid := false }

/-- The held suspect is discarded (R87). -/
def dropSuspect (n : Nat) (s : State) : State :=
  unclean n ((s.setb (AT_PSTAT_SUSP n) false).setb (AT_CFLT_SDISC n) true |>.tally (AT_CCNT1_SDISCNT n) |> showClass n 4
    |>.modTrk n fun k => { k with suspect := none })

/-- VIRTUAL: the next entry is taken at its predicted arrival (R87, R88). -/
def doVirtual (n : Nat) (s : State) : State :=
  let s1 := whenS (s.trk n).suspect.isSome (dropSuspect n) s
  let (s2, e, phat, upper) := virtualTooth n s1
  syncVirtual n (periodStore n e upper true false false phat (unclean n s2))

/-- An entry with OVRB = 1 is discarded (R87). -/
def discardOverrun (n : Nat) (e : CapEntry) (s : State) : State :=
  notAccepted n (some e) (unclean n (showClass n 6 (s.setb (AT_CFLT_OVRERR n) true)))

/-- The part of learning in an accepted tooth at entry `e` (R96, R99); an average that it completes reads every entry of the wheel
(R44). -/
def learnAccepted (n e ts p : Nat) (upper ok : Bool) (prevP : Nat) (s : State) : State :=
  let w := activeWheel s n
  let prevOk := (s.trk n).lastValid
  let t := learnTooth n w e ts p ok s
  let done_ := (t.trk n).average != (s.trk n).average
  let s1 := whenS (done_ && wheelBad s w) (toothEccLoss n) t
  let s2 := whenS (ok && prevOk && s.flag (AT_LCFG_PLRN n)) (learnProfile n w e (slotOf s n w e upper) p prevP) s1
  s2.modTrk n fun k => { k with lastValid := ok, clean := true }

/-- ACCEPTED at the next entry (R87, R90). -/
def acceptNext (n : Nat) (e : CapEntry) (s0 : State) : State :=
  let s := trackerSync n s0
  let k := s.trk n
  let w := activeWheel s n
  let rev := s.flag (AT_SSTAT_DIR n)
  let i := ((k.segK + dirStep rev) % (max w.cnt 1 : Nat)).toNat
  let p := min (e.ts - k.tref) 0xFFFFFFFF
  let good := syncState s n == 4 && !s.flag (AT_PSTAT_MODE n) && !rev && k.clean && k.sinceRev != 0
  let a : Accept := { e := i, ts := e.ts, p := p, behind := gapAhead s n w rev k.segK, extra := 0, plain := k.plain, late := none, count := 1,
                      refs := (toothRef s w i).toNat }
  let (s1, early, floor, upper) := acceptTooth n a s
  let s2 := periodStore n i upper false false early p (showClass n 0 s1)
  let s3 := learnAccepted n i e.ts p upper (good && !early && !floor) k.lastP s2
  bif finding (syncState s3 n) then s3 else syncAccepted n i (ratioOf p k.lastP) e e 0 a s3

/-- LATE: the held suspect and the next entry are accepted together; the phase update is that of the second (R87, R89, R101). -/
def acceptLate (n : Nat) (su e : CapEntry) (s0 : State) : State :=
  let s := trackerSync n s0
  let k := s.trk n
  let w := activeWheel s n
  let rev := s.flag (AT_SSTAT_DIR n)
  let i1 := ((k.segK + dirStep rev) % (max w.cnt 1 : Nat)).toNat
  let i2 := ((k.segK + 2 * dirStep rev) % (max w.cnt 1 : Nat)).toNat
  let is_ := su.ts - k.tref
  let in_ := e.ts - su.ts
  let gs := gapAhead s n w rev k.segK
  let gn := gapAhead s n w rev i1
  let upper1 := upperAt s n (distanceTo s n w i1 k.togo)
  let a : Accept := { e := i2, ts := e.ts, p := in_, behind := gn, extra := gn, plain := true,
                      late := some (accOf (speedOf gn in_) (speedOf gs is_) in_), count := 2,
                      refs := (toothRef s w i1).toNat + (toothRef s w i2).toNat }
  let (s1, early, _, upper2) := acceptTooth n a (s.setb (AT_PSTAT_SUSP n) false |>.modTrk n fun j => { j with suspect := none })
  let s2 := (s1.setb (AT_CFLT_LATE n) true).tally (AT_CCNT1_LATECNT n) |> showClass n 3
  let s3 := periodStore n i2 upper2 false true early in_ (periodStore n i1 upper1 false true false is_ s2)
  let s4 := learnAccepted n i2 e.ts in_ upper2 false is_ (learnAccepted n i1 su.ts is_ upper1 false k.lastP s3)
  let s5 := syncAccepted n i1 (ratioOf is_ k.lastP) su e 1 a s4
  bif finding (syncState s5 n) then camFinding n e s5 else syncAccepted n (s5.trk n).segK (ratioOf in_ is_) e e 0 a s5

/-- Classification from WAIT; virtual teeth that the entry shows to be due are taken first, at most `fuel` of them (R87). -/
def classifyWait (n : Nat) (e : CapEntry) : Nat → State → State
  | 0, s => s
  | fuel + 1, s =>
    let k := s.trk n
    bif finding (syncState s n) then finderEdge n e (camFinding n e s)
    else bif toothBad s n then toothEccLoss n s
    else bif e.ovrb then discardOverrun n e s
    else bif !s.flag (AT_PSTAT_MODE n) && Nat.ble (k.tref + k.thi) e.ts then classifyWait n e fuel (doVirtual n s)
    else
      let i := e.ts - k.tref
      bif Nat.blt i k.tb then
        notAccepted n (some e)
          (unclean n (showClass n 1 ((s.setb (AT_CFLT_NOISE n) true).tally (AT_CCNT0_NOISECNT n))))
      else bif Nat.blt i k.tlo then
        unclean n (showClass n 2 ((s.setb (AT_PSTAT_SUSP n) true).modTrk n fun j => { j with suspect := some e }))
      else acceptNext n e s

/-- Classification of a popped entry in CANDIDATE to SYNC720 (R87). -/
def classify (n : Nat) (e : CapEntry) (s : State) : State :=
  let k := s.trk n
  match k.suspect with
  | none => classifyWait n e 32 s
  | some su =>
    bif e.ovrb then discardOverrun n e (dropSuspect n s)
    else
      let is_ := su.ts - k.tref
      let in_ := e.ts - su.ts
      bif Nat.ble (k.clo * is_) (4096 * in_) && Nat.ble (4096 * in_) (k.chi * is_) then acceptLate n su e s
      else
        let s1 := notAccepted n (some e) (dropSuspect n s)
        bif finding (syncState s1 n) then camFinding n e s1 else classifyWait n e 32 s1

/-! ### Direction (R72, R73, R95) -/

/-- Whether entry `e` reverses tracker `n`, and the state with its count of opposite entries (R72). DEDUCED: until the DREV-th, the
tracker classifies opposite entries in the direction it has, an entry with DIRV = 0 leaves the count as it is, and the entry that
completes the count is the first edge in the new direction (R73, log 69). -/
def reversalCheck (n : Nat) (e : CapEntry) (s : State) : Bool × State :=
  let dir := s.flag (AT_SSTAT_DIR n)
  match s.get (AT_SCFG_DIRSRC n) with
  | 1 =>
    bif !e.dirv then (false, s)
    else bif e.dir == dir then (false, s.modTrk n fun k => { k with revCount := 0 })
    else
      let c := (s.trk n).revCount + 1
      bif Nat.ble (s.get (AT_SCFG_DREV n)) c then (true, s.modTrk n fun k => { k with revCount := 0 })
      else (false, s.modTrk n fun k => { k with revCount := c })
  | 3 => (dirTrkDir s n != dir, s)
  | _ => (false, s)

/-- A reversal: a failed confirmation, or the edge is assigned to the entry crossed back, with the angle set to it
(R64, R73, R95). DEDUCED: this edge is classified by none of the rows of R87, so it is no accepted tooth: LCLS, GRCNT and the period
store stay, and among the first four edges after an adoption it fails the check (R81); and the measure of cam absence goes on adding
travel, whatever its direction (R71, log 69). -/
def reverseTracker (n : Nat) (e : CapEntry) (s0 : State) : State :=
  let i := s0.get (AT_SSTAT_ENTRY n)
  bif confirming (syncState s0 n) then camFinding n e (confirmFail n (some e) s0)
  else bif someBelow 5 fun (j : Nat) => entryBad s0 (activeWheel s0 n) ((i : Int) + j - 2) then toothEccLoss n s0
  else
    let s := trackerSync n s0
    let p := min (e.ts - (s.trk n).lastTs) 0xFFFFFFFF
    let s1 := dropWindows n (markChange n (s.setb (AT_SSTAT_DIR n) (!s.flag (AT_SSTAT_DIR n))))
    let s2 := unclean n (s1.modTrk n fun j => { j with lastTs := e.ts, sinceRev := 0, lastValid := false })
    camNotify n i e.ts (notAccepted n (some e) (startSegment n i e.ts p true s2))

/-! ### Popping an entry -/

/-- Tracker `n` handles entry `e` (R64, R87). DEDUCED: a reversal comes before classification, so that an entry with OVRB = 1 which completes
DREV, or is the first after DIRTRK turns, is the reversal edge and is not discarded under R87 (R73, log 69). -/
def handleEntry (n : Nat) (e : CapEntry) (s : State) : State :=
  let st := syncState s n
  bif toothBad s n then toothEccLoss n s
  else bif finding st then
    let s1 := camFinding n e s
    bif st == 6 then windowStart n (some e) (enterState n 0 0 s1) else finderEdge n e s1
  else
    let (rev, s1) := reversalCheck n e s
    bif rev then reverseTracker n e s1 else classify n e s1

/-- The tooth-period counter of tracker `n` has saturated, which stalls it in any state but NONE (R64, R76). -/
def saturated (s : State) (n : Nat) : Bool :=
  let k := s.trk n
  s.flag (AT_CTL_EN n) && k.edgeSeen && !k.satPast && Nat.ble (k.lastPop + 0xFFFFFFFF) s.now

/-- The tracker stalls by a saturation: not in NONE, and not once more. -/
def stallable (s : State) (n : Nat) : Bool := syncState s n != 0 && syncState s n != 6

/-- Tracker `n` pops entry `e` now: an earlier saturation has stalled it; one in this tk stalls it afterwards, in the state that the edge
has produced (R65, R76). -/
def popEntry (n : Nat) (e : CapEntry) (s : State) : State :=
  let sat := saturated s n
  let now_ := Nat.ble s.now ((s.trk n).lastPop + 0xFFFFFFFF)
  let s1 := whenS (sat && !now_ && stallable s n) (enterState n 6 0) s
  let s2 := handleEntry n e (s1.modTrk n fun k => { k with lastPop := s.now, edgeSeen := true, satPast := false })
  whenS (sat && now_ && stallable s2 n) (enterState n 6 0) s2

/-- Tracker `n` pops the oldest entry of its capture queue (R60, R87); while the edge generator runs, the entry is discarded (R266). -/
def toothPop (n : Nat) (s : State) : State :=
  bif !s.flag (AT_CTL_EN n) then s
  else
    match sourceOf s n with
    | none => s
    | some i =>
      let q := s.inp i
      match q.queue with
      | [] => s
      | e :: rest =>
        let u := capPopped i (s.putInp i { q with queue := rest })
        bif (s.trk n).gen.isSome then u else popEntry n e (trackerSync n u)

/-- The deadline of the expected tooth passes with no entry outstanding (R87, R88). -/
def virtualDue (n : Nat) (s : State) : State :=
  let k := s.trk n
  let lim := k.tref + k.thi
  let (delay, queue) := match sourceOf s n with
    | some i => (captureDelay s i, bif k.gen.isSome then [] else (s.inp i).queue)
    | none => (6, [])
  bif s.flag (AT_CTL_EN n) && !finding (syncState s n) && !s.flag (AT_PSTAT_MODE n) && Nat.ble (lim + delay) s.now &&
      !(queue.any fun e => Nat.blt e.ts lim)
  then (bif toothBad s n then toothEccLoss n s else doVirtual n s) else s

/-! ### Commands on a tracker -/

/-- The catch-up reaches its target and the accumulator returns to the plain rate (R91). -/
def catchupDone (n : Nat) (s0 : State) : State :=
  let s := trackerSync n s0
  let k := s.trk n
  match k.catchup with
  | none => s
  | some c =>
    bif decide (c.lead + (c.rate * (s.now - c.ts) : Nat) ≤ 0) then
      (s.setb (AT_PSTAT_CATCH n) false).putTrk n { k with catchup := none }
    else s

/-- The accumulator stands at its halt point: PSTAT.HALT (R90). -/
def haltReached (n : Nat) (s0 : State) : State :=
  let s := trackerSync n s0
  bif (s.trk n).haltAt == some 0 && s.flag (AT_RATE_RATE n) then s.setb (AT_PSTAT_HALT n) true else s

/-- A full cycle has passed in SYNC720 with no cam edge (R71). -/
def camMissed (n : Nat) (s0 : State) : State :=
  let s := trackerSync n s0
  let l := cycleLen s n * 2 ^ 24
  bif syncState s n == 4 && s.flag (AT_CAMCFG_CAMSRC n) && Nat.ble l (s.trk n).camAdv then
    (s.setb (AT_SFLT_CAMMISS n) true).modTrk n fun k => { k with camAdv := k.camAdv - l }
  else s

/-- The work value of cylinder `c` grows one cycle older (R100). -/
def ageCyl (n c : Nat) (s : State) : State :=
  bif !bitAt (s.get (AT_WVAL_VALID n)) c then s
  else
    let a := natAt (s.trk n).ages c + 1
    let s1 := s.modTrk n fun k => { k with ages := putAt c a k.ages }
    bif Nat.blt (s.get (AT_FF_WAGE n)) a then
      (s1.set (AT_WVAL_VALID n) (putBits (s1.get (AT_WVAL_VALID n)) c 1 0)).setb (AT_CFLT_WSTALE n) true
    else s1

/-- A work value is written: WVAL bit, age zero (R100). -/
def workWrite (n c : Nat) (w : Word) (s : State) : State :=
  let s1 := (s.wr (Reg.AT_WCYL n c) w).set (AT_WVAL_VALID n) (putBits (s.get (AT_WVAL_VALID n)) c 1 1)
  s1.modTrk n fun k => { k with ages := putAt c 0 k.ages }

/-- PERC writes a work value over the bus: it stands over a write of the CAE in the same cycle (R100, R189). -/
def percWorkWrite (n c : Nat) (w : Word) (s : State) : State :=
  (workWrite n c w s).modTrk n fun k => { k with percWork := (k.percWork.filter fun x => x.2 == s.now) ++ [(c, s.now)] }

/-- CTL.EN of a tracker is set, or refused (R40, R72). -/
def trackerEnable (n : Nat) (s : State) : State :=
  let a := s.get (AT_WCFG_ACTSEL n)
  bif s.flag (AT_CTL_EN n) then s
  else bif rangeRefused s n a || (s.get (AT_SCFG_DIRSRC n) == 2 && wheelSymmetric s n a) then s.setb (AT_ERRINFO_PARAM n) true
  else (s.setb (AT_CTL_EN n) true).modTrk n fun k => { k with edgeSeen := false, window := [] }

/-- The tracker takes NONE and its finder window is cleared (R64). -/
def trackerNone (n : Nat) (s : State) : State := markChange n (enterState n 0 0 s)

/-- CTL.EN of a tracker is cleared (R64). -/
def trackerDisable (n : Nat) (s : State) : State :=
  bif s.flag (AT_CTL_EN n) then trackerNone n (s.setb (AT_CTL_EN n) false) else s

/-- WCFG.SWREQ is set, or refused (R40, R43, R72). -/
def switchRequest (n : Nat) (s : State) : State :=
  let p := 1 - s.get (AT_WCFG_ACTSEL n)
  bif s.flag (AT_WCFG_SWREQ n) then s
  else bif rangeRefused s n p || (s.get (AT_SCFG_DIRSRC n) == 2 && wheelSymmetric s n p) then s.setb (AT_ERRINFO_PARAM n) true
  else (s.setb (AT_WCFG_SWREQ n) true).modTrk n fun k => { k with swreqTb := s.now }

/-- SCTL.DROP (R64). -/
def syncDropNow (n : Nat) (s : State) : State :=
  let st := syncState s n
  bif confirming st || synced st then enterState n 5 9 s else s

/-- SCTL.SETPH0 or SETPH1 (R64, R71). -/
def setPhase (n : Nat) (bit : Bool) (s : State) : State :=
  match syncState s n with
  | 3 => enterState n 4 0 (resolvePhase n bit s)
  | 4 => s.setb (AT_ERRINFO_PARAM n) true
  | _ => s

/-- The stall (R64, R76): an entry that waits in the queue in the tk of saturation is handled first (R65). -/
def stallNow (n : Nat) (s : State) : State :=
  let waits := match sourceOf s n with | some i => !(s.inp i).queue.isEmpty | none => false
  bif saturated s n && stallable s n && !(waits && Nat.ble s.now ((s.trk n).lastPop + 0xFFFFFFFF)) then enterState n 6 0 s else s

/-- A tracker pops a capture entry (R87). -/
def execToothEntryPop (n : Fin 4) (s : State) : Host.Outcome State Fault Refusal := done (inAngle s (ownTracking n (toothPop n)))

/-- A virtual tooth (R88). -/
def execVirtualTooth (n : Fin 4) (s : State) : Host.Outcome State Fault Refusal := done (inAngle s (ownTracking n (virtualDue n)))

/-- A catch-up reaches its target (R91). -/
def execCatchupComplete (n : Fin 4) (s : State) : Host.Outcome State Fault Refusal := done (inAngle s (ownTracking n (catchupDone n)))

/-- The accumulator reaches its halt point (R90). -/
def execAccumulatorHalt (n : Fin 4) (s : State) : Host.Outcome State Fault Refusal := done (inAngle s (ownTracking n (haltReached n)))

/-- The tooth-period counter saturates (R76). -/
def execToothPeriodStall (n : Fin 4) (s : State) : Host.Outcome State Fault Refusal := done (inAngle s (ownTracking n (stallNow n)))

/-- A cycle without a cam edge (R71). -/
def execCammiss (n : Fin 4) (s : State) : Host.Outcome State Fault Refusal := done (inAngle s (ownTracking n (camMissed n)))

/-- CTL.EN of a tracker is set (R40). -/
def execTrackerEnable (n : Fin 4) (s : State) : Host.Outcome State Fault Refusal := done (inAngle s (ownTracking n (trackerEnable n)))

/-- CTL.EN of a tracker is cleared (R64). -/
def execTrackerDisable (n : Fin 4) (s : State) : Host.Outcome State Fault Refusal := done (inAngle s (ownTracking n (trackerDisable n)))

/-- WCFG.SWREQ is set (R43). -/
def execWheelSwitchRequest (n : Fin 4) (s : State) : Host.Outcome State Fault Refusal := done (inAngle s (ownTracking n (switchRequest n)))

/-- SCTL.RESTART (R64). -/
def execSyncRestart (n : Fin 4) (s : State) : Host.Outcome State Fault Refusal := done (inAngle s (ownTracking n (trackerNone n)))

/-- SCTL.DROP (R64). -/
def execSyncDrop (n : Fin 4) (s : State) : Host.Outcome State Fault Refusal := done (inAngle s (ownTracking n (syncDropNow n)))

/-- SCTL.SETPH0 (R64). -/
def execSetph0 (n : Fin 4) (s : State) : Host.Outcome State Fault Refusal := done (inAngle s (ownTracking n (setPhase n false)))

/-- SCTL.SETPH1 (R64). -/
def execSetph1 (n : Fin 4) (s : State) : Host.Outcome State Fault Refusal := done (inAngle s (ownTracking n (setPhase n true)))

end Sys2Proof.Machine
end

