-- ==== Sys2Proof/Machine/Sched.lean ====
section
/-! DEFINITION. Event scheduling: descriptors, banks, forecasts, occurrences, the commit check, and what the output units hold
(R103 to R128). The edges that reach a pin, and their messages to the loops, stand in Output.lean. -/

namespace Sys2Proof.Machine

open Fields

/-! ### Supply of service (R280) -/

/-- Pair `p` is in service: ACTIVE, STANDBY or SPLIT (R280). -/
def pairInService (s : State) (p : Nat) : Bool :=
  let st := s.get (CPR_PAIRSTAT_STATE p)
  st == 3 || st == 4 || st == 5

/-- The coast condition: no pair is in service (R144, R280). -/
def coasting (s : State) : Bool := !pairInService s 0 && !pairInService s 1

/-! ### Channels -/

/-- Bit `c % 32` of the OUTEN word of channel `c` is set (R126). -/
def outen (s : State) (c : Nat) : Bool := bitAt (s.rdn (bif Nat.blt c 32 then Reg.SCH_OUTENL else Reg.SCH_OUTENH)) (c % 32)

/-- The OUTEN bit of channel `c` is cleared; TB of the change is kept (R127). -/
def outenClear (c : Nat) (s : State) : State :=
  let r := bif Nat.blt c 32 then Reg.SCH_OUTENL else Reg.SCH_OUTENH
  bif outen s c then (s.wrn r (s.rdn r - 2 ^ (c % 32))).putUnit c { s.unit c with outTb := some s.now } else s

/-- The tracker of channel `c`. -/
def chanTrk (s : State) (c : Nat) : Nat := s.get (SCH_CHCFG_TRK c)

/-- The sequencer that owns channel `c` (R130). -/
def ownerOf (s : State) (c : Nat) : Option Nat :=
  (List.range 8).find? fun n => s.flag (ESQ_OWN_VALID n) && s.get (ESQ_OWN_GRP n) == c / 8

/-- Sequencer `n` is RUNNING. -/
def esqRunning (s : State) (n : Nat) : Bool := s.get (ESQ_STAT_STATE n) == 1

/-- The owner of channel `c` is RUNNING (R107). -/
def ownerRuns (s : State) (c : Nat) : Bool := match ownerOf s c with | some n => esqRunning s n | none => false

/-! ### Descriptors (R103 to R106) -/

/-- A descriptor with its trim entry. `reserved` says that a reserved value or bit is present (R105). -/
structure Desc where
  mode : Nat
  dir : Nat
  swept : Nat
  en : Bool
  once : Bool
  a1 : Nat
  trimen : Bool
  closefb : Bool
  pulse : Nat
  a2 : Nat
  dur : Nat
  trig : Nat
  prof : Nat
  cyl : Nat
  ch : Nat
  /-- trims as they count: zero when the descriptor does not apply them (R106) -/
  atrim : Int
  dtrim : Int
  reserved : Bool
  deriving DecidableEq, Repr

/-- The descriptor that four words spell, with the trim values `at_` and `dt` of its event. -/
def descOf (w0 w1 w2 w3 : Nat) (at_ dt : Int) : Desc :=
  let trig := bitsAt w3 24 6
  let prof := bitsAt w3 20 4
  { mode := bitsAt w0 30 2, dir := bitsAt w0 28 2, swept := bitsAt w0 26 2, en := bitAt w0 25, once := bitAt w0 24,
    a1 := bitsAt w0 0 24, trimen := bitAt w1 31, closefb := bitAt w1 30, pulse := bitsAt w1 27 3, a2 := bitsAt w1 0 24,
    dur := w2, trig := trig, prof := prof, cyl := bitsAt w3 8 5, ch := bitsAt w3 0 6,
    atrim := bif bitAt w1 31 then at_ else 0, dtrim := bif bitAt w1 30 then dt else 0,
    reserved := bitsAt w0 28 2 == 3 || bitsAt w0 26 2 == 3 || bitsAt w1 24 3 != 0 || bitsAt w3 30 2 != 0 ||
      bitsAt w3 13 7 != 0 || bitsAt w3 6 2 != 0 || Nat.blt 32 trig || (Nat.blt 11 prof && Nat.blt prof 15) ||
      Nat.blt 23 (bitsAt w3 8 5) }

/-- Address of word 0 of event `e` in bank B (`b`) or A (R103). -/
def eventAddr (b : Bool) (e : Nat) : Nat := 0x50060000 + b.toNat * 0x4000 + 16 * e

/-- Address of word 0 of the trim entry of event `e` (R103). -/
def trimAddr (e : Nat) : Nat := 0x50068000 + 8 * e

/-- ATRIM of event `e`. -/
def atrimOf (s : State) (e : Nat) : Int := signedOf 24 (bitsAt (s.rdn (trimAddr e)) 0 24)

/-- DTRIM of event `e`. -/
def dtrimOf (s : State) (e : Nat) : Int := signedOf 16 (bitsAt (s.rdn (trimAddr e + 4)) 0 16)

/-- The descriptor of event `e` in a bank, with its trim. -/
def eventDesc (s : State) (b : Bool) (e : Nat) : Desc :=
  let a := eventAddr b e
  descOf (s.rdn a) (s.rdn (a + 4)) (s.rdn (a + 8)) (s.rdn (a + 12)) (atrimOf s e) (dtrimOf s e)

/-- The descriptor that an occurrence has latched (R114). -/
def Occ.desc (o : Occ) : Desc := descOf o.w0.toNat o.w1.toNat o.w2.toNat o.w3.toNat o.atrim o.dtrim

/-- D′ = DUR + DTRIM, floored at zero (R106). -/
def Desc.dprime (d : Desc) : Nat := (d.dur + d.dtrim).toNat

/-- Channel of event `e` for the choice of its bank: CH of its descriptor in bank A (DESIGN CHOICE, log entry 20). -/
def eventChanA (s : State) (e : Nat) : Nat := bitsAt (s.rdn (eventAddr false e + 12)) 0 6

/-- The switch point that event `e` takes, as a key of tracker `n`: its cylinder's, in CYLINDER mode with CREF enabled, else
BANG (R121). `b` is the bank active before the switch, whose CYL decides where the banks differ (DESIGN CHOICE, log entry 20). -/
def switchKey (s : State) (cyl b : Bool) (n e : Nat) : Nat :=
  let c := bitsAt (s.rdn (eventAddr b e + 12)) 8 5
  32 * n + (bif cyl && Nat.blt c 24 && s.flag (SCH_CREF_EN c) then c else 24)

/-- The bank that event `e` is read from (R121). -/
def eventBank (s : State) (e : Nat) : Bool :=
  let n := chanTrk s (eventChanA s e)
  let act := bitAt (s.get SCH_BSTAT_ACT) n
  bif bitAt (s.get SCH_BSTAT_PEND) n && s.switched.contains (switchKey s s.bankCyl act n e) then !act else act

/-- A wrong angle or length for the cycle of the channel's tracker (R105). -/
def descAngleBad (s : State) (d : Desc) : Bool :=
  let n := chanTrk s d.ch
  let l := cycleLen s n
  let two := s.flag (AT_WCFG_CYCLE n)
  let high (x : Nat) : Bool := two && bitAt x 23
  (d.mode != 3 && high d.a1) || ((d.mode == 0 || d.mode == 2) && (high d.a2 || Nat.ble (l / 2) ((d.a2 + l - d.a1 % l) % l)))

/-- Whether a descriptor of a channel of the group `grp` is invalid (R105). -/
def descInvalid (s : State) (d : Desc) (grp : Option Nat) : Bool :=
  d.reserved || grp != some (d.ch / 8) || descAngleBad s d || (d.prof != 15 && s.get (SCH_CHCFG_CRL d.ch) == 15)

/-- The group that sequencer `n` owns. -/
def groupOf (s : State) (n : Nat) : Option Nat := bif s.flag (ESQ_OWN_VALID n) then some (s.get (ESQ_OWN_GRP n)) else none

/-- The descriptor of event `e` in a bank, or its trim, holds an uncorrectable error (R105). -/
def eventBad (s : State) (b : Bool) (e : Nat) : Bool :=
  !s.ecc.isEmpty && (s.ecc.any fun a =>
    (Nat.ble (eventAddr b e) a && Nat.blt a (eventAddr b e + 16)) || (Nat.ble (trimAddr e) a && Nat.blt a (trimAddr e + 8)))

/-- The tables as the pass under way reads them, with their ECC: a write made during the pass is used from the next one, and an
error that it overwrites is still met (R21, R104, R105, R121). -/
def passView (s : State) : State :=
  { s.held.foldl (fun u p => u.wr p.1 p.2.1) s with
      ecc := (s.ecc.filter fun a => !s.held.any fun p => p.1 == a) ++ (s.held.filter fun p => p.2.2).map fun p => p.1 }

/-- The words at `as` are about to be written: the pass under way goes on reading what they hold, good or bad (R21, R104). -/
def holdWords (as : List Nat) (s : State) : State :=
  { s with held := s.held ++ (as.filter fun a => !s.held.any fun p => p.1 == a).map fun a => (a, s.rd a, s.ecc.contains a) }

/-- An uncorrectable error met in a descriptor or trim of channel `c` (R105). -/
def eventEcc (c : Nat) (s : State) : State :=
  ((s.setb (SCH_CHSTAT_EVECC c) true).setb SCH_ERRINFO_ECC true).pulse 253

/-- The events enabled in bank `b`: those whose word 0 has EN set. -/
def enabledEvents (s : State) (b : Bool) : List Nat :=
  (s.regs.filter fun r => Nat.ble (eventAddr b 0) r.1 && Nat.blt r.1 (eventAddr b 1024) && r.1 % 16 == 0 &&
    bitAt r.2.toNat 25).map fun r => (r.1 - eventAddr b 0) / 16

/-! ### Forecast (R108, R110) -/

/-- Distance from a snapshot angle to `x` in the direction of rotation (R107, R118). -/
def distTo (l : Nat) (v : Snap) (x : Int) : Nat :=
  ((bif v.dir then (v.angle : Int) - x else x - v.angle) % (l : Int)).toNat

/-- Forecast of the time from the snapshot at which the angle reaches `x` (R108). -/
def forecast (l : Nat) (v : Snap) (x : Int) : Option Int :=
  let d := distTo l v x
  bif Nat.ble (l / 2) d || v.rate == 0 then none
  else
    let t1 := min (2 ^ 48 - 1) (rndNat (d * 2 ^ 24) v.rate)
    let c := clampInt (-((t1 / 4 : Nat) : Int)) ((t1 / 4 : Nat) : Int) (rnd (v.acc * t1 * t1) (v.rate * 2 ^ 17))
    some (t1 - c)

/-- The forecast angle `t` tk after the snapshot (R108). -/
def forecastAngle (l : Nat) (v : Snap) (t : Int) : Int :=
  let inc : Nat := (v.rate * t * 2 ^ 17 + v.acc * t * t).toNat / 2 ^ 41
  (bif v.dir then (v.angle : Int) - inc else v.angle + inc) % (l : Int)

/-- The commit horizon of tracker `n` (R110). -/
def horizon (s : State) (n : Nat) (v : Snap) : Nat :=
  let ht := s.get (SCH_HT_HT n)
  let ha := s.get (SCH_HA_HA n)
  let a := bif ha == 0 then (activeWheel s n).ngap else ha
  bif v.rate == 0 || a == 0 then ht else max ht (a * 2 ^ 24 / v.rate)

/-! ### Occurrences in their units -/

/-- Change the output unit of channel `c`. -/
def State.modUnit (s : State) (c : Nat) (f : OutUnit → OutUnit) : State := s.putUnit c (f (s.unit c))

/-- An occurrence goes to DONE; EN of a ONCE event clears (R107). -/
def occDone (e : Nat) (s : State) : State :=
  let o := s.occ e
  let s1 := s.putOcc e { o with st := .done }
  let a := eventAddr o.bank e
  bif o.desc.once then s1.wrn a (putBits (s1.rdn a) 25 1 0) else s1

/-- An occurrence takes the descriptor and trim that the tables of `v` hold, and MINW of its channel (R114). -/
def occLatch (v : State) (e : Nat) (b : Bool) (s : State) : State :=
  let a := eventAddr b e
  s.putOcc e { s.occ e with w0 := v.rd a, w1 := v.rd (a + 4), w2 := v.rd (a + 8), w3 := v.rd (a + 12),
                            atrim := atrimOf v e, dtrim := dtrimOf v e, bank := b,
                            minw := s.get (SCH_WIDTH_MINW (bitsAt (v.rdn (a + 12)) 0 6)) }

/-- The committed edges of event `e` leave the unit of channel `c`. -/
def dropEdges (c e : Nat) (s : State) : State := s.modUnit c fun u => { u with edges := u.edges.filter fun x => x.ev != e }

/-- Whether event `e` has a committed end in the unit of channel `c`. -/
def hasEnd (s : State) (c e : Nat) : Bool := (s.unit c).edges.any fun x => x.ev == e && !x.start

/-- A committed start not yet reached is cancelled, with its end (R119, R120, R126). -/
def cancelOcc (c e : Nat) (s : State) : State := occDone e (dropEdges c e (s.setb (SCH_CHSTAT_CANCEL c) true))

/-- The pulse under way on channel `c` ends now; its edges leave the unit. -/
def pulseStop (c : Nat) (s : State) : State :=
  match (s.unit c).pulse with
  | none => s
  | some p => occDone p.ev ((dropEdges c p.ev s).modUnit c fun u => { u with pulse := none, shown := false, prevEnd := some s.now })

/-- A record of the schedule digest (R113, R381); those older than eight frames are let go. -/
def digest (c : Nat) (level cut : Bool) (tb pass : Nat) (s : State) : State :=
  { s with ring := { s.ring with
      digs := (s.ring.digs.filter fun r => Nat.blt pass (r.pass + 1024)) ++ [{ chan := c, level := level, cut := cut, tb := tb, pass := pass }] } }

/-- Whether edge `a` comes before edge `b`: in TB order, an end before a start in the same tk (R111, R117); `own` says that `a` ends
a pulse that starts in its own tk, and so comes after that start. -/
def edgeBefore (own : Bool) (a b : Edge) : Bool := Nat.blt a.tb b.tb || (!own && a.tb == b.tb && !a.start && b.start)

/-- Put an edge in its place. -/
def insertEdge (own : Bool) (x : Edge) : List Edge → List Edge
  | [] => [x]
  | y :: ys => bif edgeBefore own x y then x :: y :: ys else y :: insertEdge own x ys

/-- Put an edge in its place among the committed edges of its channel (R111, R117). -/
def placeEdge (x : Edge) (l : List Edge) : List Edge :=
  insertEdge (l.any fun y => y.start && y.ev == x.ev && y.tb == x.tb) x l

/-- An edge enters the unit of channel `c`, and the digest (R111, R113). -/
def commitEdge (c : Nat) (x : Edge) (pass : Nat) (s : State) : State :=
  digest c x.start false x.tb pass (s.modUnit c fun u => { u with edges := placeEdge x u.edges })

/-- The channel's previous end: the latest committed end, else the end of its last pulse (R122). -/
def prevEndOf (u : OutUnit) : Option Nat :=
  (u.edges.filter fun x => !x.start).foldl (fun acc x => match acc with | some m => some (max m x.tb) | none => some x.tb) none
    |>.orElse fun _ => u.prevEnd

/-- A pulse of the channel, under way or committed, has no committed end (R122). -/
def openPulse (s : State) (c : Nat) : Bool :=
  let u := s.unit c
  (match u.pulse with | some p => !hasEnd s c p.ev | none => false) || u.edges.any fun x => x.start && !hasEnd s c x.ev

/-! ### The commit check (R122) -/

/-- Angle `x` lies in the window of channel `c` (R122). -/
def inWindow (s : State) (c l : Nat) (x : Int) : Bool :=
  let lo : Int := s.get (SCH_WLO_WLO_A c)
  let hi : Int := s.get (SCH_WHI_WHI_A c)
  decide ((x - lo) % (l : Int) ≤ (hi - lo) % (l : Int))

/-- What the commit check decides. -/
inductive Verdict where
  | wait
  | skip
  | take (start : Int) (end_ : Option Int) (clamped : Bool)
  deriving DecidableEq, Repr

/-- The window check of a start, and of an end that commits with it: times from the snapshot (R122). None: skip. -/
def windowCheck (s : State) (c l : Nat) (v : Snap) (t : Int) (e : Option Int) : Option (Int × Option Int × Bool) :=
  let clamp := s.flag (SCH_CHCFG_CLAMP c)
  let okS := inWindow s c l (forecastAngle l v t)
  let okE := match e with | some x => inWindow s c l (forecastAngle l v x) | none => true
  bif okS && okE then some (t, e, false)
  else bif !clamp then none
  else
    let st := bif okS then some t else forecast l v (s.get (SCH_WLO_WLO_A c))
    let en := bif okE then some e else (forecast l v (s.get (SCH_WHI_WHI_A c))).map some
    match st, en with
    | some t1, some e1 =>
      let late := match e1 with | some x => decide (x ≤ t1) | none => false
      bif !okS && (decide (t1 < 80) || late) then none else some (t1, e1, true)
    | _, _ => none

/-- MINOFF, MINW and MAXDUR, in TB (R122). -/
def timeCheck (s : State) (c : Nat) (start : Int) (end_ : Option Int) (clamped : Bool) : Verdict :=
  let clamp := s.flag (SCH_CHCFG_CLAMP c)
  let minw : Int := s.get (SCH_WIDTH_MINW c)
  let maxdur : Int := s.get (SCH_MAXDUR_MAXDUR c)
  let floor_ : Int := match prevEndOf (s.unit c) with | some p => p + s.get (SCH_WIDTH_MINOFF c) | none => start
  let early := decide (start < floor_)
  bif early && !clamp then .skip
  else
    let st := bif early then floor_ else start
    let short := match end_ with | some e => decide (e - st < minw) | none => false
    bif short || decide (maxdur < minw) || maxdur == 0 then .skip
    else
      let long := match end_ with | some e => decide (maxdur < e - st) | none => false
      .take st (bif long then some (st + maxdur) else end_) (clamped || early || long)

/-- The commit check of an occurrence on channel `c`: times in TB; `v` is none for a TD occurrence (R111, R122). -/
def commitCheck (s : State) (c l pass : Nat) (v : Option Snap) (start : Int) (end_ : Option Int) : Verdict :=
  let u := s.unit c
  bif Nat.blt 16 (u.edges.length + (bif end_.isSome then 2 else 1)) || openPulse s c then .wait
  else
    match v with
    | none => timeCheck s c start end_ false
    | some w =>
      bif Nat.ble (s.get (SCH_CHCFG_MAXPC c)) u.starts then .skip
      else
        match windowCheck s c l w (start - pass) (end_.map (· - pass)) with
        | none => .skip
        | some (t, e, moved) => timeCheck s c (t + pass) (e.map (· + pass)) moved

/-- Add one to a pass result count (R137, ERES). -/
def tallyPass (n : Nat) (f : Esq → Esq) (s : State) : State := s.putEsq n (f (s.esq n))

/-- An occurrence is skipped by a sweep or a full unit (R111, R116). -/
def skipOcc (n : Option Nat) (c e : Nat) (s : State) : State :=
  let s1 := occDone e ((s.setb (SCH_CHSTAT_SKIP c) true).tally (SCH_CHSTAT_SKIPCNT c))
  match n with | some k => tallyPass k (fun q => { q with skips := q.skips + 1 }) s1 | none => s1

/-- An occurrence is skipped by the envelope (R122). -/
def envSkipOcc (n : Option Nat) (c e : Nat) (s : State) : State :=
  let s1 := occDone e ((s.setb (SCH_CHSTAT_ENVSKIP c) true).tally (SCH_CHSTAT_SKIPCNT c))
  match n with | some k => tallyPass k (fun q => { q with skips := q.skips + 1 }) s1 | none => s1

/-- A clamp is flagged and counted (R122). -/
def flagClamp (n : Option Nat) (c : Nat) (s : State) : State :=
  let s1 := (s.setb (SCH_CHSTAT_CLAMPED c) true).tally (SCH_CHSTAT_CLAMPCNT c)
  match n with | some k => tallyPass k (fun q => { q with clamps := q.clamps + 1 }) s1 | none => s1

/-- Commit the first edges of an occurrence whose check passed: ARMED, with the descriptor latched (R107, R114, R122). DEDUCED:
a TD start does not count to MAXPC, which TD events ignore; and ERES counts as one commit a start together with the end that commits
with it, and an AA end by itself as another (R122, R137, log 76). -/
def commitTake (n : Option Nat) (c e pass : Nat) (start : Int) (end_ : Option Int) (clamped td : Bool) (s : State) : State :=
  let st := start.toNat
  let s1 := commitEdge c { tb := st, start := true, ev := e } pass s
  let s2 := match end_ with | some x => commitEdge c { tb := x.toNat, start := false, ev := e } pass s1 | none => s1
  let s3 := whenS (!td) (·.modUnit c fun u => { u with starts := u.starts + 1 }) s2
  let s4 := s3.putOcc e { s3.occ e with st := .armed, start := st, end_ := end_.map (·.toNat) }
  let s5 := match n with | some k => tallyPass k (fun q => { q with commits := q.commits + 1 }) s4 | none => s4
  whenS clamped (flagClamp n c) s5

/-- Try to commit: the occurrence waits as PENDING, is skipped, or is ARMED. -/
def tryCommit (n : Option Nat) (c l e pass : Nat) (b : Bool) (v : Option Snap) (start : Int) (end_ : Option Int) (s : State) : State :=
  match commitCheck s c l pass v start end_ with
  | .wait => s
  | .skip => envSkipOcc n c e (occLatch (passView s) e b s)
  | .take st en cl => commitTake n c e pass st en cl v.isNone (occLatch (passView s) e b s)

/-! ### The pass (R107, R115 to R118) -/

/-- The start target of a descriptor, or its end angle in ED (R107). -/
def Desc.target (d : Desc) : Int := (bif d.mode == 2 then (d.a2 : Int) else d.a1) + d.atrim

/-- DIR allows the direction of a snapshot (R118). -/
def Desc.allows (d : Desc) (rev : Bool) : Bool := d.dir == 2 || d.dir == rev.toNat

/-- The target is still ahead. -/
def Desc.ahead (d : Desc) (l : Nat) (v : Snap) : Bool := Nat.blt (distTo l v d.target) (l / 2)

/-- The pending condition (R107). -/
def Desc.pends (d : Desc) (l : Nat) (v : Snap) : Bool :=
  d.ahead l v && (d.mode != 2 || Nat.ble (l / 2) (distTo l v d.a1) || distTo l v d.a1 == 0)

/-- A swept start follows the SWEPT policy (R115, R116). `endT` is the forecast of the ED end, from the snapshot. -/
def sweptStart (n c l e pass : Nat) (b : Bool) (v : Snap) (d : Desc) (endT : Option Int) (s0 : State) : State :=
  let s := tallyPass n (fun q => { q with sweeps := q.sweeps + 1 }) (s0.setb (SCH_CHSTAT_SWEPT c) true)
  let now_ : Int := pass + 80
  let minw : Int := s.get (SCH_WIDTH_MINW c)
  let trunc (last : Option Int) (end_ : Option Int) : State :=
    match last with
    | none => skipOcc (some n) c e (occLatch (passView s) e b s)
    | some x => bif decide (x - now_ < minw) then skipOcc (some n) c e (occLatch (passView s) e b s)
        else tryCommit (some n) c l e pass b (some v) now_ end_ s
  match d.swept with
  | 0 => tryCommit (some n) c l e pass b (some v) now_ (bif d.mode == 0 then none else some (now_ + d.dprime)) s
  | 2 =>
    match d.mode with
    | 0 => trunc ((forecast l v (d.a2 + d.atrim)).map (· + pass)) none
    | 1 =>
      let last : Option Int := (s.occ e).lastStart.map fun x => (x : Int) + d.dprime
      trunc last last
    | _ => trunc (endT.map (· + pass)) (endT.map (· + pass))
  | _ => skipOcc (some n) c e (occLatch (passView s) e b s)

/-- A PENDING occurrence in a pass: its start commits, is swept, or waits (R107, R115). -/
def pendPass (n c l e pass : Nat) (b : Bool) (v : Snap) (d : Desc) (s : State) : State :=
  let t := forecast l v d.target
  let st : Option Int := t.map fun x => bif d.mode == 2 then x - d.dprime else x
  let en : Option Int := match d.mode with
    | 0 => none
    | 1 => t.map (· + (d.dprime : Int))
    | _ => t
  let late := match st with | some x => decide (x < 80) | none => false
  bif !d.ahead l v || late then sweptStart n c l e pass b v d t s
  else
    match st with
    | none => s
    | some x =>
      let s1 := s.putOcc e { s.occ e with lastStart := some (x + pass).toNat }
      bif decide (x ≤ horizon s (chanTrk s c) v) then tryCommit (some n) c l e pass b (some v) (x + pass) (en.map (· + pass)) s1
      else s1

/-- The end of an AA pulse in a pass: it commits when it is within the horizon or swept, moved by the checks of R122
(R107, R117, R122). -/
def endPass (n e pass : Nat) (s : State) : State :=
  let o := s.occ e
  let d := o.desc
  let c := d.ch
  let k := chanTrk s c
  let l := cycleLen s k
  let v := (s.esq n).snaps.getD k {}
  let x := (d.a2 : Int) + d.atrim
  let t := forecast l v x
  let ahead := Nat.blt (distTo l v x) (l / 2)
  let due : Option Int := match t with
    | some y => bif decide (y ≤ horizon s k v) then some (max y 80) else none
    | none => bif ahead then none else some 80
  bif v.sync != 4 || !d.allows v.dir || Nat.ble 16 (s.unit c).edges.length then s
  else
    match due with
    | none => s
    | some y =>
      let okW := inWindow s c l (forecastAngle l v y)
      let y1 := bif okW then y else
        match forecast l v (s.get (SCH_WHI_WHI_A c)) with
        | some z => bif decide (z < 80) then 80 else z
        | none => 80
      let e1 := y1 + pass
      let minw : Int := o.minw
      let e2 := bif decide (e1 - o.start < minw) then o.start + minw else e1
      let maxdur : Int := s.get (SCH_MAXDUR_MAXDUR c)
      let e3 := bif decide (maxdur < e2 - o.start) then o.start + maxdur else e2
      let s1 := commitEdge c { tb := e3.toNat, start := false, ev := e } pass s
      let s2 := s1.putOcc e { s1.occ e with st := .ending, end_ := some e3.toNat }
      let s3 := tallyPass n (fun q => { q with commits := q.commits + 1 }) s2
      whenS (e3 != e2) (flagClamp (some n) c) (whenS (e2 != e1) (flagClamp (some n) c) (whenS (!okW) (flagClamp (some n) c) s3))

/-- One evaluation of event `e` by sequencer `n` in the pass of its snapshot (R105, R107, R139). -/
def evalEvent (n e : Nat) (s : State) : State :=
  let o := s.occ e
  let pass := (s.esq n).passTb.getD 0
  let b := eventBank (passView s) e
  let d := eventDesc (passView s) b e
  let ecc := d.en && eventBad (passView s) b e
  let bad := d.en && !ecc && descInvalid s d (groupOf s n)
  let s1 := whenS bad (·.setb (SCH_CHSTAT_EVINV d.ch) true) (whenS ecc (eventEcc d.ch) s)
  match o.st with
  | .armed => s1
  | .ending => s1
  | .on => endPass n e pass s1
  | st =>
    bif ecc then s1
    else
      let idle := s1.putOcc e {}
      let k := chanTrk s d.ch
      let l := cycleLen s k
      let v := (s.esq n).snaps.getD k {}
      bif st == .done then
        let od := o.desc
        let ko := chanTrk s od.ch
        bif od.mode != 3 && d.mode != 3 && od.ahead (cycleLen s ko) ((s.esq n).snaps.getD ko {}) then s1 else idle
      else bif d.mode == 3 then idle
      else bif bad || !d.en || v.sync != 4 || !d.allows v.dir then idle
      else bif st == .pending then pendPass n d.ch l e pass b v d s1
      else bif d.pends l v then pendPass n d.ch l e pass b v d (s1.putOcc e { st := .pending })
      else s1

/-! ### TD triggers (R106, R107, R111) -/

/-- An occurrence of event `e` is ARMED, ON or ENDING. -/
def occLive (s : State) (e : Nat) : Bool :=
  match (s.occ e).st with
  | .armed => true
  | .on => true
  | .ending => true
  | _ => false

/-- A TD occurrence starts at trigger TB `t` + 80, or is skipped (R106, R111, R122). DESIGN CHOICE: while the channel's AA pulse has no
committed end, a TD occurrence, which has no pass to wait in, is skipped with CHSTAT.SKIP as one that finds the unit full (log
entry 20). -/
def tdStart (e t : Nat) (s : State) : State :=
  let b := eventBank s e
  let d := eventDesc s b e
  let s1 := occLatch s e b (s.putOcc e {})
  match commitCheck s d.ch 0 t none (t + 80) (some (t + 80 + d.dprime)) with
  | .wait => skipOcc none d.ch e s1
  | .skip => envSkipOcc none d.ch e s1
  | .take st en cl => commitTake none d.ch e t st en cl true s1

/-- A compare event of channel 0 of timer `m` triggers event `e`, if it is an enabled TD event of that trigger (R105, R107). -/
def tdTriggerOne (m e : Nat) (s : State) : State :=
  let b := eventBank s e
  let d := eventDesc s b e
  bif !(d.en && d.mode == 3 && d.trig == m && ownerRuns s d.ch) then s
  else bif eventBad s b e then eventEcc d.ch s
  else bif descInvalid s d ((ownerOf s d.ch).bind (groupOf s)) then s
  else bif occLive s e then (s.setb (SCH_CHSTAT_TDOVR d.ch) true).tally (SCH_CHSTAT_SKIPCNT d.ch)
  else tdStart e s.now s

/-- A compare event of channel 0 of timer `m` triggers the TD events that name it (R107, R197). -/
def tdTrigger (m : Nat) (s : State) : State :=
  let es := (enabledEvents s false) ++ ((enabledEvents s true).filter fun e => !(enabledEvents s false).contains e)
  es.foldl (fun u e => tdTriggerOne m e u) s

/-! ### Banks (R121) -/

/-- The switch points that a request for tracker `n` needs: in CYCLE mode BANG; in CYLINDER mode those of its events as they stand. -/
def switchKeys (s : State) (cyl : Bool) (n : Nat) : List Nat :=
  bif !cyl then [32 * n + 24]
  else
    let act := bitAt (s.get SCH_BSTAT_ACT) n
    let es := (enabledEvents s false ++ enabledEvents s true).filter fun e => chanTrk s (eventChanA s e) == n
    ((es.map (switchKey s true act n)).eraseDups)

/-- BSTAT.REFUSED is set and nothing else changes (R121). -/
def bankRefuse (s : State) : State := s.setb SCH_BSTAT_REFUSED true

/-- A bank request or copy is pending, so that a request is refused; a copy is refused only while a copy runs (R121). -/
def bankBusy (s : State) : Bool := s.get SCH_BSTAT_PEND != 0 || s.flag SCH_BCTL_REQ || s.flag SCH_BSTAT_COPYBUSY

/-- Whether a request for the trackers of `mask` must be refused (R121). -/
def switchRefused (s : State) (mask : Nat) : Bool :=
  let act := s.get SCH_BSTAT_ACT &&& mask
  bankBusy s || mask == 0 || !(act == 0 || act == mask)

/-- A write of BCTL takes the RW fields of `image`. -/
def bctlFields (image : Nat) (s : State) : State :=
  ((s.setb SCH_BCTL_CMODE (bitAt image 8)).setb SCH_BCTL_SRC (bitAt image 4)).set SCH_BCTL_TRKMSK (bitsAt image 0 4)

/-- A bank switch is requested for the trackers of BCTL.TRKMSK (R121). -/
def bankRequest (s : State) : State :=
  let mask := s.get SCH_BCTL_TRKMSK
  let atOnce := (List.range 4).filter fun n => bitAt mask n && syncState s n != 4
  { (s.setb SCH_BCTL_REQ true).set SCH_BSTAT_PEND mask with
      bankCyl := s.flag SCH_BCTL_CMODE, switched := atOnce.map fun n => 32 * n + 31 }

/-- The switch of tracker `n` completes (R121). -/
def bankComplete (n : Nat) (s : State) : State :=
  let pend := putBits (s.get SCH_BSTAT_PEND) n 1 0
  let act := s.get SCH_BSTAT_ACT
  let s1 := (s.set SCH_BSTAT_PEND pend).set SCH_BSTAT_ACT (putBits act n 1 (bitAt act n == false).toNat)
  let s2 := { s1 with switched := s1.switched.filter fun k => k / 32 != n }
  bif pend == 0 then { (endJob s2.bankJob 0 0 (s2.setb SCH_BCTL_REQ false)) with bankJob := 0 } else s2

/-- The angle of a switch point. -/
def keyAngle (s : State) (k : Nat) : Nat :=
  bif k % 32 == 24 then s.get (SCH_BANG_ANG (k / 32)) else s.get (SCH_CREF_ANG (k % 32))

/-- Whether the angle has reached `x` between two snapshots, in the direction of rotation, from before it (R121, R231): after a
reversal that leaves the angle on the far side, it has moved the other way and has reached nothing in its direction. -/
def reached (l : Nat) (prev cur : Snap) (x : Nat) : Bool :=
  let d := distTo l { prev with dir := cur.dir } x
  let moved := distTo l { prev with dir := cur.dir } cur.angle
  d != 0 && Nat.ble d moved && Nat.blt moved (l / 2)

/-- The switch points that the snapshots of a pass have reached; the switch completes when those of all events have come (R121). -/
def bankPassOne (prev cur : List Snap) (n : Nat) (s : State) : State :=
  bif !bitAt (s.get SCH_BSTAT_PEND) n then s
  else
    let v := cur.getD n {}
    let hit (k : Nat) : Bool := !s.switched.contains k && reached (cycleLen s n) (prev.getD n {}) v (keyAngle s k)
    let s1 := { s with switched := s.switched ++ ((List.range 25).map (32 * n + ·)).filter hit }
    bif v.sync != 4 || s.switched.contains (32 * n + 31) || (switchKeys s1 s1.bankCyl n).all (s1.switched.contains ·) then
      bankComplete n s1
    else s1

/-- The bank switch points of a pass, tracker by tracker (R121). -/
def bankPass (prev cur : List Snap) (s : State) : State := upTo 4 (bankPassOne prev cur) s

/-- A copy of bank SRC over the other starts (R121). -/
def bankCopyStart (s : State) : State :=
  { (s.setb SCH_BCTL_COPY true).setb SCH_BSTAT_COPYBUSY true with copyTb := s.now, copySrc := s.flag SCH_BCTL_SRC }

/-- A write of BCTL (R121): a request, a copy, a refusal of either, or of both in one write. -/
def bctlWrite (image : Nat) (s : State) : State :=
  let req := bitAt image 31
  let cp := bitAt image 30
  let mask := bitsAt image 0 4
  bif (req && cp) || (req && switchRefused s mask) || (cp && s.flag SCH_BSTAT_COPYBUSY) then bankRefuse s
  else whenS cp bankCopyStart (whenS req bankRequest (bctlFields image s))

/-- Words of bank `src` copied over the other bank. -/
def bankCopied (src : Bool) (s : State) : State :=
  let from_ := eventAddr src 0
  let to_ := eventAddr (!src) 0
  let words := s.regs.filter fun r => Nat.ble from_ r.1 && Nat.blt r.1 (from_ + 0x4000)
  words.foldl (fun u r => u.wr (r.1 - from_ + to_) r.2) (s.clearRegs to_ 0x4000)

/-- The copy is done 4096 BUSCLK cycles (2731 tk) after its start (R121). -/
def bankCopyDone (s : State) : State :=
  bif !(s.flag SCH_BSTAT_COPYBUSY && Nat.ble (s.copyTb + 2731) s.now) then s
  else
    let s1 := bankCopied s.copySrc s
    { (endJob s1.copyJob 0 0 ((s1.setb SCH_BSTAT_COPYBUSY false).setb SCH_BCTL_COPY false)) with copyJob := 0 }

/-- SCH.BCTL.REQ is set (R121). -/
def execBankSwitchRequest (image : Word) (s : State) : Host.Outcome State Fault Refusal :=
  done (inAngle s (bctlWrite (putBits image.toNat 31 1 1)))

/-- SCH.BCTL.COPY is set (R121). -/
def execBankCopyStart (image : Word) (s : State) : Host.Outcome State Fault Refusal :=
  done (inAngle s (bctlWrite (putBits image.toNat 30 1 1)))

/-- The bank copy completes (R121). -/
def execBankCopyDone (s : State) : Host.Outcome State Fault Refusal := done (inAngle s bankCopyDone)

end Sys2Proof.Machine
end

