-- ==== Sys2Proof/Machine/Envelope.lean ====
section
/-! DEFINITION. The envelope check of descriptor and trim writes (R123). -/

namespace Sys2Proof.Machine

open Fields

/-- The base angles of the edges of a descriptor that the window check sees: A1 or A2, without trim (R123). -/
def Desc.edgeBases (d : Desc) : List Nat :=
  match d.mode with
  | 0 => [d.a1, d.a2]
  | 1 => [d.a1]
  | 2 => [d.a2]
  | _ => []

/-- Cycle length of the tracker of channel `c`. -/
def chanCycle (s : State) (c : Nat) : Nat := cycleLen s (chanTrk s c)

/-- D′ above MAXDUR (ENV_DUR). -/
def envLong (s : State) (d : Desc) : Bool := d.mode != 0 && Nat.blt (s.get (SCH_MAXDUR_MAXDUR d.ch)) d.dprime

/-- D′ below MINW (ENV_WIDTH). -/
def envShort (s : State) (d : Desc) : Bool := d.mode != 0 && Nat.blt d.dprime (s.get (SCH_WIDTH_MINW d.ch))

/-- An edge angle outside the window (ENV_WINDOW). -/
def envOutside (s : State) (d : Desc) : Bool :=
  d.edgeBases.any fun x => !inWindow s d.ch (chanCycle s d.ch) ((x : Int) + d.atrim)

/-- How many enabled non-TD events of channel `c` in bank `b` the direction `rev` allows; event `e` counts as `d`. -/
def envCount (s : State) (b : Bool) (e : Nat) (d : Desc) (rev : Bool) : Nat :=
  let others := ((enabledEvents s b).filter fun i => i != e).filter fun i =>
    let x := eventDesc s b i
    x.mode != 3 && x.ch == d.ch && x.allows rev
  others.length + (d.en && d.mode != 3 && d.allows rev).toNat

/-- ENV_COUNT. -/
def envMany (s : State) (b : Bool) (e : Nat) (d : Desc) : Bool :=
  let m := s.get (SCH_CHCFG_MAXPC d.ch)
  d.mode != 3 && (Nat.blt m (envCount s b e d false) || Nat.blt m (envCount s b e d true))

/-- The bound of the window of channel `c` that is nearer to angle `x`. -/
def nearBound (s : State) (c l : Nat) (x : Int) : Int :=
  let lo : Int := s.get (SCH_WLO_WLO_A c)
  let hi : Int := s.get (SCH_WHI_WHI_A c)
  bif decide ((lo - x) % (l : Int) ≤ (x - hi) % (l : Int)) then lo else hi

/-- A base angle whose edge is brought into the window. -/
def clampAngle (s : State) (d : Desc) (a : Nat) : Nat :=
  let l := chanCycle s d.ch
  let x := (a : Int) + d.atrim
  bif inWindow s d.ch l x then a else ((nearBound s d.ch l x - d.atrim) % (l : Int)).toNat

/-- The four words of a descriptor write, checked: its status and the words to be written (R123). Where no DUR brings D′ into MINW to
MAXDUR, no value can be written within range, and the write fails whatever CLAMP says. -/
def envDescriptor (s : State) (b : Bool) (e w0 w1 w2 w3 : Nat) : Nat × Nat × Nat × Nat × Nat :=
  let d := descOf w0 w1 w2 w3 (atrimOf s e) (dtrimOf s e)
  let minw := s.get (SCH_WIDTH_MINW d.ch)
  let maxdur := s.get (SCH_MAXDUR_MAXDUR d.ch)
  let long := envLong s d
  let short := envShort s d
  let out := envOutside s d
  let many := envMany s b e d
  let keep (st : Nat) := (st, w0, w1, w2, w3)
  let dur : Int := bif long || short then ((min maxdur (max minw d.dprime) : Nat) : Int) - d.dtrim else w2
  let beyond := decide (dur < 0) || decide (0xFFFFFFFF < dur)
  bif !d.en || !(long || short || out || many) then keep 0
  else bif !s.flag (SCH_CHCFG_CLAMP d.ch) || many || ((long || short) && (Nat.blt maxdur minw || beyond)) then
    keep (bif long then 0x0301 else bif short then 0x0302 else bif out then 0x0303 else 0x0304)
  else
    let use1 := d.mode == 0 || d.mode == 1
    let use2 := d.mode == 0 || d.mode == 2
    let v0 := bif use1 then putBits w0 0 24 (clampAngle s d d.a1) else w0
    let v1 := bif use2 then putBits w1 0 24 (clampAngle s d d.a2) else w1
    (0x0310, v0, v1, dur.toNat, w3)

/-- The enabled descriptors of event `e`, in either bank, with a trim. -/
def trimDescs (s : State) (e : Nat) (at_ dt : Int) : List Desc :=
  ([false, true].map fun b =>
    let a := eventAddr b e
    descOf (s.rdn a) (s.rdn (a + 4)) (s.rdn (a + 8)) (s.rdn (a + 12)) at_ dt).filter (·.en)

/-- Whether a trim violates the envelope of one of the descriptors (ENV_TRIM). -/
def trimBad (s : State) (ds : List Desc) : Bool := ds.any fun d => envLong s d || envShort s d || envOutside s d

/-- The ATRIM values that can be nearest: the requested one, and those that put an edge on a bound of its window. -/
def trimCandidates (s : State) (ds : List Desc) (at_ : Int) : List Int :=
  let near (l x bound : Int) : List Int :=
    let c : Int := (bound - x) % l
    [c - 2 * l, c - l, c, c + l].filter fun v => decide (-8388608 ≤ v) && decide (v < 8388608)
  let of (d : Desc) : List Int :=
    let l : Int := (chanCycle s d.ch : Nat)
    d.edgeBases.foldl (fun acc x => acc ++ near l (x : Nat) (s.get (SCH_WLO_WLO_A d.ch) : Nat) ++
      near l (x : Nat) (s.get (SCH_WHI_WHI_A d.ch) : Nat)) []
  at_ :: ((ds.filter (·.trimen)).foldl (fun acc d => acc ++ of d) [])

/-- Whether `a` is nearer to `at_` than `b`, or as near and of smaller magnitude. -/
def trimNearer (at_ a b : Int) : Bool :=
  Nat.blt (a - at_).natAbs (b - at_).natAbs || ((a - at_).natAbs == (b - at_).natAbs && Nat.blt a.natAbs b.natAbs)

/-- The bounds of DTRIM that bring D′ of a descriptor into MINW to MAXDUR. -/
def dtrimBounds (s : State) (d : Desc) : Int × Int :=
  let minw : Int := s.get (SCH_WIDTH_MINW d.ch)
  let maxdur : Int := s.get (SCH_MAXDUR_MAXDUR d.ch)
  bif d.mode == 0 then (-32768, 32767)
  else bif d.closefb then (bif decide (0 < minw) then max (-32768) (minw - d.dur) else -32768, min 32767 (maxdur - d.dur))
  else bif decide (minw ≤ d.dur) && decide (d.dur ≤ maxdur) then (-32768, 32767)
  else (1, 0)

/-- A trim write of event `e`, checked: its status and the trim to be written (R123). -/
def envTrim (s : State) (e : Nat) (at_ dt : Int) : Nat × Int × Int :=
  let ds := trimDescs s e at_ dt
  bif !trimBad s ds then (0, at_, dt)
  else bif !(ds.all fun d => s.flag (SCH_CHCFG_CLAMP d.ch)) then (0x0305, at_, dt)
  else
    let ok (a : Int) : Bool := !((trimDescs s e a dt).any (envOutside s))
    let good := (trimCandidates s ds at_).filter ok
    let lo := ds.foldl (fun m d => max m (dtrimBounds s d).1) (-32768)
    let hi := ds.foldl (fun m d => min m (dtrimBounds s d).2) 32767
    match good with
    | [] => (0x0305, at_, dt)
    | g :: gs =>
      bif decide (hi < lo) then (0x0305, at_, dt)
      else (0x0310, gs.foldl (fun m v => bif trimNearer at_ v m then v else m) g, clampInt lo hi dt)

/-- ATRIM of a trim entry is written. -/
def putAtrim (e : Nat) (v : Int) (s : State) : State :=
  let a := trimAddr e
  (holdWords [a] s).wrn a (putBits (s.rdn a) 0 24 (codeOf 24 v))

/-- DTRIM of a trim entry is written. -/
def putDtrim (e : Nat) (v : Int) (s : State) : State :=
  let a := trimAddr e + 4
  (holdWords [a] s).wrn a (putBits (s.rdn a) 0 16 (codeOf 16 v))

end Sys2Proof.Machine
end

