-- ==== Sys2Proof/Machine/Crl.lean ====
section
/-! DEFINITION. The current regulation loops: profiles, phases, gates and dead time, faults, closure detection, trims and
results, program banks, sense-offset calibration (R149 to R171). -/

namespace Sys2Proof.Machine

open Fields

/-! ### States and registers -/

/-- STATE codes of a loop (R157). -/
def loopOff : Nat := 0
def loopIdle : Nat := 1
def loopEnergise : Nat := 2
def loopTail : Nat := 3
def loopWatch : Nat := 4
def loopAnalyse : Nat := 5
def loopSpent : Nat := 6
def loopCal : Nat := 7
def loopFault : Nat := 8

/-- The state of loop `k` (R157). -/
def loopState (s : State) (k : Nat) : Nat := s.get (CRL_STAT_STATE k)

/-- Change the hidden part of loop `k`. -/
def State.modLoop (s : State) (k : Nat) (f : Loop → Loop) : State := s.putLoop k (f (s.loop k))

/-- The upper comparator of loop `k`, and the lower one (R149). -/
def cmpUp (k : Nat) : Nat := 4 + 2 * k
def cmpLo (k : Nat) : Nat := 5 + 2 * k

/-- The output of a comparator. -/
def cmpOut (s : State) (n : Nat) : Bool := s.flag (CMP_STAT_OUT n)

/-- Bit `base + k mod 6` of CSEn.EVT sets. -/
def cseEvent (k base : Nat) (s : State) : State :=
  s.wrn (Reg.CSE_EVT (k / 6)) (putBits (s.rdn (Reg.CSE_EVT (k / 6))) (base + k % 6) 1 1)

/-! ### Profiles (R158, R159) -/

/-- Address of a profile: bank `b`, number `p`, of the CSE that runs loop `k` (R158). -/
def profAddr (k : Nat) (b : Bool) (p : Nat) : Nat := 0x50090000 + k / 6 * 0x1000 + 0x400 + b.toNat * 0x600 + 0x80 * p

/-- The profile under way on loop `k`. -/
def loopProf (s : State) (k : Nat) : Nat :=
  profAddr k (s.flag (CRL_STAT_PBK k)) (match (s.loop k).msg with | some m => m.prof | none => 0)

/-- Number of phases of a profile. -/
def profPhases (s : State) (a : Nat) : Nat := bitsAt (s.rdn a) 0 3

/-- Word `w` of phase `p` of a profile. -/
def phaseWord (s : State) (a p w : Nat) : Nat := s.rdn (a + 0x10 + 16 * p + 4 * w)

/-- Word `w` of the end block of a profile. -/
def endWord (s : State) (a w : Nat) : Nat := s.rdn (a + 0x70 + 4 * w)

/-- Number of samples that a watch window stores (R163). -/
def watchCount (s : State) (a : Nat) : Nat := bitsAt (endWord s a 1) 0 20 / (10 * max 1 (bitsAt (endWord s a 0) 24 4))

/-- The words of phase `p` of a profile that a loop reads (R158, R159). -/
def phaseWords (a p : Nat) : List Nat := wordAddrs (a + 0x10 + 16 * p) 3

/-- The words of the end block that a loop reads: with WEN = 0 the first only (R158, R159). -/
def endWords (s : State) (a : Nat) : List Nat := wordAddrs (a + 0x70) (bif bitAt (endWord s a 0) 31 then 4 else 1)

/-- The words of a profile that a loop examines at a start. -/
def profWords (s : State) (a : Nat) : List Nat :=
  [a] ++ ((List.range (min 6 (profPhases s a))).flatMap (phaseWords a)) ++ endWords s a

/-- One of the words holds an uncorrectable error (R158). -/
def wordsBad (s : State) (ws : List Nat) : Bool := !s.ecc.isEmpty && ws.any fun w => s.ecc.contains w

/-- A used phase is invalid (R159). -/
def phaseBad (s : State) (a p : Nat) : Bool :=
  let w0 := phaseWord s a p 0
  bitsAt w0 30 2 == 3 || bitAt w0 27 || bitsAt w0 10 6 != 0 || bitsAt (phaseWord s a p 1) 24 8 != 0 ||
    bitsAt (phaseWord s a p 2) 16 16 != 0

/-- The end block is invalid, with WEN = 1 (R159). -/
def endBad (s : State) (a : Nat) : Bool :=
  let w0 := endWord s a 0
  let dec := bitsAt w0 24 4
  bitAt w0 31 && (bitsAt w0 28 2 != 0 || bitsAt w0 22 2 != 0 || bitsAt w0 10 6 != 0 || bitsAt (endWord s a 1) 20 12 != 0 ||
    bitsAt (endWord s a 2) 16 16 != 0 || bitsAt (endWord s a 3) 20 8 != 0 || dec == 0 || Nat.blt 8 dec || bitsAt w0 16 4 == 0 ||
    Nat.blt 80000 (bitsAt (endWord s a 1) 0 20) || Nat.blt 1024 (watchCount s a))

/-- A profile is invalid or holds an uncorrectable error (R158, R159). -/
def profBad (s : State) (a : Nat) : Bool :=
  let n := profPhases s a
  !bitAt (s.rdn a) 31 || n == 0 || Nat.blt 6 n || bitsAt (s.rdn a) 3 28 != 0 || someBelow n (phaseBad s a) || endBad s a ||
    wordsBad s (profWords s a)

/-- KIND of a phase: 0 RISE, 1 CHOP, 2 DECAY. -/
def phaseKind (s : State) (a p : Nat) : Nat := bitsAt (phaseWord s a p 0) 30 2

/-- BLNKC of a phase, at least 8 (R160). -/
def phaseBlank (s : State) (a p : Nat) : Nat := max 8 (bitsAt (phaseWord s a p 2) 0 16)

/-! ### Gates and dead time (R150, R151) -/

/-- TB from which a gate may come on after gate `o` went off at `t`. -/
def afterDead (dt : Nat) (t : Option Nat) : Nat := match t with | some x => x + dt | none => 0

/-- Blanking restarts after a gate change of the loop (R160). -/
def reblank (k : Nat) (s : State) : State :=
  let a := loopProf s k
  let p := s.get (CRL_STAT_PHASE k)
  s.modLoop k fun l => { l with blankTo := max l.blankTo (s.now + phaseBlank s a p) }

/-- Drive the gates toward `w0`, `w1`, `w2`: those to go off do so now, those to come on do so now or after the dead time
(R151). -/
def driveGates (k : Nat) (w0 w1 w2 : Bool) (s : State) : State :=
  let l := s.loop k
  let t := s.now
  let dt := s.get (CRL_CFG_DT k)
  let recirc := !s.flag (CRL_CFG_TOPO k)
  let o0 := bif l.g0 && !w0 then some t else l.off0
  let o1 := bif l.g1 && !w1 then some t else l.off1
  let o2 := bif l.g2 && !w2 then some t else l.off2
  let r0 := max (afterDead dt o1) (bif recirc then afterDead dt o2 else 0)
  let r1 := max (afterDead dt o0) (bif recirc then afterDead dt o2 else 0)
  let r2 := bif recirc then max (afterDead dt o0) (afterDead dt o1) else 0
  let n0 := w0 && (l.g0 || Nat.ble r0 t)
  let n1 := w1 && (l.g1 || Nat.ble r1 t)
  let n2 := w2 && (l.g2 || Nat.ble r2 t)
  let s1 := s.putLoop k { l with g0 := n0, g1 := n1, g2 := n2, wait0 := w0 && !n0, wait1 := w1 && !n1, wait2 := w2 && !n2,
                                 off0 := o0, off1 := o1, off2 := o2 }
  bif n0 == l.g0 && n1 == l.g1 && n2 == l.g2 then s1 else reblank k s1

/-- All gates off (R150). -/
def gatesOff (k : Nat) (s : State) : State :=
  s.modLoop k fun l => { l with g0 := false, g1 := false, g2 := false, wait0 := false, wait1 := false, wait2 := false }

/-- The source goes on, or off in the decay mode of phase `p`; the overcurrent check is armed or withdrawn
(R150, R160, R168). -/
def source (k p : Nat) (on : Bool) (s : State) : State :=
  let w0 := phaseWord s (loopProf s k) p 0
  let boost := bitAt w0 29
  let open_ := bitAt w0 28
  let banklow := s.flag (CRL_CFG_TOPO k)
  let was := (s.loop k).srcOn
  let s1 := bif on then driveGates k boost (!boost) banklow s else driveGates k false false (!open_) s
  s1.modLoop k fun l =>
    { l with srcOn := on, ovcTo := bif on then none else bif was then some (s.now + s.get (CRL_LIM_OCT k)) else l.ovcTo }

/-- A gate whose dead time has ended comes on (R151). -/
def deadEnd (k : Nat) (s : State) : State :=
  let l := s.loop k
  bif l.wait0 || l.wait1 || l.wait2 then driveGates k (l.g0 || l.wait0) (l.g1 || l.wait1) (l.g2 || l.wait2) s else s

/-! ### Results (R164 to R167) -/

/-- Sample `j` of the trace buffer of loop `k` (R163). -/
def traceAt (s : State) (k j : Nat) : Nat := bitsAt (s.rdn (0x5009A000 + k * 0x800 + 4 * (j / 2))) (16 * (j % 2)) 10

/-- Sum of the `m` stored samples that end at index `j`. -/
def sumAt (s : State) (k m j : Nat) : Int := ((List.range m).foldl (fun acc i => acc + traceAt s k (j - i)) 0 : Nat)

/-- The first index from `j` on at which the second difference reaches the threshold (R164). -/
def closureIndex (s : State) (k m lag slth : Nat) (neg : Bool) : Nat → Nat → Option Nat
  | 0, _ => none
  | left + 1, j =>
    let h := sumAt s k m j - 2 * sumAt s k m (j - lag) + sumAt s k m (j - 2 * lag)
    bif decide ((slth * m : Nat) ≤ (bif neg then -h else h)) then some j else closureIndex s k m lag slth neg left (j + 1)

/-- The closure time of the window of loop `k`, where one is found (R164). -/
def closureTime (s : State) (k : Nat) : Option Int :=
  let a := loopProf s k
  let w0 := endWord s a 0
  let m := 2 ^ bitsAt w0 20 2
  let lag := bitsAt w0 16 4
  let dec := bitsAt w0 24 4
  let j0 := m - 1 + 2 * lag
  (closureIndex s k m lag (bitsAt w0 0 10) (bitAt w0 30) (watchCount s a - j0) j0).map fun j =>
    ((s.loop k).tw0 : Int) + 10 * dec * ((j : Int) - lag) - 5 * dec * ((m : Int) - 1)

/-- The trim of a pulse: DTRIM_new (R165). -/
def trimStep (s : State) (k : Nat) (m : StartMsg) (dd : Int) : Int :=
  let w3 := endWord s (loopProf s k) 3
  let e := dd - ((m.dur : Int) + bitsAt w3 0 20)
  let step : Int := s.get (CRL_DTLIM_DTSTEP k)
  let lim : Int := s.get (CRL_DTLIM_DTLIM k)
  clampInt (-lim) lim (m.dtrim + clampInt (-step) step (-(rnd (e * bitsAt w3 28 4) 16)))

/-- The FCP has written the trim entry of event `e` in this tk (R166). -/
def trimTaken (s : State) (e : Nat) : Bool := s.gnorum.trims.contains (e, s.time)

/-- The channel is linked to a loop of the CSE that runs loop `k` (R166). -/
def linkedHere (s : State) (k c : Nat) : Bool :=
  let r := s.get (SCH_CHCFG_CRL c)
  Nat.blt r 12 && r / 6 == k / 6

/-- The compare-and-set of the trim: whether it was written (R166). -/
def trimWrite (k : Nat) (m : StartMsg) (new : Int) (s : State) : Bool × State :=
  bif linkedHere s k m.chan && dtrimOf s m.ev == m.dtrim && !trimTaken s m.ev then (true, putDtrim m.ev new s)
  else (false, s.tally (CRL_TALLY_TSKIP k))

/-- The ring entry that the next record of the CSE of loop `k` takes, when the ring takes it (R167). -/
def ringSlot (s : State) (k : Nat) : Option Nat :=
  let n := k / 6
  let sz := s.get (CSE_RCFG_RSZ n)
  let i := s.get (CSE_RWIDX_WIDX n)
  bif sz == 0 || (i + 1) % 2 ^ sz == s.get (CSE_RRIDX_RIDX n) then none else some (s.get (CSE_RBASE_ADDR n) * 16 + 16 * i)

/-- The FCP writes the trim entry of event `e` in the tk in which loop `k` wrote it: the loop's write is taken back, and counts as
not made (R166). -/
def trimBack (e k : Nat) (s : State) : State :=
  match (s.loop k).trimmed with
  | none => s
  | some t =>
    bif !(t.ev == e && t.tk == s.time) then s
    else
      let s1 := (putDtrim e t.old s).tally (CRL_TALLY_TSKIP k)
      let s2 := s1.wrn (Reg.CRL_LRES0 k) (putBits (s1.rdn (Reg.CRL_LRES0 k)) 30 1 0)
      match t.slot with
      | none => s2
      | some a => (ramWrite (13 + k / 6) a (s2.rd (Reg.CRL_LRES0 k)) s2).2

/-- The trims that loops wrote for event `e` in this tk are taken back (R166). -/
def trimsBack (e : Nat) (s : State) : State := upTo 12 (trimBack e) s

/-- The trim that stands after the FCP's write is the one in force after the pulse of loop `k` (R166, R167). -/
def trimShown (e k : Nat) (s : State) : State :=
  match (s.loop k).trimmed with
  | none => s
  | some t =>
    bif !(t.ev == e && t.tk == s.time) then s
    else
      let s1 := s.wrn (Reg.CRL_LRES3 k) (putBits (s.rdn (Reg.CRL_LRES3 k)) 16 16 (codeOf 16 (dtrimOf s e)))
      let s2 := s1.putLoop k { s1.loop k with trimmed := none }
      match t.slot with
      | none => s2
      | some a => (ramWrite (13 + k / 6) (a + 12) (s2.rd (Reg.CRL_LRES3 k)) s2).2

/-- The FCP has written the trim entry of event `e` (R166). -/
def trimStands (e : Nat) (s : State) : State :=
  upTo 12 (trimShown e)
    { s with gnorum := { s.gnorum with trims := (s.gnorum.trims.filter fun p => p.2 == s.time) ++ [(e, s.time)] } }

/-- A trim write through the FCP (R22, R123, R166): its status, and the state. -/
def trimThroughFcp (e : Nat) (at_ : Int) (s : State) : Nat × State :=
  let u := trimsBack e s
  let r := envTrim u e at_ (dtrimOf u e)
  bif r.1 == 0x0305 then (0x0305, s) else (r.1, trimStands e (putDtrim e r.2.2 (putAtrim e r.2.1 u)))

/-- The record enters the result ring of the CSE, or is dropped (R167). -/
def ringRecord (k : Nat) (r0 r1 r2 r3 : Word) (s : State) : State :=
  let n := k / 6
  let sz := s.get (CSE_RCFG_RSZ n)
  bif sz == 0 then s
  else
    let i := s.get (CSE_RWIDX_WIDX n)
    let next := (i + 1) % 2 ^ sz
    bif next == s.get (CSE_RRIDX_RIDX n) then (s.tally (CSE_RCFG_RDROP n)).setb (CSE_EVT_RDRP n) true
    else
      let a := s.get (CSE_RBASE_ADDR n) * 16 + 16 * i
      let w (o : Nat) (v : Word) (u : State) : State := (ramWrite (13 + n) (a + o) v u).2
      (w 12 r3 (w 8 r2 (w 4 r1 (w 0 r0 s)))).set (CSE_RWIDX_WIDX n) next

/-! ### Entry to IDLE and program banks (R157, R162) -/

/-- Every loop of CSE `n` has switched: PBANK toggles, PBREQ clears, PBSW sets (R162). -/
def programSwitched (n : Nat) (s : State) : State :=
  bif s.flag (CSE_CTL_PBREQ n) && s.get (CSE_STAT_PBPEND n) == 0 then
    let s1 := ((s.setb (CSE_STAT_PBANK n) (!s.flag (CSE_STAT_PBANK n))).setb (CSE_CTL_PBREQ n) false).setb (CSE_EVT_PBSW n) true
    (endJob (s1.cse n).job 0 0 s1).putCse n { job := 0 }
  else s

/-- Loop `k` takes the pending program bank (R162). -/
def loopSwitch (k : Nat) (s : State) : State :=
  let p := s.get (CSE_STAT_PBPEND (k / 6))
  bif bitAt p (k % 6) then
    programSwitched (k / 6)
      ((s.setb (CRL_STAT_PBK k) (!s.flag (CRL_STAT_PBK k))).set (CSE_STAT_PBPEND (k / 6)) (putBits p (k % 6) 1 0))
  else s

/-- Loop `k` enters IDLE; a calibration image that waits for it is applied (R157, R364). -/
def enterIdle (k : Nat) (s : State) : State :=
  let s1 := gatesOff k (s.set (CRL_STAT_STATE k) loopIdle)
  let s2 := calibTake (fun c => (c.unit == 5 || c.unit == 6) && c.part == k) s1
  loopSwitch k (s2.modLoop k fun l => { l with msg := none, srcOn := false, idleTb := s.now })

/-- The result of the pulse of loop `k` is written, and the loop goes to IDLE (R165, R167). -/
def loopResult (k : Nat) (tc : Option Int) (s : State) : State :=
  let l := s.loop k
  match l.msg with
  | none => enterIdle k s
  | some m =>
    let dd : Int := match tc with | some t => t - m.start | none => 0
    let cld : Nat := match tc with | some t => (clampInt 0 0xFFFF (t - l.tEnd)).toNat | none => 0
    let w3 := endWord s (loopProf s k) 3
    let want := m.closefb && bitsAt w3 28 4 != 0 && tc.isSome && l.elen == m.dprime && !l.pulseFault
    let (wrote, s0) := bif want then trimWrite k m (trimStep s k m dd) s else (false, s)
    let s1 := whenS wrote (·.modLoop k fun x =>
      { x with trimmed := some { tk := s.time, ev := m.ev, old := dtrimOf s m.ev, slot := ringSlot s k } }) s0
    let r0 := BitVec.ofNat 32 (tc.isSome.toNat * 2 ^ 31 + wrote.toNat * 2 ^ 30 + (l.elen != m.dprime).toNat * 2 ^ 29 +
      l.pulseFault.toNat * 2 ^ 28 + k * 2 ^ 24 + m.prof * 2 ^ 20 + m.pulse * 2 ^ 17 + m.cyl * 2 ^ 12 + m.ev)
    let r1 := BitVec.ofNat 32 m.start
    let r2 := BitVec.ofInt 32 dd
    let r3 := BitVec.ofNat 32 (codeOf 16 (dtrimOf s1 m.ev) * 2 ^ 16 + cld)
    let s2 := (((s1.wr (Reg.CRL_LRES0 k) r0).wr (Reg.CRL_LRES1 k) r1).wr (Reg.CRL_LRES2 k) r2).wr (Reg.CRL_LRES3 k) r3
    enterIdle k (ringRecord k r0 r1 r2 r3 s2)

/-! ### Faults (R168, R169) -/

/-- OUTEN of channel `c` clears: the pulse under way ends, its remaining edges are discarded and set CANCEL (R126). The loop
is not told. -/
def safeState (c : Nat) (s : State) : State :=
  let s1 := outenClear c s
  bif (s1.unit c).pulse.isSome then pulseStop c (s1.setb (SCH_CHSTAT_CANCEL c) true) else s1

/-- The flag of a fault cause (R168). -/
def faultFlag (k cause : Nat) : Fld := ⟨Reg.CRL_FLT k, cause, 1⟩

/-- Loop `k` detects a fault: its flag, its cause, and the reaction of FREACT (R168, R169). One detected in ANALYSE, after the watch, is
no fault of the pulse (R165). DEDUCED (log 71): a calibration that a fault interrupts is pending again, as after a start. -/
def loopFaulted (k cause : Nat) (s : State) : State :=
  let s1 := s.setb (faultFlag k cause) true
  let s2 := whenS (s1.get (CRL_FLT_CAUSE k) == 0) (·.set (CRL_FLT_CAUSE k) cause) s1
  let st := loopState s2 k
  bif s2.flag (CRL_CFG_FREACT k) then
    bif st == loopOff || st == loopFault then s2
    else
      let s3 := (gatesOff k (s2.set (CRL_STAT_STATE k) loopFault)).modLoop k fun l =>
        { l with msg := none, srcOn := false, ovcTo := none, enterAt := none }
      let s4 := whenS (st == loopCal) (·.set (CRL_STAT_CALST k) 1) s3
      upTo 64 (fun c u => whenS (u.get (SCH_CHCFG_CRL c) == k) (fun v => (safeState c v).modUnit c fun x => { x with cutTb := some v.now }) u) s4
  else bif cause == 4 then s2
  else
    let s3 := s2.modLoop k fun l => { l with pulseFault := l.pulseFault || (l.msg.isSome && st != loopAnalyse) }
    bif st == loopEnergise || st == loopTail then
      (gatesOff k (s3.set (CRL_STAT_STATE k) loopSpent)).modLoop k fun l =>
        { l with srcOn := false, enterAt := none, ovcTo := bif l.srcOn then some (s.now + s.get (CRL_LIM_OCT k)) else l.ovcTo }
    else s3

/-! ### Phases and regulation (R160, R161) -/

/-- Load a comparator of the loop (R160). -/
def loadCmp (n : Nat) (code : Int) (s : State) : State :=
  cmpResolve n (s.putCmp n { s.cmp n with code := (clampInt 0 1023 code).toNat })

/-- Phase `p` is entered at TB `t`: thresholds, gates, blanking (R160). -/
def phaseEntered (k p t : Nat) (s : State) : State :=
  let a := loopProf s k
  let w0 := phaseWord s a p 0
  let ofs := s.geti (CRL_IOFS_IOFS k)
  let s1 := loadCmp (cmpLo k) (bitsAt w0 0 10 + ofs) (loadCmp (cmpUp k) (bitsAt w0 16 10 + ofs) s)
  let s2 := (s1.set (CRL_STAT_PHASE k) p).modLoop k fun l => { l with phaseTb := t, blankTo := t + phaseBlank s a p }
  source k p (phaseKind s a p != 2) s2

/-- Enter phase `p` at TB `t`, or meet an uncorrectable word of it (R158, R160). -/
def enterPhase (k p t : Nat) (s : State) : State :=
  bif wordsBad s (phaseWords (loopProf s k) p) then loopFaulted k 5 s else phaseEntered k p t s

/-- The phase exits: the next one is entered, or the last one gives way to TAIL (R157, R160). -/
def nextPhase (k : Nat) (s : State) : State :=
  let a := loopProf s k
  let p := s.get (CRL_STAT_PHASE k)
  bif Nat.blt (p + 1) (profPhases s a) then enterPhase k (p + 1) s.now s
  else source k p false (s.set (CRL_STAT_STATE k) loopTail)

/-- The end of the pulse of loop `k` is due in this tk: its committed end, or the duration cut (R124, R156). -/
def endDue (s : State) (k : Nat) : Bool :=
  match (s.loop k).msg with
  | none => false
  | some m =>
    let u := s.unit m.chan
    (u.edges.any fun x => x.ev == m.ev && !x.start && Nat.ble x.tb s.now) ||
      match u.pulse with | some p => p.ev == m.ev && Nat.ble (p.start + p.maxdur) s.now | none => false

/-- Regulation acts on the live comparator outputs, outside blanking (R160, R161, R168); in the tk of the end the end is taken and a
crossing is ignored (R156). -/
def regulate (k : Nat) (s : State) : State :=
  let l := s.loop k
  bif loopState s k != loopEnergise || l.enterAt.isSome || Nat.blt s.now l.blankTo || endDue s k then s
  else
    let p := s.get (CRL_STAT_PHASE k)
    let up := cmpOut s (cmpUp k)
    let lo := cmpOut s (cmpLo k)
    match phaseKind s (loopProf s k) p with
    | 0 =>
      bif !up then s
      else bif Nat.blt s.now (l.phaseTb + s.get (CRL_LIM_TMIN k)) then loopFaulted k 2 s
      else nextPhase k s
    | 1 => bif up && l.srcOn then source k p false s else bif !lo && !l.srcOn then source k p true s else s
    | _ => bif lo then s else nextPhase k s

/-- The loop that owns comparator `n` acts on its output (R149, R160, R223). -/
def regulated (n : Nat) (s : State) : State := whenS (cmpLoop s n && s.angleRuns) (regulate ((n - 4) / 2)) s

/-- A comparator of loop `k` crosses its threshold toward `level`: the current that both comparators of the loop watch lies beyond it
from then on, and regulation follows (R149, R160, R219). -/
def loopCrossing (k : Nat) (upper level : Bool) (s : State) : State :=
  let n := bif upper then cmpUp k else cmpLo k
  let i := (s.cmp n).input
  let there := bif level then decide (i > (cmpHigh s n : Int)) else decide (i < (cmpLow s n : Int))
  let beyond : Int := bif level then cmpHigh s n + 1 else (cmpLow s n : Int) - 1
  bif !cmpLoop s n || !s.hasLoop k then s else regulate k (cmpInput n (bif there then i else beyond) s)

/-- The blanking of loop `k` has ended (R160). -/
def blankingEnd (k : Nat) (s : State) : State := regulate k s

/-- TIME of the phase has elapsed; a comparator that blanking hides does not read 1 (R160, R168). -/
def phaseTime (k : Nat) (s : State) : State :=
  let a := loopProf s k
  let p := s.get (CRL_STAT_PHASE k)
  let time := bitsAt (phaseWord s a p 1) 0 24
  let read := cmpOut s (cmpUp k) && Nat.ble (s.loop k).blankTo s.now
  bif loopState s k != loopEnergise || (s.loop k).enterAt.isSome || time == 0 || Nat.blt s.now ((s.loop k).phaseTb + time) then s
  else bif phaseKind s a p == 0 && bitAt (phaseWord s a p 0) 26 && !read then loopFaulted k 1 s
  else nextPhase k s

/-- The overcurrent check: the upper comparator still reads 1 (R168). In SPENT it waits for the end of the pulse. -/
def ovcCheck (k : Nat) (s : State) : State :=
  match (s.loop k).ovcTo with
  | none => s
  | some t =>
    let st := loopState s k
    bif Nat.blt s.now t || st == loopSpent then s
    else
      let s1 := s.modLoop k fun l => { l with ovcTo := none }
      bif cmpOut s (cmpUp k) && st != loopOff && st != loopFault then loopFaulted k 3 s1 else s1

/-! ### Starts and ends (R154 to R156) -/

/-- The calibration of loop `k` is abandoned by a start: the request is pending again (R157). -/
def calAbandon (k : Nat) (s : State) : State := s.set (CRL_STAT_CALST k) 1

/-- Loop `k` accepts a start: the profile is checked, and phase 0 follows 2 tk after the pin edge (R154, R159, R161). -/
def acceptStart (k : Nat) (m : StartMsg) (s : State) : State :=
  let s1 := whenS (loopState s k == loopCal) (calAbandon k) s
  let s2 := (s1.set (CRL_STAT_STATE k) loopEnergise).putLoop k
    { msg := some m, calReqTb := (s1.loop k).calReqTb, trimmed := (s1.loop k).trimmed }
  bif profBad s2 (loopProf s2 k) then loopFaulted k 5 s2 else s2.modLoop k fun l => { l with enterAt := some (s2.now + 2) }

/-- Loop `k` enters phase 0 when 2 tk have passed since the pin edge (R20, R154, R161). -/
def enterDue (k : Nat) (s : State) : State :=
  match (s.loop k).enterAt with
  | none => s
  | some t => bif Nat.blt s.now t then s else enterPhase k 0 s.now (s.modLoop k fun l => { l with enterAt := none })

/-- The accepted starts whose phase 0 begins in this tk (R154). -/
def entersDue (s : State) : State := s.loops.foldl (fun u p => whenS p.2.enterAt.isSome (enterDue p.1) u) s

/-- The channel may start its loop: its OUTEN bit, or on the DZ4624-F its DMSK bit (R154). -/
def startAllowed (s : State) (c : Nat) : Bool :=
  bif s.observer then bitAt (s.rdn (bif Nat.blt c 32 then Reg.RING_DMSKL else Reg.RING_DMSKH)) (c % 32) else outen s c

/-- A start message reaches loop `k` (R154, R155). -/
def startMessage (k : Nat) (m : StartMsg) (s : State) : State :=
  let st := loopState s k
  bif !s.hasLoop k || !startAllowed s m.chan || m.prof == 15 then s
  else bif st == loopIdle || (st == loopCal && (s.loop k).calRetIdle) then acceptStart k m s
  else bif (s.loop k).msg.isSome then loopFaulted k 4 (s.tally (CRL_TALLY_BUSYCNT k))
  else s

/-- The end of the pulse on channel `c` reaches loop `k` (R156, R157). An uncorrectable word of the end block is a PRG fault first
(R158). DEDUCED (log 71): after a pulse that a fault cut short, the overcurrent time counts from the end. -/
def endMessage (k c : Nat) (s : State) : State :=
  let l := s.loop k
  let st := loopState s k
  match l.msg with
  | none => s
  | some m =>
    bif m.chan != c || !(st == loopEnergise || st == loopTail || st == loopSpent) then s
    else
      let oct := s.get (CRL_LIM_OCT k)
      let a := loopProf s k
      let bad := st != loopSpent && wordsBad s (endWords s a)
      let s0 := whenS bad (loopFaulted k 5) s
      let s1 := (gatesOff k s0).modLoop k fun x =>
        { x with tEnd := s.now, elen := s.now - m.start, srcOn := false, enterAt := none,
                 ovcTo := bif l.srcOn || (st == loopSpent && x.ovcTo.isSome) then some (s.now + oct) else x.ovcTo }
      bif loopState s0 k == loopFault then s0
      else bif st == loopSpent || bad || !bitAt (endWord s a 0) 31 then loopResult k none s1
      else (s1.set (CRL_STAT_STATE k) loopWatch).modLoop k fun x =>
        { x with tw0 := s.now + bitsAt (endWord s a 2) 0 16, opened := false, convs := 0, stored := 0 }

/-- The end of a pulse on channel `c` is passed to the loop that the channel names. -/
def tellEnd (c : Nat) (s : State) : State :=
  let k := s.get (SCH_CHCFG_CRL c)
  bif Nat.blt k 12 then endMessage k c s else s

/-! ### The watch (R163, R164) -/

/-- The window of loop `k` opens at t_w0; one that stores no sample is over at once (R163). -/
def watchOpen (k : Nat) (s : State) : State :=
  let l := s.loop k
  bif loopState s k != loopWatch || l.opened || Nat.blt s.now l.tw0 then s
  else
    let s1 := s.putLoop k { l with opened := true }
    bif watchCount s (loopProf s k) == 0 then s1.set (CRL_STAT_STATE k) loopAnalyse else s1

/-- A conversion of the trace converter: every DEC-th is stored (R163). With PLLA unlocked the sample reads 0 (R395). -/
def traceSample (k code : Nat) (s : State) : State :=
  let l := s.loop k
  bif loopState s k != loopWatch || !l.opened || Nat.blt s.now (l.tw0 + 10 * l.convs) then s
  else
    let a := loopProf s k
    let dec := bitsAt (endWord s a 0) 24 4
    bif l.convs % dec != 0 then s.putLoop k { l with convs := l.convs + 1 }
    else
      let w := 0x5009A000 + k * 0x800 + 4 * (l.stored / 2)
      let v := bif bitAt (s.get CPR_CLKSTAT_OK) 2 then code else 0
      let s1 := (s.wrn w (putBits (s.rdn w) (16 * (l.stored % 2)) 10 v)).putLoop k
        { l with convs := l.convs + 1, stored := l.stored + 1 }
      bif l.stored + 1 == watchCount s a then s1.set (CRL_STAT_STATE k) loopAnalyse else s1

/-- The analysis of loop `k` ends (R164 to R167). An uncorrectable word of the end block is a PRG fault, and the window is not
evaluated (R158; DEDUCED, log 71). -/
def analyse (k : Nat) (s : State) : State :=
  bif loopState s k != loopAnalyse then s
  else bif wordsBad s (endWords s (loopProf s k)) then
    let t := loopFaulted k 5 s
    bif loopState t k == loopFault then t else loopResult k none (t.modLoop k fun l => { l with pulseFault := true })
  else
    let tc := closureTime s k
    loopResult k tc (bif tc.isSome then s else cseEvent k 8 (s.tally (CRL_TALLY_NOCLCNT k)))

/-! ### Enabling, clearing, calibration (R149, R157, R171) -/

/-- The loop takes over its comparators (R149). -/
def takeComparators (k : Nat) (s : State) : State :=
  let s1 := (s.setb (CMP_CFG_PUS (cmpUp k)) false).setb (CMP_CFG_PUS (cmpLo k)) false
  cmpFirst (cmpLo k) (cmpFirst (cmpUp k) s1)

/-- CFG.EN of loop `k` is set (R149, R157). -/
def loopEnable (k : Nat) (s : State) : State :=
  bif !s.hasLoop k || s.flag (CRL_CFG_EN k) then s
  else
    let s1 := takeComparators k (s.setb (CRL_CFG_EN k) true)
    bif loopState s k == loopOff then enterIdle k s1
    else bif loopState s k == loopCal then s1.modLoop k fun l => { l with calRetIdle := true }
    else s1

/-- CFG.EN of loop `k` is cleared (R157). -/
def loopDisable (k : Nat) (s : State) : State :=
  bif !s.flag (CRL_CFG_EN k) then s
  else
    let s1 := gatesOff k ((s.setb (CRL_CFG_EN k) false).set (CRL_STAT_STATE k) loopOff)
    let c := s.get (CRL_STAT_CALST k)
    let live := c == 1 || c == 2 || c == 4
    let s2 := whenS live (fun u => (u.set (CRL_STAT_CALST k) 0).setb (CRL_CTL_CALREQ k) false) s1
    cmpResolve (cmpLo k) (cmpResolve (cmpUp k) (s2.putLoop k { trimmed := (s.loop k).trimmed }))

/-- CTL.FCLR of loop `k` is written (R157). -/
def loopFclr (k : Nat) (s : State) : State :=
  bif loopState s k != loopFault then s else enterIdle k (s.wr (Reg.CRL_FLT k) 0)

/-- The idle timer of loop `k` has reached 40,000 tk (R157). -/
def loopRested (s : State) (k : Nat) : Bool := loopState s k == loopIdle && Nat.ble ((s.loop k).idleTb + 40000) s.now

/-- The calibration of loop `k` starts (R171). -/
def calStart (k : Nat) (s : State) : State :=
  let s1 := (s.set (CRL_STAT_CALST k) 2).set (CRL_STAT_STATE k) loopCal
  s1.modLoop k fun l => { l with calRetIdle := loopState s k == loopIdle, calTb := s.now }

/-- A calibration request of loop `k`, and its status (R171). -/
def crlCalRequest (k : Nat) (s : State) : Nat × State :=
  let st := loopState s k
  bif !s.hasLoop k then (0x0501, s)
  else bif s.flag (CRL_CTL_CALREQ k) || st == loopCal || st == loopFault then (0x020B, s)
  else
    let s1 := (s.setb (CRL_CTL_CALREQ k) true).modLoop k fun l => { l with calReqTb := s.now }
    bif st == loopOff || loopRested s k then (0x0001, calStart k s1) else (0x0002, s1.set (CRL_STAT_CALST k) 1)

/-- The idle timer starts a pending calibration (R157, R171). -/
def calIdle (k : Nat) (s : State) : State :=
  let c := s.get (CRL_STAT_CALST k)
  bif loopRested s k && (c == 1 || c == 4) then calStart k s else s

/-- The calibration of loop `k` is complete: 64 conversions with this sum (R171). -/
def calComplete (k : Nat) (sum : Int) (s : State) : State :=
  bif loopState s k != loopCal || Nat.blt s.now ((s.loop k).calTb + 840) then s
  else
    let mean := rnd sum 64
    let ok := decide (-128 ≤ mean) && decide (mean ≤ 127)
    let s1 := bif ok then (s.seti (CRL_IOFS_IOFS k) mean).set (CRL_STAT_CALST k) 3 else s.set (CRL_STAT_CALST k) 5
    let s2 := cseEvent k 16 (s1.setb (CRL_CTL_CALREQ k) false)
    bif (s.loop k).calRetIdle then enterIdle k s2 else s2.set (CRL_STAT_STATE k) loopOff

/-- A request pending for 1 s becomes STARVED (R171). -/
def calStarved (k : Nat) (s : State) : State :=
  bif s.get (CRL_STAT_CALST k) == 1 && Nat.ble ((s.loop k).calReqTb + 200000000) s.now then
    cseEvent k 16 (s.set (CRL_STAT_CALST k) 4)
  else s

/-- CSEn.CTL.PBREQ is set (R162). -/
def programRequest (n : Nat) (s : State) : State :=
  bif !s.hasCse n || s.flag (CSE_CTL_PBREQ n) then s
  else
    let s1 := upTo 6 (fun i u => whenS (u.hasLoop (6 * n + i)) (·.set (CSE_STAT_PBPEND n) (putBits (u.get (CSE_STAT_PBPEND n)) i 1 1)) u)
      (s.setb (CSE_CTL_PBREQ n) true)
    let s2 := upTo 6 (fun i u =>
      whenS (loopState u (6 * n + i) == loopOff || loopState u (6 * n + i) == loopIdle) (loopSwitch (6 * n + i)) u) s1
    programSwitched n s2

/-! ### The commands -/

/-- A comparator input crosses a threshold; a loop that owns the comparator acts on it (R219, R223). -/
def execComparatorCrossing (n : Fin 48) (input : Int) (s : State) : Host.Outcome State Fault Refusal :=
  done (regulated n (cmpCross n input s))

/-- A loop comparator crosses its threshold (R160). -/
def execCrlComparatorCrossing (k : Fin 12) (upper level : Bool) (s : State) : Host.Outcome State Fault Refusal :=
  done (inAngle s (loopCrossing k upper level))

/-- The blanking ends (R160). -/
def execBlankingEnd (k : Fin 12) (s : State) : Host.Outcome State Fault Refusal := done (inAngle s (blankingEnd k))

/-- The phase time elapses (R160). -/
def execPhaseTimeElapsed (k : Fin 12) (s : State) : Host.Outcome State Fault Refusal := done (inAngle s (phaseTime k))

/-- A dead time ends (R151). -/
def execDeadTimeEnd (k : Fin 12) (s : State) : Host.Outcome State Fault Refusal := done (inAngle s (deadEnd k))

/-- The overcurrent time passes (R168). -/
def execOvcTimeout (k : Fin 12) (s : State) : Host.Outcome State Fault Refusal := done (inAngle s (ovcCheck k))

/-- The watch window opens (R163). -/
def execWatchWindowOpen (k : Fin 12) (s : State) : Host.Outcome State Fault Refusal := done (inAngle s (watchOpen k))

/-- A trace conversion (R163). -/
def execTraceSample (k : Fin 12) (code : BitVec 10) (s : State) : Host.Outcome State Fault Refusal :=
  done (inAngle s (traceSample k code.toNat))

/-- The analysis completes (R165). -/
def execAnalyseComplete (k : Fin 12) (s : State) : Host.Outcome State Fault Refusal := done (inAngle s (analyse k))

/-- CRLk.CFG.EN is set (R157). -/
def execLoopEnable (k : Fin 12) (s : State) : Host.Outcome State Fault Refusal := done (inAngle s (loopEnable k))

/-- CRLk.CFG.EN is cleared (R157). -/
def execLoopDisable (k : Fin 12) (s : State) : Host.Outcome State Fault Refusal := done (inAngle s (loopDisable k))

/-- CRLk.CTL.FCLR is written (R157). -/
def execLoopFclr (k : Fin 12) (s : State) : Host.Outcome State Fault Refusal := done (inAngle s (loopFclr k))

/-- CRLk.CTL.CALREQ is set (R171). -/
def execCrlCalreq (k : Fin 12) (s : State) : Host.Outcome State Fault Refusal :=
  done (inAngle s fun u => (crlCalRequest k u).2)

/-- The idle timer starts a pending calibration (R171). -/
def execIdleTimerCalStart (k : Fin 12) (s : State) : Host.Outcome State Fault Refusal := done (inAngle s (calIdle k))

/-- The calibration completes (R171). -/
def execCrlCalComplete (k : Fin 12) (sum : Int) (s : State) : Host.Outcome State Fault Refusal :=
  done (inAngle s (calComplete k sum))

/-- A calibration request starves (R171). -/
def execCrlCalStarved (k : Fin 12) (s : State) : Host.Outcome State Fault Refusal := done (inAngle s (calStarved k))

/-- CSEn.CTL.PBREQ is set (R162). -/
def execProgramBankRequest (n : Fin 2) (s : State) : Host.Outcome State Fault Refusal := done (inAngle s (programRequest n))

end Sys2Proof.Machine
end

