-- ==== Sys2Proof/Machine/Hadc.lean ====
section
/-! DEFINITION. The housekeeping converter: sequences, entries, results and calibration in gaps (R207 to R218). -/

namespace Sys2Proof.Machine

open Fields

/-- Sequence `q`. -/
def State.seqOf (s : State) (q : Nat) : Seq := findAt (fun _ => {}) q s.hadc.seqs

/-- Replace sequence `q`. -/
def State.putSeq (s : State) (q : Nat) (v : Seq) : State := { s with hadc := { s.hadc with seqs := putAt q v s.hadc.seqs } }

/-- The delay of entry `j` in tk (R213). -/
def entDelay (s : State) (j : Nat) : Nat := 10 * s.get (HADC_ENT_DLY j)

/-- The sequence of highest priority whose next entry may start: its number (R214). -/
def seqReady (s : State) : Option Nat := (List.range 4).find? fun q => (s.seqOf q).active && (s.seqOf q).ready

/-- Sequence `q` takes the converter; a sequence of lower priority between two entries is held (R214). -/
def seqStart (s : State) (q : Nat) : State :=
  let s1 := (s.setb HADC_STAT_BUSY true).set HADC_STAT_ACTSEQ q
  let s2 := { s1 with hadc := { s1.hadc with convTb := s.time } }
  let s3 := s2.putSeq q { s2.seqOf q with begun := true, convs := 0, sum := 0, held := false }
  upTo 4 (fun r u =>
    let x := u.seqOf r
    whenS (Nat.blt q r && x.active && x.begun) (·.putSeq r { x with held := true, ready := false }) u) s3

/-- A held sequence resumes where it stopped, and the delay of its next entry starts (R214). -/
def seqResume (s : State) (q : Nat) : State :=
  let x := s.seqOf q
  bif x.active && x.held then
    s.putSeq q { x with held := false, due := s.time + entDelay s x.entry, ready := entDelay s x.entry == 0, gapUsed := false }
  else s

/-- The free converter is offered to the sequences `qs` in order: a held one resumes, and a ready one starts its next entry (R214). -/
def pumpFrom : List Nat → State → State
  | [], s => s
  | q :: qs, s =>
    let s1 := seqResume s q
    bif (s1.seqOf q).active && (s1.seqOf q).ready then seqStart s1 q else pumpFrom qs s1

/-- The converter is free and ADCCLK runs (R395): it is offered to the sequences in order of priority (R214). -/
def hadcPump (s : State) : State :=
  bif s.flag HADC_STAT_BUSY || !s.flag HADC_CTL_EN || !s.clockOk 2 then s else pumpFrom (List.range 4) s

/-- The converter falls free, or a sequence ends: a gap may begin (R217). -/
def hadcFree (s : State) : State := { s with hadc := { s.hadc with freeTb := s.time } }

/-- The delay under way of sequence `q` is a gap: a DLY wait of at least 120 tk that has carried no step (R213, R217). TDLY is no part of
the wait of the first entry. -/
def seqGap (s : State) (q : Nat) : Bool :=
  let x := s.seqOf q
  let d := entDelay s x.entry
  x.active && !x.held && !x.ready && !x.gapUsed && Nat.ble 120 d && Nat.blt s.time x.due && (x.begun || Nat.ble x.due (s.time + d + 4))

/-- No sequence is running, pending or looping. -/
def hadcIdle (s : State) : Bool := !someBelow 4 fun q => (s.seqOf q).active

/-- The converter is in a gap that may carry a calibration step (R217). -/
def inGap (s : State) : Bool := !s.flag HADC_STAT_BUSY && (hadcIdle s || ((seqReady s).isNone && someBelow 4 (seqGap s)))

/-- TB from which the gap has lasted: since the converter fell free, and in a delay since the delay began (R217). -/
def gapFrom (s : State) : Nat :=
  bif hadcIdle s then s.hadc.freeTb
  else
    let began (q : Nat) : Nat := (s.seqOf q).due - entDelay s (s.seqOf q).entry - (bif (s.seqOf q).begun then 0 else 4)
    max s.hadc.freeTb (((List.range 4).filter (seqGap s)).foldl (fun m q => min m (began q)) s.time)

/-- The gap under way carries no further step: it has carried one, or a trigger has broken one off (R217). A sequence whose DLY wait is
still to come keeps it. -/
def gapSpent (s : State) : State :=
  upTo 4 (fun q u => whenS (seqGap s q) (·.putSeq q { u.seqOf q with gapUsed := true }) u) s

/-- A trigger of sequence `q`: it becomes active, or is dropped; a calibration step that waits in this gap is broken off (R212 to R214,
R217). -/
def hadcTrigger (q : Nat) (s : State) : State :=
  bif !s.flag HADC_CTL_EN || !s.flag (HADC_SEQCFG_EN q) then s
  else
    let x := s.seqOf q
    bif x.active then (s.setb (HADC_SEQSTAT_TOVR q) true).tally (HADC_SEQSTAT_TLOST q)
    else
      let e := s.get (HADC_SEQCFG_START q)
      let s0 := whenS (s.get HADC_STAT_CALST == 1 && inGap s) gapSpent s
      s0.putSeq q { x with active := true, begun := false, entry := e, convs := 0, sum := 0,
                           due := s.time + s.get (HADC_SEQDLY_TDLY q) + entDelay s e + 4, ready := false, held := false,
                           gapUsed := false, stop := false }

/-- The sequences with trigger type `ty` and selection `sel` are triggered, in priority order (R212, R214). -/
def hadcTriggerAll (ty sel : Nat) (s : State) : State :=
  upTo 4 (fun q u => whenS (u.get (HADC_SEQCFG_TTYP q) == ty && u.get (HADC_SEQCFG_TSEL q) == sel) (hadcTrigger q) u) s

/-- A committed edge of TO `c` reaches its tk: the sequences that select it are triggered (R212). -/
def hadcOutputEdge (c : Nat) (active : Bool) (s : State) : State :=
  upTo 4 (fun q u =>
    let e := u.get (HADC_SEQCFG_TEDGE q)
    whenS (u.get (HADC_SEQCFG_TTYP q) == 3 && u.get (HADC_SEQCFG_TSEL q) == c && (e == 2 || (e == 0) == active))
      (hadcTrigger q) u) s

/-- A software trigger of each sequence whose bit is set (R212). -/
def hadcSoft (mask : Nat) (s : State) : State := upTo 4 (fun q u => whenS (bitAt mask q) (hadcTrigger q) u) s

/-- Sequence `q`, where it is active, ends: at once, or after the conversion under way (R213). -/
def seqStop (q : Nat) (s : State) : State :=
  let x := s.seqOf q
  bif !x.active then s
  else bif s.flag HADC_STAT_BUSY && s.get HADC_STAT_ACTSEQ == q then s.putSeq q { x with stop := true }
  else hadcPump (hadcFree (s.putSeq q { x with active := false, ready := false, held := false }))

/-- A write of SWTRG.STOP (R213). -/
def hadcStop (mask : Nat) (s : State) : State := upTo 4 (fun q u => whenS (bitAt mask q) (seqStop q) u) s

/-- The delay of the next entry of sequence `r` is over: it waits for the converter (R213). -/
def seqDue (s : State) (r : Nat) : Bool :=
  let x := s.seqOf r
  x.active && !x.ready && !x.held && Nat.ble x.due s.time && !(s.flag HADC_STAT_BUSY && s.get HADC_STAT_ACTSEQ == r)

/-- The delay of the next entry of sequence `q` has ended; a sequence of higher priority that is due as well starts first
(R213, R214). -/
def hadcDelayEnd (q : Nat) (s : State) : State :=
  bif seqDue s q then
    hadcPump (upTo (q + 1) (fun r u => whenS (seqDue s r) (·.putSeq r { u.seqOf r with ready := true }) u) s)
  else s

/-- A raw code corrected by OFS and GC, as R178 gives the correction (R217). -/
def applyCoef (raw : Int) (ofs : Int) (gc : Nat) : Int := rndAway ((raw - ofs) * gc) (2 ^ 15)

/-- A corrected code limited to the range of entry `j` (R207, R209). -/
def entryCode (s : State) (j : Nat) (v : Int) : Int := bif s.flag (HADC_ENT_DIFF j) then clampInt (-2048) 2047 v else clampInt 0 4095 v

/-- The result of an entry: the mean of its conversions (R209). -/
def entryResult (s : State) (j : Nat) (sum : Int) : Int := rnd sum (2 ^ s.get (HADC_ENT_RPT j))

/-- Write the result of entry `j`: NEW, or OVW when the last one is unread (R209, R215). -/
def resWrite (j : Nat) (v : Int) (s : State) : State :=
  let code := codeOf 16 (bif s.flag (HADC_ENT_ALIGN j) then v * 16 else v)
  let s1 := whenS (s.flag (HADC_RES_NEW j)) (·.setb (HADC_RES_OVW j) true) s
  ((s1.setb (HADC_RES_NEW j) true).set (HADC_RES_CH j) (s.get (HADC_ENT_CH j))).set (HADC_RES_VALUE j) code

/-- The entry under way of sequence `q` is complete: result, then the next entry, the next run, or the end (R213). -/
def entryDone (q : Nat) (x : Seq) (sum : Int) (s : State) : State :=
  let s1 := resWrite x.entry (entryResult s x.entry sum) (hadcFree (s.setb HADC_STAT_BUSY false))
  let next (e : Nat) : Seq :=
    { x with entry := e, convs := 0, sum := 0, due := s.time + entDelay s e, ready := entDelay s e == 0, gapUsed := false }
  bif x.stop then
    let s2 := whenS (x.entry == s.get (HADC_SEQCFG_END q)) (·.setb (HADC_SEQSTAT_DONE q) true) s1
    hadcPump (s2.putSeq q { x with active := false, ready := false, stop := false })
  else bif x.entry == s.get (HADC_SEQCFG_END q) then
    let s2 := s1.setb (HADC_SEQSTAT_DONE q) true
    bif s.flag (HADC_SEQCFG_LOOP q) then hadcPump (s2.putSeq q (next (s.get (HADC_SEQCFG_START q))))
    else hadcPump (s2.putSeq q { x with active := false, ready := false })
  else hadcPump (s1.putSeq q (next (x.entry + 1)))

/-- A conversion ends with raw code `code` (R208, R209, R213); with PLLA lost a repeat that is to come waits (R395). -/
def hadcConvDone (code : Int) (s : State) : State :=
  bif !s.flag HADC_STAT_BUSY || s.hadc.paused || Nat.blt s.time (s.hadc.convTb + 100) then s
  else
    let q := s.get HADC_STAT_ACTSEQ
    let x := s.seqOf q
    let v := entryCode s x.entry (applyCoef code (s.geti HADC_COEF_OFS) (s.get HADC_COEF_GC))
    let sum := x.sum + v
    bif Nat.ble (2 ^ s.get (HADC_ENT_RPT x.entry)) (x.convs + 1) then entryDone q x sum s
    else bif x.stop then
      hadcPump ((hadcFree (s.setb HADC_STAT_BUSY false)).putSeq q { x with active := false, ready := false, stop := false })
    else
      let s1 := { s with hadc := { s.hadc with convTb := s.hadc.convTb + 100, paused := !s.clockOk 2 } }
      s1.putSeq q { x with convs := x.convs + 1, sum := sum }

/-- ADCCLK is back: a repeat that waited for it starts, else the converter is offered to the sequences (R395). -/
def hadcResume (s : State) : State :=
  bif s.hadc.paused then { s with hadc := { s.hadc with convTb := s.time, paused := false } } else hadcPump s

/-- The status of a calibration request (R218). -/
def hadcCalStatus (s : State) : BitVec 16 :=
  bif s.get HADC_STAT_CALST == 1 then 0x020B else bif inGap s then 0x0001 else 0x0002

/-- A calibration request (R218). -/
def hadcCalReq (s : State) : State :=
  bif s.get HADC_STAT_CALST == 1 then s
  else
    let s1 := ((s.set HADC_STAT_CALST 1).set HADC_STAT_CALSTEP 0).setb HADC_CTL_CALREQ true
    { s1 with hadc := { s1.hadc with zeroSum := 0, refSum := 0, calTb := s.time } }

/-- The offset of a calibration: the mean zero code (R179, R217). -/
def calOfs (n : Nat) (zeroSum : Int) : Int := rndAway zeroSum n

/-- The gain of a calibration; 0 where the reference does not exceed the zero (R179, R217). -/
def calGain (n : Nat) (nominal : Nat) (zeroSum refSum : Int) : Int :=
  if refSum - zeroSum ≤ 0 then 0 else rndAway (2 ^ 15 * nominal * n : Nat) (refSum - zeroSum).toNat

/-- The end of a calibration: new coefficients, or FAILED (R217). -/
def hadcCalEnd (z r : Int) (s : State) : State :=
  let ofs := calOfs 16 z
  let gc := calGain 16 2731 z r
  let s1 := (s.setb HADC_STAT_CALX true).setb HADC_CTL_CALREQ false |>.set HADC_STAT_CALSTEP 0
  if ofs < -64 ∨ 64 < ofs ∨ gc < 0x7800 ∨ 0x8800 < gc then s1.set HADC_STAT_CALST 3
  else ((s1.seti HADC_COEF_OFS ofs).set HADC_COEF_GC gc.toNat).set HADC_STAT_CALST 2

/-- A calibration step ends with raw code `code`; it has run in a gap, in a conversion slot of ADCCLK after the step before
(R217, R395). -/
def hadcCalStep (code : Int) (s : State) : State :=
  let step := s.get HADC_STAT_CALSTEP
  bif !(s.get HADC_STAT_CALST == 1 && s.clockOk 2 && inGap s && Nat.ble (max s.hadc.calTb (gapFrom s) + 100) s.time) then s
  else
    let h := s.hadc
    let z := bif Nat.blt step 16 then h.zeroSum + code else h.zeroSum
    let r := bif Nat.blt step 16 then h.refSum else h.refSum + code
    let s1 := { s with hadc := { h with zeroSum := z, refSum := r, calTb := s.time } }
    let s2 := gapSpent s1
    bif step == 31 then hadcCalEnd z r s2 else s2.set HADC_STAT_CALSTEP (step + 1)

/-- 2,000,000 tk without a gap set CALSTRV; calibration goes on waiting (R218). -/
def hadcCalStarved (s : State) : State :=
  whenS (s.get HADC_STAT_CALST == 1 && Nat.ble (s.hadc.calTb + 2000000) s.time) (·.setb HADC_STAT_CALSTRV true) s

/-- CTL.EN is cleared, where it was set: a running calibration is abandoned, and no conversion goes on (R218). -/
def hadcDisable (s0 : State) : State :=
  let s := hadcFree s0
  let s1 := (s.setb HADC_CTL_EN false).setb HADC_CTL_CALREQ false |>.setb HADC_STAT_BUSY false |> fun u => { u with hadc := { u.hadc with paused := false } }
  let s2 := whenS (s.get HADC_STAT_CALST == 1) (fun u => (u.set HADC_STAT_CALST 0).set HADC_STAT_CALSTEP 0) s1
  bif !s0.flag HADC_CTL_EN then s0
  else upTo 4 (fun q u => u.putSeq q { u.seqOf q with active := false, ready := false, held := false, stop := false }) s2

/-- A read of RESj: the word, and NEW clears (R215). -/
def resRead (j : Nat) (s : State) : Word × State := (s.rd (Reg.HADC_RES j), s.setb (HADC_RES_NEW j) false)

/-- SWTRG.TRG (R212). -/
def execHadcSwtrg (seqs : BitVec 4) (s : State) : Host.Outcome State Fault Refusal := done (hadcSoft seqs.toNat s)

/-- SWTRG.STOP (R213). -/
def execHadcSeqStop (seqs : BitVec 4) (s : State) : Host.Outcome State Fault Refusal := done (hadcStop seqs.toNat s)

/-- The delay before an entry ends (R213). -/
def execHadcEntryDelayEnd (q : Fin 4) (s : State) : Host.Outcome State Fault Refusal := done (hadcDelayEnd q s)

/-- A conversion ends (R208). -/
def execHadcConversionDone (code : Int) (s : State) : Host.Outcome State Fault Refusal := done (hadcConvDone code s)

/-- CTL.CALREQ (R218). -/
def execHadcCalreq (s : State) : Host.Outcome State Fault Refusal := done (hadcCalReq s)

/-- A calibration step ends (R217). -/
def execHadcCalStep (code : Int) (s : State) : Host.Outcome State Fault Refusal := done (hadcCalStep code s)

/-- 10 ms pass without a gap (R218). -/
def execHadcCalStarved (s : State) : Host.Outcome State Fault Refusal := done (hadcCalStarved s)

/-- CTL.EN is cleared (R218). -/
def execHadcDisable (s : State) : Host.Outcome State Fault Refusal := done (hadcDisable s)

end Sys2Proof.Machine
end

