-- ==== Sys2Proof/Machine/Output.lean ====
section
/-! DEFINITION. The channel output units: committed edges at their TB times, the duration cut, sync loss, direction changes,
output enables, the TO pins, and the wrap of a tracker's angle (R100, R111, R119, R120, R124 to R127). -/

namespace Sys2Proof.Machine

open Fields

/-! ### Edges (R111, R117, R126, R127, R154, R156) -/

/-- The start message of an occurrence on channel `c` (R154). -/
def startMsgOf (s : State) (c e t : Nat) : StartMsg :=
  let d := (s.occ e).desc
  { ev := e, chan := c, dur := d.dur, dtrim := d.dtrim, dprime := d.dprime, prof := d.prof, cyl := d.cyl, pulse := d.pulse,
    closefb := d.closefb, start := t }

/-- A start is passed to the loop that the channel names (R154). -/
def tellStart (c e t : Nat) (s : State) : State :=
  let k := s.get (SCH_CHCFG_CRL c)
  bif Nat.blt k 12 then startMessage k (startMsgOf s c e t) s else s

/-- Channel `c` takes its safe state: OUTEN clears, the pulse under way ends, and the loop is told (R126). -/
def channelSafe (c : Nat) (s : State) : State :=
  bif (s.unit c).pulse.isSome then tellEnd c (safeState c s) else safeState c s

/-- A committed start is due: the pulse begins, with MAXDUR latched; a start in the tk of an OUTEN write counts as during a
pulse (R111, R124, R126, R127). -/
def startEdge (c : Nat) (x : Edge) (s : State) : State :=
  let u := s.unit c
  let s1 := s.putUnit c { u with pulse := some { start := x.tb, ev := x.ev, maxdur := s.get (SCH_MAXDUR_MAXDUR c) },
                                 shown := outen s c && u.outTb != some s.now }
  let s2 := s1.putOcc x.ev { s1.occ x.ev with st := bif hasEnd s1 c x.ev then .ending else .on }
  let s3 := tellStart c x.ev x.tb s2
  bif u.outTb == some s.now && !outen s c then channelSafe c s3 else s3

/-- A committed end is due: the pulse of its event ends (R111). -/
def endEdge (c : Nat) (x : Edge) (s : State) : State :=
  match (s.unit c).pulse with
  | none => s
  | some p => bif p.ev == x.ev then tellEnd c (pulseStop c s) else s

/-- A committed start not yet reached of channel `c` is cancelled with its edges, and the channel takes its safe state
(R145, IMMEDIATE and CHSAFE). -/
def discardChannel (c : Nat) (s : State) : State :=
  let starts := (s.unit c).edges.filter fun x => x.start
  channelSafe c (starts.foldl (fun u x => cancelOcc c x.ev u) s)

/-- The safe state that is asked for on channel `c` is taken (R145). -/
def safeTake (c : Nat) (s : State) : State :=
  match (s.unit c).safeAt with
  | none => s
  | some p =>
    let was := outen s c
    (discardChannel c s).modUnit c fun u =>
      { u with safeAt := none, drain := false, lost := u.lost || (p.2 && was), cutTb := bif p.2 then some s.now else u.cutTb }

/-- The earliest committed edge of channel `c`, when TB has reached it, takes effect; against a start in the tk of a CHSAFE the safe state
wins (R111, R117, R145, R212). -/
def edgeOut (c : Nat) (s : State) : State :=
  match (s.unit c).edges with
  | [] => s
  | x :: rest =>
    bif Nat.blt s.now x.tb then s
    else bif x.start && (s.unit c).chsafeTb == some s.now then safeTake c s
    else
      let s1 := s.modUnit c fun u => { u with edges := rest }
      hadcOutputEdge c x.start (bif x.start then startEdge c x s1 else endEdge c x s1)

/-- A pulse of channel `c` has been active for its latched MAXDUR with no committed end by then: it ends (R124). -/
def durationCut (c : Nat) (s : State) : State :=
  match (s.unit c).pulse with
  | none => s
  | some p =>
    let t := p.start + p.maxdur
    bif Nat.blt s.now t || (s.unit c).edges.any fun x => x.ev == p.ev && !x.start && Nat.ble x.tb t then s
    else tellEnd c (pulseStop c (digest c false true t s.now (s.setb (SCH_CHSTAT_MAXCUT c) true)))

/-! ### Sync loss and direction (R119, R120) -/

/-- The committed starts of channel `c` whose occurrence meets `f` and that TB has not passed are cancelled. -/
def cancelStarts (c : Nat) (f : Desc → Bool) (s : State) : State :=
  ((s.unit c).edges.filter fun x => x.start && Nat.ble s.now x.tb && f (s.occ x.ev).desc).foldl (fun u x => cancelOcc c x.ev u) s

/-- Channel `c` after its tracker has left SYNC720 (R119). -/
def lossChannel (c : Nat) (s : State) : State :=
  let s1 := cancelStarts c (fun d => d.mode != 3) s
  match (s1.unit c).pulse with
  | none => s1
  | some p => bif (s1.occ p.ev).desc.mode == 3 || hasEnd s1 c p.ev then s1 else tellEnd c (pulseStop c s1)

/-- The output units of tracker `n` act on its loss of SYNC720 (R119). -/
def syncLoss (n : Nat) (s : State) : State :=
  bif syncState s n == 4 then s else upTo 64 (fun c u => whenS (chanTrk u c == n) (lossChannel c) u) s

/-- A descriptor does not allow the direction `rev` (R106, R120). -/
def disallows (rev : Bool) (d : Desc) : Bool := d.mode != 3 && !d.allows rev

/-- Channel `c` after its tracker has taken the direction `rev` (R120). -/
def turnChannel (rev : Bool) (c : Nat) (s : State) : State :=
  let s1 := cancelStarts c (disallows rev) s
  match (s1.unit c).pulse with
  | none => s1
  | some p =>
    bif disallows rev (s1.occ p.ev).desc then tellEnd c (pulseStop c (s1.setb (SCH_CHSTAT_CANCEL c) true)) else s1

/-- The output units of tracker `n` act on its published direction (R120). -/
def directionCancel (n : Nat) (s : State) : State :=
  upTo 64 (fun c u => whenS (chanTrk u c == n) (turnChannel (u.flag (AT_SSTAT_DIR n)) c) u) s

/-! ### Output enables and pins (R4, R125, R126) -/

/-- A fault reaction takes the safe state of channel `c` in this tk (R261). -/
def cutNow (s : State) (c : Nat) : Bool := (s.unit c).cutTb == some s.now

/-- OUTEN of channel `c` is set; during a pulse the pin stays inactive until the next start (R126). -/
def outenSet (c : Nat) (s : State) : State :=
  bif outen s c || !s.hasPin c then s
  else
    let r := bif Nat.blt c 32 then Reg.SCH_OUTENL else Reg.SCH_OUTENH
    (s.wrn r (s.rdn r + 2 ^ (c % 32))).modUnit c fun u => { u with outTb := some s.now, shown := false, drain := false, lost := false }

/-- OUTEN of channel `c` is cleared by a write or a command (R126). -/
def outenOff (c : Nat) (s : State) : State := (channelSafe c s).modUnit c fun u => { u with lost := false }

/-- A write of OUTENL or OUTENH (R126). -/
def outenWrite (high : Bool) (v : Nat) (s : State) : State :=
  upTo 32 (fun i u =>
    let c := i + bif high then 32 else 0
    bif bitAt v i then outenSet c u else bif outen u c then outenOff c u else u) s

/-- What an output pin shows: a driven level, high impedance, high impedance with the keeper or the pull-down on (R125, R379),
nothing that is defined (R424), the idle pattern of a link, or what its port or link sends (R404). -/
inductive Pin where
  | low | high | open_ | kept | pulled | undefined | idle | live
  deriving DecidableEq, Repr

/-- The device is a carafe standby: in active/standby mode every member that is not ACTIVE, an ACTIVE one until it takes the
lines; an observer is one in either mode (R370, R378, R384, R386). -/
def carafeStandby (s : State) : Bool :=
  let st := s.get RING_STAT_STATE
  st == 5 || (st != 0 && (s.observer || s.flag RING_CFG_OBS)) || (st != 0 && !s.flag RING_CFG_MODE && (st != 4 || Nat.blt s.now s.ring.driveTb))

/-- Channel `c` is shared and digested (R379, R381). -/
def sharedChan (s : State) (c : Nat) : Bool :=
  bitAt (s.rdn (bif Nat.blt c 32 then Reg.RING_DMSKL else Reg.RING_DMSKH)) (c % 32)

/-- High impedance of a pin, with its keeper where the ring shares its net; in reset the pull-down stands in the keeper's place (R379,
R404). -/
def floating (s : State) (shared : Bool) : Pin :=
  bif s.flag RING_CFG_KEEP && !s.flag RING_CFG_MODE && shared then (bif s.power.inReset || s.power.angleReset then .pulled else .kept)
  else .open_

/-- The level of TO `c` (R125, R404, R424). -/
def toPin (s : State) (c : Nat) : Pin :=
  bif Nat.blt s.power.vsup 1500 then .undefined
  else bif Nat.blt s.power.vsup 3000 then .low
  else bif s.power.orel then floating s (sharedChan s c)
  else bif s.power.inReset || s.power.angleReset then .low
  else bif !s.hasPin c then .open_
  else bif carafeStandby s then floating s (sharedChan s c)
  else bif !outen s c then
    (match s.get (SCH_CHCFG_SAFE c) with | 0 => .low | 1 => .high | _ => .open_)
  else bif (s.unit c).shown != s.flag (SCH_CHCFG_POL c) then .high else .low

/-- ORELDm_N, an open-drain output: low while RING.OREL drives it, else released (R384, R404). -/
def oreldPin (s : State) (m : Nat) : Pin := bif !s.power.inReset && bitAt (s.get RING_OREL_ASSERT) m then .low else .open_

/-- An output of the ring: high impedance in reset, idle until RING.CTL.EN (R404). -/
def ringPin (s : State) : Pin := bif s.power.inReset || !s.counts.carafe then .open_ else bif s.flag RING_CTL_EN then .live else .idle

/-- An output of port `p`: high impedance in reset and until the port is configured, which the ROM does no earlier than the access table
(R368, R404). -/
def portPin (s : State) (p : Nat) : Pin := bif !s.power.inReset && s.power.romDone && hasPort s p then .live else .open_

/-- A shared channel names loop `k` (R379). -/
def sharedLoop (s : State) (k : Nat) : Bool := someBelow 64 fun c => sharedChan s c && s.get (SCH_CHCFG_CRL c) == k

/-- The level of gate output `g` of loop `k` (R152, R404, R424). -/
def gatePin (s : State) (k g : Nat) : Pin :=
  let l := s.loop k
  bif Nat.blt s.power.vsup 1500 then .undefined
  else bif Nat.blt s.power.vsup 3000 then .low
  else bif s.power.orel then floating s (sharedLoop s k)
  else bif s.power.inReset || s.power.angleReset then .low
  else bif !Nat.blt k s.counts.loops then .open_
  else bif carafeStandby s then floating s (sharedLoop s k)
  else bif (match g with | 0 => l.g0 | 1 => l.g1 | _ => l.g2) then .high else .low

/-! ### DRAIN (R145) -/

/-- A channel that drains and holds no committed edge takes its safe state (R145). -/
def drainOne (c : Nat) (s : State) : State :=
  let u := s.unit c
  bif u.drain && u.edges.isEmpty then
    (channelSafe c s).modUnit c fun v => { v with drain := false, lost := v.lost || outen s c, cutTb := some s.now }
  else s

/-- The channels whose DRAIN reaction completes in this tk (R145). -/
def drains (s : State) : State := s.units.foldl (fun u p => whenS p.2.drain (drainOne p.1) u) s

/-- An IMMEDIATE reaction (`fault`) or a CHSAFE on channel `c`: the safe state is due 2 tk from now, and an edge before it fires (R145;
DEDUCED, log entry 22: the rule gives the bound, the model takes all of it). -/
def safeSoon (fault : Bool) (c : Nat) (s : State) : State :=
  s.modUnit c fun u => { u with safeAt := some (match u.safeAt with | some p => (p.1, p.2 || fault) | none => (s.now + 2, fault)) }

/-- CHSAFE on channel `c`: as IMMEDIATE, and at once against a start in its own tk, whichever of the two came first (R145). -/
def chanSafe (c : Nat) (s : State) : State :=
  let s1 := (safeSoon false c s).modUnit c fun u => { u with chsafeTb := some s.now }
  whenS (match (s.unit c).pulse with | some p => p.start == s.now | none => false) (safeTake c) s1

/-- A safe state that is due on channel `c` is taken, before any edge of its tk (R145). -/
def safeOne (c : Nat) (s : State) : State :=
  whenS (match (s.unit c).safeAt with | some p => Nat.ble p.1 s.now | none => false) (safeTake c) s

/-- The safe states that are due in this tk (R145). -/
def safes (s : State) : State := s.units.foldl (fun u p => whenS p.2.safeAt.isSome (safeOne p.1) u) s

/-! ### The wrap of the angle (R100, R122) -/

/-- Tracker `n` has wrapped through zero: the ages of its work values in SYNC720, and MAXPC of its channels (R100, R122). -/
def cycleWrap (n : Nat) (s0 : State) : State :=
  let s := trackerSync n s0
  let k := s.trk n
  bif k.wraps == 0 && k.backWraps == 0 then s
  else
    let aged := bif k.wraps != 0 && syncState s n == 4 then upTo 24 (ageCyl n) s else s
    let s1 := aged.modTrk n fun j =>
      bif j.wraps != 0 then { j with wraps := j.wraps - 1 } else { j with backWraps := j.backWraps - 1 }
    upTo 64 (fun c u => whenS (chanTrk u c == n) (fun v => v.modUnit c fun x => { x with starts := 0 }) u) s1

/-! ### The commands -/

/-- TB reaches a committed edge of channel `c` (R111). -/
def execCommittedEdgeOutput (c : Fin 64) (s : State) : Host.Outcome State Fault Refusal := done (inAngle s (edgeOut c))

/-- The duration cut (R124). -/
def execMaxdurCut (c : Fin 64) (s : State) : Host.Outcome State Fault Refusal := done (inAngle s (durationCut c))

/-- A tracker has left SYNC720 (R119). -/
def execOutputUnitSyncLoss (n : Fin 4) (s : State) : Host.Outcome State Fault Refusal := done (inAngle s (syncLoss n))

/-- A tracker has changed its direction (R120). -/
def execDirectionChangeCancel (n : Fin 4) (s : State) : Host.Outcome State Fault Refusal :=
  done (inAngle s (directionCancel n))

/-- OUTENL or OUTENH is written (R126). -/
def execOutenWrite (high : Bool) (val : Word) (s : State) : Host.Outcome State Fault Refusal :=
  done (inAngle s (outenWrite high val.toNat))

/-- The angle of a tracker wraps through zero (R100). -/
def execAngleCycleWrap (n : Fin 4) (s : State) : Host.Outcome State Fault Refusal := done (inAngle s (cycleWrap n))

end Sys2Proof.Machine
end

