-- ==== Sys2Proof/Machine/Shift.lean ====
section
/-! DEFINITION. The step of TB in SYNCING: the same amount is added to TB and to every TB value that the angle domain holds, so
that intervals stay what they were (R376). -/

namespace Sys2Proof.Machine

/-- A TB value moved by `d`. -/
def moveTb (d : Int) (t : Nat) : Nat := (t + d).toNat

/-- A TB value that may be absent, moved by `d`. -/
def moveOpt (d : Int) (t : Option Nat) : Option Nat := t.map (moveTb d)

/-- A capture entry. -/
def CapEntry.moved (d : Int) (e : CapEntry) : CapEntry := { e with ts := moveTb d e.ts }

/-- An input. -/
def Input.moved (d : Int) (x : Input) : Input :=
  { x with
    pinTb := moveTb d x.pinTb
    run := moveOpt d x.run
    hist := x.hist.map fun p => (moveTb d p.1, p.2)
    passed := x.passed.map fun p => (moveTb d p.1, p.2)
    lastPass := moveOpt d x.lastPass
    queue := x.queue.map (CapEntry.moved d)
    stored := x.stored.map (CapEntry.moved d)
    vrFrom := moveOpt d x.vrFrom
    pulse := moveOpt d x.pulse }

/-- A tracker; the boundaries of the master's frames are TB values of the master and stay. -/
def Tracker.moved (d : Int) (k : Tracker) : Tracker :=
  { k with
    phaseTb := moveTb d k.phaseTb
    catchup := k.catchup.map fun c => { c with ts := moveTb d c.ts }
    tref := moveTb d k.tref
    suspect := k.suspect.map (CapEntry.moved d)
    lastPop := moveTb d k.lastPop
    window := k.window.map fun e => { e with ts := moveTb d e.ts }
    lastTs := moveTb d k.lastTs
    swreqTb := moveTb d k.swreqTb
    passTs := moveOpt d k.passTs
    candTb := moveOpt d k.candTb
    gen := k.gen.map fun g => { g with at_ := moveTb d g.at_ } }

/-- An output unit. -/
def OutUnit.moved (d : Int) (u : OutUnit) : OutUnit :=
  { u with
    edges := u.edges.map fun e => { e with tb := moveTb d e.tb }
    pulse := u.pulse.map fun p => { p with start := moveTb d p.start }
    prevEnd := moveOpt d u.prevEnd
    outTb := moveOpt d u.outTb
    safeAt := u.safeAt.map fun p => (moveTb d p.1, p.2), chsafeTb := u.chsafeTb.map (moveTb d)
    cutTb := moveOpt d u.cutTb }

/-- An occurrence. -/
def Occ.moved (d : Int) (o : Occ) : Occ :=
  { o with start := moveTb d o.start, end_ := moveOpt d o.end_, lastStart := moveOpt d o.lastStart }

/-- A sequencer. -/
def Esq.moved (d : Int) (q : Esq) : Esq :=
  { q with passTb := moveOpt d q.passTb, retTb := moveTb d q.retTb, ubreqTb := moveTb d q.ubreqTb, testTb := moveTb d q.testTb }

/-- A regulation loop. -/
def Loop.moved (d : Int) (l : Loop) : Loop :=
  { l with
    msg := l.msg.map fun m => { m with start := moveTb d m.start }
    phaseTb := moveTb d l.phaseTb
    blankTo := moveTb d l.blankTo
    off0 := moveOpt d l.off0
    off1 := moveOpt d l.off1
    off2 := moveOpt d l.off2
    tEnd := moveTb d l.tEnd
    ovcTo := moveOpt d l.ovcTo
    tw0 := moveTb d l.tw0
    idleTb := moveTb d l.idleTb
    calTb := moveTb d l.calTb
    calReqTb := moveTb d l.calReqTb
    enterAt := moveOpt d l.enterAt }

/-- The pressure converters' windows and conversions, which carry TB. -/
def Padc.moved (d : Int) (p : Padc) : Padc :=
  let conv (c : Conv) : Conv := { c with tb := moveTb d c.tb }
  { p with
    windows := p.windows.map fun w => (w.1, { w.2 with tbOpen := moveTb d w.2.tbOpen, tbLast := moveTb d w.2.tbLast })
    queue0 := p.queue0.map conv
    queue1 := p.queue1.map conv
    queue2 := p.queue2.map conv
    queue3 := p.queue3.map conv }

/-- The closed windows that wait for their analysis. -/
def Cae.moved (d : Int) (c : Cae) : Cae :=
  { c with closed := c.closed.map fun w =>
      { w with tbOpen := moveTb d w.tbOpen, tbClose := moveTb d w.tbClose, tbStored := moveTb d w.tbStored } }

/-- A timer's channel: capture values move, the intervals of WIDTH do not. -/
def GptChan.moved (d : Int) (capture : Bool) (c : GptChan) : GptChan :=
  { c with
    queue := bif capture then c.queue.map fun w => w + BitVec.ofInt 32 d else c.queue
    widthFrom := moveOpt d c.widthFrom }

/-- A timer of a state. -/
def gptMoved (d : Int) (s : State) (t : Nat) (g : Gpt) : Gpt :=
  { g with
    from_ := moveTb d g.from_
    shortAt := moveOpt d g.shortAt
    ch0 := g.ch0.moved d (s.get (Fields.GPTt_CCFG_MODE t 0) == 2)
    ch1 := g.ch1.moved d (s.get (Fields.GPTt_CCFG_MODE t 1) == 2) }

/-- A step of TB by `d` tk (R376). -/
def stepTb (d : Int) (s : State) : State :=
  { s with
    tb := s.tb + BitVec.ofInt 64 d
    inputs := s.inputs.map fun p => (p.1, p.2.moved d)
    trackers := s.trackers.map fun p => (p.1, p.2.moved d)
    occs := s.occs.map fun p => (p.1, p.2.moved d)
    units := s.units.map fun p => (p.1, p.2.moved d)
    copyTb := moveTb d s.copyTb
    esqs := s.esqs.map fun p => (p.1, p.2.moved d)
    loops := s.loops.map fun p => (p.1, p.2.moved d)
    padc := s.padc.moved d
    cae := s.cae.moved d
    gpts := s.gpts.map fun p => (p.1, gptMoved d s p.1 p.2)
    ring := { s.ring with digs := s.ring.digs.map fun r => { r with tb := moveTb d r.tb, pass := moveTb d r.pass }
                          driveTb := moveTb d s.ring.driveTb,
                          follows := s.ring.follows.map fun p => (p.1, { p.2 with trk := p.2.trk.moved d }) } }

end Sys2Proof.Machine
end

