-- ==== Sys2Proof/Machine/Crc.lean ====
section
/-! DEFINITION. The CRC-32C that packets, records and images carry (R185, R233). -/

namespace Sys2Proof.Machine

/-- The words' bytes, least significant first. -/
def wordBytes (w : Word) : List Byte := [w.extractLsb' 0 8, w.extractLsb' 8 8, w.extractLsb' 16 8, w.extractLsb' 24 8]

/-- One bit of the reflected polynomial 0x82F63B78. -/
def crcBit (c : Word) : Word := bif c.getLsbD 0 then (c >>> (1 : Nat)) ^^^ 0x82F63B78 else c >>> (1 : Nat)

/-- One byte enters the remainder. -/
def crcByte (c : Word) (b : Byte) : Word :=
  crcBit (crcBit (crcBit (crcBit (crcBit (crcBit (crcBit (crcBit (c ^^^ b.setWidth 32))))))))

/-- CRC-32C: initial value and final XOR all ones (R233). -/
def crc32c (bs : List Byte) : Word := (bs.foldl crcByte 0xFFFFFFFF) ^^^ 0xFFFFFFFF

/-- CRC-32C over words. -/
def crcWords (ws : List Word) : Word := crc32c (ws.flatMap wordBytes)

end Sys2Proof.Machine
end

