-- ==== Sys2Proof/Machine/Float.lean ====
section
/-! DEFINITION. IEEE 754 binary32 arithmetic, as the cores' F extension (R269) and the kernels of the combustion analysis
(chapter 9) use it: exact results in integers, rounded once. -/

namespace Sys2Proof.Machine.Fl

/-- A binary32 datum: not a number, an infinity, or the number (-1)^neg * m * 2^e. -/
inductive Val where
  | nan (signalling : Bool)
  | inf (neg : Bool)
  | fin (neg : Bool) (m : Nat) (e : Int)
  deriving DecidableEq, Repr

/-- Rounding modes, numbered as in the RISC-V F extension. -/
inductive Rm where
  | rne | rtz | rdn | rup | rmm
  deriving DecidableEq, Repr

/-- A result and the exception flags NV 16, DZ 8, OF 4, UF 2, NX 1. -/
structure Res where
  w : Word
  flags : Nat := 0
  deriving DecidableEq, Repr

/-- The quiet NaN that an operation delivers. -/
def qnan : Word := 0x7FC00000

/-- The sign bit. -/
def signBit (neg : Bool) : Nat := bif neg then 2 ^ 31 else 0

/-- Infinity. -/
def infW (neg : Bool) : Word := BitVec.ofNat 32 (signBit neg + 0x7F800000)

/-- Zero. -/
def zeroW (neg : Bool) : Word := BitVec.ofNat 32 (signBit neg)

/-- What a word stands for. -/
def unpack (w : Word) : Val :=
  let n := w.toNat
  let neg := n / 2 ^ 31 == 1
  let ex : Nat := n / 2 ^ 23 % 256
  let fr : Nat := n % 2 ^ 23
  bif ex == 255 then (bif fr == 0 then .inf neg else .nan (Nat.blt fr (2 ^ 22)))
  else bif ex == 0 then .fin neg fr (-149)
  else .fin neg (fr + 2 ^ 23) ((ex : Int) - 150)

/-- The number of bits of `n`. -/
def bits (n : Nat) : Nat := bif n == 0 then 0 else Nat.log2 n + 1

/-- `m / 2^k` rounded in a mode: the quotient, and whether it is inexact. -/
def shiftRound (rm : Rm) (neg : Bool) (m k : Nat) : Nat × Bool :=
  let q := m / 2 ^ k
  let r := m % 2 ^ k
  let half := 2 ^ k / 2
  let up := match rm with
    | .rne => Nat.blt half r || (r == half && r != 0 && q % 2 == 1)
    | .rtz => false
    | .rdn => neg && r != 0
    | .rup => !neg && r != 0
    | .rmm => Nat.ble half r && r != 0
  (q + up.toNat, r != 0)

/-- The number (-1)^neg * m * 2^e rounded to binary32. -/
def round (rm : Rm) (neg : Bool) (m : Nat) (e : Int) : Res :=
  bif m == 0 then { w := zeroW neg }
  else
    let top := e + bits m
    let q := max (top - 24) (-149)
    let r := bif decide (q ≤ e) then (m * 2 ^ (e - q).toNat, false) else shiftRound rm neg m (q - e).toNat
    let overs := Nat.ble (2 ^ 24) r.1
    let mant := bif overs then r.1 / 2 else r.1
    let ex := bif overs then q + 1 else q
    bif Nat.ble (2 ^ 23) mant && decide (104 < ex) then
      let toMax := match rm with
        | .rtz => true
        | .rdn => !neg
        | .rup => neg
        | _ => false
      { w := bif toMax then BitVec.ofNat 32 (signBit neg + 0x7F7FFFFF) else infW neg, flags := 5 }
    else
      let free := bif decide (top - 24 ≤ e) then (m * 2 ^ (e - (top - 24)).toNat, false)
        else shiftRound rm neg m ((top - 24) - e).toNat
      let tiny := decide ((top - 24) + bits free.1 ≤ -126)
      let biased := bif Nat.blt mant (2 ^ 23) then 0 else (ex + 150).toNat
      { w := BitVec.ofNat 32 (signBit neg + biased * 2 ^ 23 + mant % 2 ^ 23), flags := bif r.2 then (bif tiny then 3 else 1) else 0 }

/-- An exact ratio num / den * 2^e, rounded: sticky bits below the quotient keep it exact enough. -/
def roundRatio (rm : Rm) (neg : Bool) (num den : Nat) (e : Int) : Res :=
  let k := 30 + bits den
  let q := num * 2 ^ k / den
  let r := num * 2 ^ k % den
  round rm neg (2 * q + (r != 0).toNat) (e - k - 1)

/-- The invalid-operation result. -/
def invalid : Res := { w := qnan, flags := 16 }

/-- A NaN result of an operation on NaN operands: the flag NV for a signalling one. -/
def nanRes (vs : List Val) : Res :=
  { w := qnan, flags := bif vs.any fun v => decide (v = .nan true) then 16 else 0 }

/-- Whether an operand is a NaN. -/
def Val.isNan : Val → Bool
  | .nan _ => true
  | _ => false

/-- Signed integer of a mantissa at exponent `e0`. -/
def scaled (neg : Bool) (m : Nat) (e e0 : Int) : Int :=
  let v : Int := (m * 2 ^ (e - e0).toNat : Nat)
  bif neg then -v else v

/-- The sum of two numbers. -/
def addFin (rm : Rm) (n1 : Bool) (m1 : Nat) (e1 : Int) (n2 : Bool) (m2 : Nat) (e2 : Int) : Res :=
  let e0 := min e1 e2
  let t := scaled n1 m1 e1 e0 + scaled n2 m2 e2 e0
  bif t == 0 then
    { w := zeroW (bif m1 == 0 && m2 == 0 && n1 == n2 then n1 else decide (rm = .rdn)) }
  else round rm (decide (t < 0)) t.natAbs e0

/-- Addition. -/
def addV (rm : Rm) (a b : Val) : Res :=
  match a, b with
  | .nan _, _ => nanRes [a, b]
  | _, .nan _ => nanRes [a, b]
  | .inf x, .inf y => bif x == y then { w := infW x } else invalid
  | .inf x, _ => { w := infW x }
  | _, .inf y => { w := infW y }
  | .fin n1 m1 e1, .fin n2 m2 e2 => addFin rm n1 m1 e1 n2 m2 e2

/-- The datum with its sign reversed. -/
def Val.negate : Val → Val
  | .nan q => .nan q
  | .inf x => .inf (!x)
  | .fin n m e => .fin (!n) m e

/-- Multiplication. -/
def mulV (rm : Rm) (a b : Val) : Res :=
  match a, b with
  | .nan _, _ => nanRes [a, b]
  | _, .nan _ => nanRes [a, b]
  | .inf x, .inf y => { w := infW (x != y) }
  | .inf x, .fin n m _ => bif m == 0 then invalid else { w := infW (x != n) }
  | .fin n m _, .inf y => bif m == 0 then invalid else { w := infW (n != y) }
  | .fin n1 m1 e1, .fin n2 m2 e2 => round rm (n1 != n2) (m1 * m2) (e1 + e2)

/-- Division. -/
def divV (rm : Rm) (a b : Val) : Res :=
  match a, b with
  | .nan _, _ => nanRes [a, b]
  | _, .nan _ => nanRes [a, b]
  | .inf _, .inf _ => invalid
  | .inf x, .fin n _ _ => { w := infW (x != n) }
  | .fin n _ _, .inf y => { w := zeroW (n != y) }
  | .fin n1 m1 e1, .fin n2 m2 e2 =>
    bif m2 == 0 then (bif m1 == 0 then invalid else { w := infW (n1 != n2), flags := 8 })
    else bif m1 == 0 then { w := zeroW (n1 != n2) }
    else roundRatio rm (n1 != n2) m1 m2 (e1 - e2)

/-- Integer square root by bits, from the bit `2^k` downwards. -/
def isqrt (n : Nat) : Nat → Nat → Nat
  | 0, acc => acc
  | k + 1, acc => bif Nat.ble ((acc + 2 ^ k) * (acc + 2 ^ k)) n then isqrt n k (acc + 2 ^ k) else isqrt n k acc

/-- Square root. -/
def sqrtV (rm : Rm) (a : Val) : Res :=
  match a with
  | .nan _ => nanRes [a]
  | .inf x => bif x then invalid else { w := infW false }
  | .fin neg m e =>
    bif m == 0 then { w := zeroW neg }
    else bif neg then invalid
    else
      let odd := e % 2 == 1
      let m1 := (bif odd then 2 * m else m) * 2 ^ 60
      let e1 := (bif odd then e - 1 else e) - 60
      let r := isqrt m1 48 0
      round rm false (2 * r + (r * r != m1).toNat) (e1 / 2 - 1)

/-- Fused multiply-add a * b + c. -/
def fmaV (rm : Rm) (a b c : Val) : Res :=
  match a, b, c with
  | .fin n1 m1 e1, .fin n2 m2 e2, .fin n3 m3 e3 => addFin rm (n1 != n2) (m1 * m2) (e1 + e2) n3 m3 e3
  | .fin _ _ _, .fin _ _ _, .inf x => { w := infW x }
  | _, _, _ =>
    let bad := match a, b with
      | .inf _, .fin _ m _ => m == 0
      | .fin _ m _, .inf _ => m == 0
      | _, _ => false
    bif bad then invalid
    else bif a.isNan || b.isNan || c.isNan then nanRes [a, b, c]
    else
      let neg (v : Val) : Bool := match v with
        | .inf x => x
        | .fin n _ _ => n
        | .nan _ => false
      let s := neg a != neg b
      match c with
      | .inf y => bif s == y then { w := infW s } else invalid
      | _ => { w := infW s }

/-- Order of two numbers that are not NaN: less, equal. -/
def ordV (a b : Val) : Bool × Bool :=
  match a, b with
  | .inf x, .inf y => (x && !y, x == y)
  | .inf x, _ => (x, false)
  | _, .inf y => (!y, false)
  | .fin n1 m1 e1, .fin n2 m2 e2 =>
    let e0 := min e1 e2
    let x := scaled n1 m1 e1 e0
    let y := scaled n2 m2 e2 e0
    (decide (x < y), decide (x = y))
  | _, _ => (false, false)

/-- Addition, subtraction, multiplication, division and square root on words, to nearest even: the value alone. -/
def add (a b : Word) : Word := (addV .rne (unpack a) (unpack b)).w
def sub (a b : Word) : Word := (addV .rne (unpack a) (unpack b).negate).w
def mul (a b : Word) : Word := (mulV .rne (unpack a) (unpack b)).w
def div (a b : Word) : Word := (divV .rne (unpack a) (unpack b)).w
def sqrt (a : Word) : Word := (sqrtV .rne (unpack a)).w

/-- `a < b` and `a ≤ b`; false when an operand is a NaN. -/
def lt (a b : Word) : Bool := (ordV (unpack a) (unpack b)).1
def le (a b : Word) : Bool := let r := ordV (unpack a) (unpack b); r.1 || r.2

/-- The absolute value. -/
def abs (a : Word) : Word := a &&& 0x7FFFFFFF

/-- An integer rounded to binary32. -/
def ofInt (i : Int) : Word := (round .rne (decide (i < 0)) i.natAbs 0).w

/-- The number times `num / den`, rounded to an integer with ties to even; none for an infinity (its sign) or a NaN. -/
def toFixed (w : Word) (num den : Nat) : Sum (Option Bool) Int :=
  match unpack w with
  | .nan _ => .inl none
  | .inf x => .inl (some x)
  | .fin neg m e =>
    let n := m * num * 2 ^ e.toNat
    let d := den * 2 ^ (-e).toNat
    let q := n / d
    let r := n % d
    let v : Int := (q + (Nat.blt d (2 * r) || (2 * r == d && q % 2 == 1)).toNat : Nat)
    .inr (bif neg then -v else v)

end Sys2Proof.Machine.Fl
end

