-- ==== Sys2Proof/Machine/Elementary.lean ====
section
/-! DEFINITION. The cosine, the sine and the power of the combustion kernels (R182, R183): the exact value in fixed point of 192
fraction bits, and then one of the two binary32 numbers next to it; which of them is free, since the spec states no rounding. -/

namespace Sys2Proof.Machine.Fl

/-- One, pi and the natural logarithm of 2 in units of 2^-192. -/
def fixOne : Nat := 2 ^ 192
def fixPi : Nat := 0x3243F6A8885A308D313198A2E03707344A4093822299F31D0
def fixLn2 : Nat := 0xB17217F7D1CF79ABC9E3B39803F2F6AF40F343267298B62E

/-- The sum of a Taylor series: each term is the one before times `step`, over the next factor. -/
def series (step : Int) (factor : Nat → Nat) : Nat → Nat → Int → Int
  | 0, _, t => t
  | fuel + 1, k, t => t + series step factor fuel (k + 1) (t * step / (fixOne * factor k : Nat))

/-- The cosine of an angle of at most a right angle, in units of 2^-192. -/
def fixCos (x : Nat) : Int :=
  series (-((x * x / fixOne : Nat) : Int)) (fun k => (2 * k + 1) * (2 * k + 2)) 40 0 fixOne

/-- The cosine of `n` times 0.05 degrees (R182): of the angle's distance from the nearer end of the diameter. -/
def cosOf (n : Int) : Int :=
  let k := (n % 7200).toNat
  let j := min k (7200 - k)
  bif Nat.ble j 1800 then fixCos (j * fixPi / 3600) else -fixCos ((3600 - j) * fixPi / 3600)

/-- A binary32 number next to `v * 2^e`, above it or below it; the number itself where it is one. -/
def besides (up : Bool) (v e : Int) : Word := (round (bif up then .rup else .rdn) (decide (v < 0)) v.natAbs e).w

/-- A value in units of 2^-192, freed of the last bits, in which the series may err, as a binary32 number next to it. -/
def fromFix (up : Bool) (v e : Int) : Word := besides up ((v + 2 ^ 47) / 2 ^ 48) (e - 144)

/-- The cosine and the sine of `n` times 0.05 degrees, as the kernels give them (R182; log entry 24). -/
def cosMark (n : Int) : Word := fromFix (Config.cosUp n) (cosOf n) 0
def sinMark (n : Int) : Word := fromFix (Config.sinUp n) (cosOf (n - 1800)) 0

/-- The odd powers of `z` over their exponents, from exponent `2 * k + 1` on: half the logarithm of (1 + z) / (1 - z). -/
def atanhSum (z2 : Nat) : Nat → Nat → Nat → Nat
  | 0, _, _ => 0
  | fuel + 1, k, p => p / (2 * k + 1) + atanhSum z2 fuel (k + 1) (p * z2 / fixOne)

/-- The natural logarithm of `m * 2^e`, `m` positive, in units of 2^-192. -/
def fixLn (m : Nat) (e : Int) : Int :=
  let p := 2 ^ (bits m - 1)
  let z := (m - p) * fixOne / (m + p)
  (e + (bits m - 1 : Nat)) * fixLn2 + (2 * atanhSum (z * z / fixOne) 70 0 z : Nat)

/-- The exponential of a value between 0 and the logarithm of 2, in units of 2^-192. -/
def fixExp (r : Nat) : Int := series r (fun k => k + 1) 60 0 fixOne

/-- A positive number to a power, as the kernels give it (R183; log entry 24); of other operands the spec states no power. -/
def pow (x y : Word) : Word :=
  match unpack x, unpack y with
  | .fin false m e, .fin neg my ey =>
    bif m == 0 then Config.powF x y
    else
      let t0 : Int := fixLn m e * my * 2 ^ ey.toNat / 2 ^ (-ey).toNat
      let t := bif neg then -t0 else t0
      let n := t / fixLn2
      fromFix (Config.powUp x y) (fixExp (t - n * fixLn2).toNat) (max (-400) (min 300 n))
  | _, _ => Config.powF x y

end Sys2Proof.Machine.Fl
end

