-- ==== Sys2Proof/Machine/Esq.lean ====
section
/-! DEFINITION. The event sequencers: passes and snapshots, microcode, EVAL, banks, coast, faults, control (R129 to R148). -/

namespace Sys2Proof.Machine

open Fields

/-! ### Registers -/

/-- Change the hidden part of sequencer `n`. -/
def State.modEsq (s : State) (n : Nat) (f : Esq → Esq) : State := s.putEsq n (f (s.esq n))

/-- A general register; GP0 reads zero (R129). -/
def gp (s : State) (n i : Nat) : Word := bif i == 0 then 0 else s.rd (Reg.ESQ_GP n i)

/-- Write a general register; a write of GP0 is ignored (R129). -/
def setGp (n i : Nat) (v : Word) (s : State) : State := bif i == 0 then s else s.wr (Reg.ESQ_GP n i) v

/-- A write is refused: ERRINFO.PARAM. -/
def esqRefuse (n : Nat) (s : State) : State := s.setb (ESQ_ERRINFO_PARAM n) true

/-! ### Faults (R145) -/

/-- A DRAIN reaction on channel `c` (R145). -/
def drainStart (c : Nat) (s : State) : State :=
  let s1 := match (s.unit c).pulse with
    | none => s
    | some p => bif hasEnd s c p.ev then s else tellEnd c (pulseStop c s)
  drainOne c (s1.modUnit c fun u => { u with drain := true })

/-- Sequencer `n` takes a fault: 1 UECC, 2 ILL, 3 ADDR, 4 PMISS, 5 HALT, 6 COAST, 7 ABUSP (R145). -/
def esqFault (n cause : Nat) (s : State) : State :=
  let s1 := s.setb ⟨Reg.ESQ_FLT n, cause, 1⟩ true
  let s2 := whenS (s1.get (ESQ_FLT_CAUSE n) == 0) (·.set (ESQ_FLT_CAUSE n) cause) s1
  let s3 := ((s2.setb (ESQ_CTL_RUN n) false).set (ESQ_STAT_STATE n) 2).modEsq n fun q => { q with wait := .none }
  match groupOf s3 n with
  | none => s3
  | some g =>
    let react := bif s3.flag (ESQ_CFG_FREACT n) then safeSoon true else drainStart
    upTo 8 (fun i u => whenS (u.hasChan (8 * g + i)) (react (8 * g + i)) u) s3

/-! ### Execution of microcode (R136 to R138) -/

/-- Sequencer `n` is RUNNING and waits for nothing: an instruction may start (R137). -/
def esqReady (s : State) (n : Nat) : Bool :=
  esqRunning s n && match (s.esq n).wait with
    | .none => true
    | .wpass => false
    | .wtb u => decide (0 ≤ signedOf 32 ((s.tb.setWidth 32 - u).toNat))

/-- Address of the microcode word at the PC (R142). -/
def ucodeAddr (s : State) (n : Nat) : Nat :=
  0x500D0000 + n * 0x4000 + (s.flag (ESQ_STAT_UBANK n)).toNat * 0x2000 + 4 * s.get (ESQ_STAT_PC n)

/-- The PC moves on, and the cycle count by `cost` (R137, R138). -/
def esqAdvance (n cost : Nat) (s : State) : State :=
  let q := s.esq n
  let pc := s.get (ESQ_STAT_PC n)
  (s.set (ESQ_STAT_PC n) ((pc + 1) % 2048)).putEsq n
    { q with wait := .none, cycle := max q.cycle (2 * (s.now - q.retTb)) + cost }

/-- An instruction of sequencer `n`: fetched, or a fault UECC; its effect `f` takes the state after the PC has moved on
(R137, R138, R142). DEDUCED: after a fault of JR, LDE, EVAL or HALT, STAT.PC stands past the instruction (log entry 9). -/
def instr (n cost : Nat) (f : State → State) (s : State) : State :=
  bif !esqReady s n then s
  else bif s.ecc.contains (ucodeAddr s n) then esqFault n 1 s
  else f (esqAdvance n cost s)

/-- An instruction that writes one register. -/
def compute (n cost dst : Nat) (f : State → Word) (s : State) : State := instr n cost (fun u => setGp n dst (f u) u) s

/-- A branch: one cycle, or two when taken (R137). -/
def branch (n : Nat) (tgt : BitVec 11) (c : State → Bool) (s : State) : State :=
  instr n 1 (fun u => bif c u then (u.set (ESQ_STAT_PC n) tgt.toNat).modEsq n fun q => { q with cycle := q.cycle + 1 } else u) s

/-- Address of the local data word that LD and ST name. -/
def ldmAddr (s : State) (n sa : Nat) (imm : BitVec 18) : Nat :=
  Reg.ESQ_LDM n (((gp s n sa).toNat + imm.toNat) % 256)

/-- A word of the scheduling memories as it reads: a channel's status shows its pulse and its committed edges, and an absent channel
reads zero (R2, R103, R137). -/
def schWord (s : State) (a : Nat) : Word :=
  let c := (a - 0x5006A800) / 32
  bif !(Nat.ble 0x5006A800 a && Nat.blt a 0x5006B000) then s.rd a
  else bif !s.hasChan c then 0
  else bif a % 32 == 0x14 then
    withField (SCH_CHSTAT_ON c) (withField (SCH_CHSTAT_NCOMMIT c) (s.rd a) (s.unit c).edges.length) (s.unit c).pulse.isSome.toNat
  else s.rd a

/-- LDE: a word of the scheduling memories, as its pass reads them, or a fault ADDR (R104, R138). -/
def loadEvent (n dst sa : Nat) (imm : BitVec 18) (s : State) : State :=
  let off := ((gp s n sa + imm.zeroExtend 32) <<< (2 : Nat)).toNat
  bif Nat.blt off 0xB000 then setGp n dst (schWord (passView s) (0x50060000 + off)) s else esqFault n 3 s

/-- The ABUS value of tracker `n`, as published in the previous tk (R20, R133, R134). -/
def snapOf (s : State) (n : Nat) : Snap := s.published.getD n {}

/-- The ABUS value that tracker `n` publishes in this tk (R20). -/
def abusNow (s : State) (n : Nat) : Snap :=
  { angle := angleAt s n s.now, rate := s.get (AT_RATE_RATE n), acc := s.geti (AT_ACC_ACC n), dir := s.flag (AT_SSTAT_DIR n),
    sync := syncState s n, guarded := s.flag (AT_PSTAT_MODE n), word := BitVec.ofNat 16 (s.rdn (Reg.AT_SSTAT n) / 65536) }

/-- What ABR reads: the snapshot or the live value (R134, R137). -/
def abusRead (s : State) (n : Nat) (imm : BitVec 18) : Snap :=
  let t := imm.toNat % 4
  bif imm.getLsbD 4 then snapOf s t else (s.esq n).snaps.getD t {}

/-- A field of an ABUS value: 0 angle, 1 RATE, 2 ACC, 3 the state word (R137). -/
def abusField (v : Snap) (f : Nat) : Word :=
  match f with
  | 0 => BitVec.ofNat 32 v.angle
  | 1 => BitVec.ofNat 32 v.rate
  | 2 => BitVec.ofInt 32 v.acc
  | _ => v.word.zeroExtend 32

/-- TBR (R137). -/
def timeRead (n dst : Nat) (high : Bool) (s : State) : State :=
  bif high then setGp n dst (s.esq n).tbHigh s
  else setGp n dst (s.tb.setWidth 32) (s.modEsq n fun q => { q with tbHigh := s.tb.extractLsb' 32 32 })

/-- FLG: the flags, then the chosen ones of bits 2:0 and 4 clear (R137). -/
def takeFlags (n dst imm : Nat) (s : State) : State :=
  let f := s.get (ESQ_FLAGS_FLAGS n)
  setGp n dst (BitVec.ofNat 32 f) (s.set (ESQ_FLAGS_FLAGS n) (f &&& (0x1F ^^^ (imm &&& 0x17))))

/-- ERES: the result of the pass, each count saturating at 0xFF (R137). -/
def passResult (q : Esq) : Word :=
  BitVec.ofNat 32 (min 255 q.skips * 2 ^ 24 + min 255 q.sweeps * 2 ^ 16 + min 255 q.clamps * 2 ^ 8 + min 255 q.commits)

/-- CALL: the PC has moved on, so it is the return address (R137). -/
def callTo (n tgt : Nat) (s : State) : State :=
  (setGp n 15 (BitVec.ofNat 32 (s.get (ESQ_STAT_PC n))) s).set (ESQ_STAT_PC n) tgt

/-- JR: to SA[10:0]; a fault ILL when a higher bit is set (R138). -/
def jumpReg (n sa : Nat) (s : State) : State :=
  let v := (gp s n sa).toNat
  bif Nat.blt v 2048 then s.set (ESQ_STAT_PC n) v else esqFault n 2 s

/-- WPASS is reached: HWM, and the wait for the strobe (R137, R141). -/
def waitPass (n : Nat) (s : State) : State :=
  let c := min 255 (s.esq n).cycle
  (s.set (ESQ_PERF_HWM n) (max (s.get (ESQ_PERF_HWM n)) c)).modEsq n fun q => { q with wait := .wpass }

/-- One descriptor of an EVAL: already evaluated, dropped, or issued (R139, R140). -/
def issueOne (n e : Nat) (s : State) : State :=
  let q := s.esq n
  bif q.evald.contains e then s
  else
    let late := !q.inPass || Nat.blt q.cycle 2 || Nat.blt 100 q.cycle || Nat.ble 128 q.evald.length
    bif late then (s.setb (ESQ_STAT_PLATE n) true).tally (ESQ_PERF_PLCNT n)
    else evalEvent n e (s.putEsq n { q with evald := q.evald ++ [e], issueEnd := q.cycle + 1 })

/-- The descriptors of an EVAL in index order, two per cycle; `half` says that the cycle has taken one (R139). -/
def issueAll (n : Nat) : List Nat → Bool → State → State
  | [], half, s => whenS half (·.modEsq n fun q => { q with cycle := q.cycle + 1 }) s
  | e :: es, half, s =>
    let counts := !((s.esq n).evald.contains e)
    let s1 := issueOne n e s
    bif !counts then issueAll n es half s1
    else bif half then issueAll n es false (s1.modEsq n fun q => { q with cycle := q.cycle + 1 })
    else issueAll n es true s1

/-- EVAL: descriptors IMM[17:10] from event IMM[9:0], or the whole range; outside EVRNG a fault ADDR (R139). -/
def evaluate (n imm : Nat) (s : State) : State :=
  let base := s.get (ESQ_EVRNG_BASE n)
  let cnt := s.get (ESQ_EVRNG_CNT n)
  let first := bif imm == 0 then base else imm % 1024
  let m := bif imm == 0 then cnt else imm / 1024
  bif m != 0 && (Nat.blt first base || Nat.blt (base + cnt) (first + m)) then esqFault n 3 s
  else issueAll n ((List.range m).map (first + ·)) false s

/-- EDRAIN: until the commits of the last issue are written, 1 to 16 cycles (R137, R139). -/
def drainPipe (n : Nat) (s : State) : State :=
  s.modEsq n fun q => { q with cycle := max (q.cycle + 1) (min (q.cycle + 16) (q.issueEnd + 16)) }

/-- CHSAFE (R137, R145). -/
def channelsSafe (n imm : Nat) (s : State) : State :=
  match groupOf s n with
  | none => s
  | some g => upTo 8 (fun i u => whenS (bitAt imm i && u.hasChan (8 * g + i)) (chanSafe (8 * g + i)) u) s

/-- A microcode word is illegal: an opcode that is not listed, or a field that must be zero and is not (R136 to R138). -/
def ucodeIllegal (w : Nat) : Bool :=
  let op := bitsAt w 26 6
  let a := Nat.ble op 0x09 || op == 0x2A || op == 0x30 || op == 0x32 || op == 0x35 || op == 0x36
  let b := (Nat.ble 0x10 op && Nat.ble op 0x1E) || op == 0x31 || op == 0x33 || op == 0x34
  let c := Nat.ble 0x20 op && Nat.ble op 0x25
  let j := op == 0x28 || op == 0x29
  !(a || b || c || j) || (a && bitsAt w 0 14 != 0) || (c && bitsAt w 11 7 != 0) || (j && bitsAt w 11 15 != 0) ||
    (op == 0x17 && bitsAt w 18 4 != 0) || (op == 0x2A && (bitsAt w 22 4 != 0 || bitsAt w 14 4 != 0))

/-- An illegal instruction is fetched: fault ILL; the PC stays at it (R138). -/
def illegal (n w : Nat) (s : State) : State :=
  bif !esqReady s n || !ucodeIllegal w then s
  else bif s.ecc.contains (ucodeAddr s n) then esqFault n 1 s
  else esqFault n 2 s

/-! ### Passes (R133, R135, R141, R143, R144) -/

/-- CYCW: two snapshots lie on either side of zero in the direction of rotation, both in SYNC720 (R135); after a reversal the angle may
have moved the other way, and has then crossed nothing. -/
def cycleFlag (l : Nat) (p c : Snap) : Bool :=
  p.sync == 4 && c.sync == 4 && Nat.blt (distTo l { p with dir := c.dir } c.angle) (l / 2) &&
    bif c.dir then Nat.blt p.angle c.angle else Nat.blt c.angle p.angle

/-- The flags of a snapshot of the cycle tracker (R135). -/
def snapFlags (s : State) (n : Nat) (p c : Snap) : Nat :=
  let old := s.get (ESQ_FLAGS_FLAGS n)
  ((old &&& 0x17) ||| (cycleFlag (cycleLen s (s.get (ESQ_CFG_CTRK n))) p c).toNat ||| (p.dir != c.dir).toNat * 2 ||| (p.sync != c.sync).toNat * 4) + (coasting s).toNat * 8

/-- The WPASS of sequencer `n` catches the strobe: it continues at cycle 2, on the other bank when a switch is due
(R137, R141, R143). -/
def strobeCaught (n : Nat) (wrap : Bool) (s : State) : State :=
  let q := s.esq n
  let s1 := s.putEsq n { q with wait := .none, retTb := s.now, cycle := 2, issueEnd := 0, inPass := true, evald := [], misses := 0,
                                skips := 0, sweeps := 0, clamps := 0, commits := 0 }
  let off := syncState s (s.get (ESQ_CFG_CTRK n)) != 4
  bif s.flag (ESQ_CTL_UBREQ n) && Nat.blt q.ubreqTb s.now && (wrap || off) then
    let s2 := ((s1.setb (ESQ_STAT_UBANK n) (!s.flag (ESQ_STAT_UBANK n))).setb (ESQ_CTL_UBREQ n) false).set (ESQ_STAT_PC n) 0
    let s3 := s2.set (ESQ_FLAGS_FLAGS n) (s2.get (ESQ_FLAGS_FLAGS n) ||| 16)
    (endJob q.ubankJob 0 0 s3).modEsq n fun x => { x with ubankJob := 0 }
  else s1

/-- A strobe that sequencer `n` misses (R141). -/
def strobeMissed (n : Nat) (s : State) : State :=
  let m := (s.esq n).misses + 1
  let s1 := (s.tally (ESQ_PERF_MISSCNT n)).modEsq n fun q => { q with misses := m, evald := [] }
  bif Nat.ble (s.get (ESQ_CFG_PMMAX n)) m then esqFault n 4 s1 else s1

/-- The pass strobe at sequencer `n`: snapshot, flags, coast count, and the WPASS that waits for it (R133, R135, R141, R144). A
snapshot with a parity error is not taken, and a running sequencer takes a fault ABUSP (R145; DEDUCED, log entry 62). -/
def strobeOne (n : Nat) (bad : Bool) (s : State) : State :=
  bif !s.hasEsq n then s
  else bif bad then
    let s1 := s.modEsq n fun q => { q with prev := q.snaps, passTb := some s.now }
    bif esqRunning s n then esqFault n 7 s1 else s1
  else
    let k := s.get (ESQ_CFG_CTRK n)
    let p := (s.esq n).snaps.getD k {}
    let cur := (List.range 4).map (snapOf s)
    let c := cur.getD k {}
    let s1 := (s.set (ESQ_FLAGS_FLAGS n) (snapFlags s n p c)).modEsq n fun q => { q with prev := q.snaps, snaps := cur, passTb := some s.now }
    let wrap := cycleFlag (cycleLen s k) p c
    let s2 := whenS (wrap && coasting s && esqRunning s n) (·.tally (ESQ_STAT_COASTCNT n)) s1
    bif !esqRunning s n then s2
    else
      let q := s.esq n
      bif q.wait == .wpass && Nat.ble q.cycle (2 * (s.now - q.retTb)) then strobeCaught n wrap s2 else strobeMissed n s2

/-- The pass strobe: what was written since the last one is read from now on, and banks switch before any forecast of the pass (R21,
R104, R121, R133). -/
def passStrobe (parity : BitVec 8) (s : State) : State :=
  bif s.now % 64 != 0 || (s.esq 0).passTb == some s.now then s
  else
    let s1 := upTo 8 (fun n u => strobeOne n (parity.getLsbD n) u) { s with held := [] }
    bankPass (s1.esq 0).prev (s1.esq 0).snaps s1

/-- COASTCNT of sequencer `n` has reached COASTMAX: a fault of cause COAST (R144). -/
def coastExpired (n : Nat) (s : State) : State :=
  bif esqRunning s n && coasting s && Nat.ble (s.get (ESQ_CFG_COASTMAX n)) (s.get (ESQ_STAT_COASTCNT n)) then esqFault n 6 s else s

/-- A pair has returned to service: COAST and COASTCNT clear (R144). -/
def coastReturn (s : State) : State :=
  bif coasting s then s
  else upTo 8 (fun n u => (u.set (ESQ_FLAGS_FLAGS n) (u.get (ESQ_FLAGS_FLAGS n) &&& 0x17)).set (ESQ_STAT_COASTCNT n) 0) s

/-! ### Control (R131, R132, R143, R146, R147) -/

/-- The ranges of two sequencers overlap. -/
def rangesOverlap (s : State) (n m : Nat) : Bool :=
  let b := s.get (ESQ_EVRNG_BASE n)
  let c := s.get (ESQ_EVRNG_CNT n)
  let b2 := s.get (ESQ_EVRNG_BASE m)
  let c2 := s.get (ESQ_EVRNG_CNT m)
  c != 0 && c2 != 0 && Nat.blt b (b2 + c2) && Nat.blt b2 (b + c)

/-- Whether RUN of sequencer `n` must be refused (R132, R146). -/
def runRefused (s : State) (n : Nat) : Bool :=
  s.get (ESQ_STAT_STATE n) != 0 ||
    (s.get (ESQ_EVRNG_CNT n) != 0 && Nat.blt 1024 (s.get (ESQ_EVRNG_BASE n) + s.get (ESQ_EVRNG_CNT n))) ||
    someBelow 8 fun m => m != n && esqRunning s m && rangesOverlap s n m

/-- The GP registers of sequencer `n` clear. -/
def clearGps (n : Nat) (s : State) : State := s.clearRegs (Reg.ESQ_GP n 0) 64

/-- CTL.RUN of sequencer `n` is set (R132, R146). -/
def esqRun (n : Nat) (s : State) : State :=
  bif !s.hasEsq n || s.flag (ESQ_CTL_RUN n) then s
  else bif runRefused s n then esqRefuse n s
  else
    let pass := s.now / 64 * 64
    let s1 := ((s.setb (ESQ_CTL_RUN n) true).setb (ESQ_STAT_UBANK n) (s.flag (ESQ_CFG_SBANK n))).set (ESQ_STAT_PC n) 0
    ((clearGps n s1).set (ESQ_STAT_STATE n) 1 |>.set (ESQ_FLAGS_FLAGS n) 0).modEsq n fun q =>
      { q with wait := .none, inPass := false, retTb := pass, cycle := 2 * (s.now - pass), issueEnd := 0, evald := [], misses := 0,
               skips := 0, sweeps := 0, clamps := 0, commits := 0 }

/-- CTL.RUN of sequencer `n` is cleared: the core stops at once (R146). -/
def esqStop (n : Nat) (s : State) : State :=
  bif !s.flag (ESQ_CTL_RUN n) then s
  else ((s.setb (ESQ_CTL_RUN n) false).set (ESQ_STAT_STATE n) 0).modEsq n fun q => { q with wait := .none }

/-- CTL.FCLR of sequencer `n` is written (R145). -/
def esqFclr (n : Nat) (s : State) : State :=
  bif s.get (ESQ_STAT_STATE n) == 2 then (s.wr (Reg.ESQ_FLT n) 0).set (ESQ_STAT_STATE n) 0 else s

/-- CTL.UBREQ of sequencer `n` is set (R143). -/
def esqUbreq (n : Nat) (s : State) : State :=
  bif !s.hasEsq n || s.flag (ESQ_CTL_UBREQ n) then s
  else (s.setb (ESQ_CTL_UBREQ n) true).modEsq n fun q => { q with ubreqTb := s.now }

/-- CTL.STEST of sequencer `n` is set, or refused (R147). -/
def esqTestStart (n : Nat) (s : State) : State :=
  bif !s.hasEsq n then s
  else bif s.get (ESQ_STAT_STATE n) != 0 || s.flag (ESQ_OWN_VALID n) then esqRefuse n s
  else ((s.setb (ESQ_CTL_STEST n) true).set (ESQ_STAT_STATE n) 3).modEsq n fun q => { q with testTb := s.now }

/-- The self-test of sequencer `n` ends 50,000 tk after its start: it fails when the march or the vectors failed, or when a word of
either microcode bank has met an uncorrectable error (R147). -/
def esqTestDone (n : Nat) (good : Bool) (s : State) : State :=
  let q := s.esq n
  let pass := good && !s.ecc.any fun a => Nat.ble (0x500D0000 + n * 0x4000) a && Nat.blt a (0x500D4000 + n * 0x4000)
  bif s.get (ESQ_STAT_STATE n) != 3 || Nat.blt s.now (q.testTb + 50000) then s
  else
    let s1 := (s.clearRegs (Reg.ESQ_LDM n 0) 1024).setb (ESQ_CTL_STEST n) false |>.set (ESQ_STAT_STATE n) 0
      |>.set (ESQ_STAT_STRES n) (bif pass then 1 else 2)
    (endJob q.testJob (bif pass then 0 else 0x0220) 0 s1).modEsq n fun x => { x with testJob := 0 }

/-- Group `g` is present (R3, R4, R130). -/
def groupPresent (s : State) (g : Nat) : Bool := s.hasChan (8 * g)

/-- A channel of group `g` has its OUTEN bit set or holds committed edges. -/
def groupBusy (s : State) (g : Nat) : Bool := someBelow 8 fun i => outen s (8 * g + i) || !(s.unit (8 * g + i)).edges.isEmpty

/-- Whether a write of OWN must be refused (R131). -/
def ownRefused (s : State) (n : Nat) (valid : Bool) (g : Nat) : Bool :=
  let st := s.get (ESQ_STAT_STATE n)
  st == 1 || st == 3 || (valid && !groupPresent s g) ||
    (valid && someBelow 8 fun m => m != n && groupOf s m == some g) ||
    (match groupOf s n with | some old => (!valid || old != g) && groupBusy s old | none => false)

/-- A write of OWN (R131). -/
def ownWrite (n image : Nat) (s : State) : State :=
  let v := bitAt image 8
  let g := bitsAt image 0 3
  bif !s.hasEsq n then s
  else bif ownRefused s n v g then esqRefuse n s
  else (s.setb (ESQ_OWN_VALID n) v).set (ESQ_OWN_GRP n) g

/-! ### The commands -/

/-- NOP (R137). -/
def execEsqNop (n : Fin 8) (s : State) : Host.Outcome State Fault Refusal :=
  done (inAngle s (instr n 1 id))

/-- ADD (R137). -/
def execEsqAdd (n : Fin 8) (dst sa sb : Fin 16) (s : State) : Host.Outcome State Fault Refusal :=
  done (inAngle s (compute n 1 dst fun s => gp s n sa + gp s n sb))

/-- SUB (R137). -/
def execEsqSub (n : Fin 8) (dst sa sb : Fin 16) (s : State) : Host.Outcome State Fault Refusal :=
  done (inAngle s (compute n 1 dst fun s => gp s n sa - gp s n sb))

/-- AND (R137). -/
def execEsqAnd (n : Fin 8) (dst sa sb : Fin 16) (s : State) : Host.Outcome State Fault Refusal :=
  done (inAngle s (compute n 1 dst fun s => gp s n sa &&& gp s n sb))

/-- OR (R137). -/
def execEsqOr (n : Fin 8) (dst sa sb : Fin 16) (s : State) : Host.Outcome State Fault Refusal :=
  done (inAngle s (compute n 1 dst fun s => gp s n sa ||| gp s n sb))

/-- XOR (R137). -/
def execEsqXor (n : Fin 8) (dst sa sb : Fin 16) (s : State) : Host.Outcome State Fault Refusal :=
  done (inAngle s (compute n 1 dst fun s => gp s n sa ^^^ gp s n sb))

/-- SHL (R137). -/
def execEsqShl (n : Fin 8) (dst sa sb : Fin 16) (s : State) : Host.Outcome State Fault Refusal :=
  done (inAngle s (compute n 1 dst fun s => gp s n sa <<< ((gp s n sb).toNat % 32)))

/-- SHR (R137). -/
def execEsqShr (n : Fin 8) (dst sa sb : Fin 16) (s : State) : Host.Outcome State Fault Refusal :=
  done (inAngle s (compute n 1 dst fun s => gp s n sa >>> ((gp s n sb).toNat % 32)))

/-- SRA (R137). -/
def execEsqSra (n : Fin 8) (dst sa sb : Fin 16) (s : State) : Host.Outcome State Fault Refusal :=
  done (inAngle s (compute n 1 dst fun s => (gp s n sa).sshiftRight ((gp s n sb).toNat % 32)))

/-- MUL (R137). -/
def execEsqMul (n : Fin 8) (dst sa sb : Fin 16) (s : State) : Host.Outcome State Fault Refusal :=
  done (inAngle s (compute n 2 dst fun s => gp s n sa * gp s n sb))

/-- ADDI (R137). -/
def execEsqAddi (n : Fin 8) (dst sa : Fin 16) (imm : BitVec 18) (s : State) : Host.Outcome State Fault Refusal :=
  done (inAngle s (compute n 1 dst fun s => gp s n sa + imm.signExtend 32))

/-- ANDI (R137). -/
def execEsqAndi (n : Fin 8) (dst sa : Fin 16) (imm : BitVec 18) (s : State) : Host.Outcome State Fault Refusal :=
  done (inAngle s (compute n 1 dst fun s => gp s n sa &&& imm.zeroExtend 32))

/-- ORI (R137). -/
def execEsqOri (n : Fin 8) (dst sa : Fin 16) (imm : BitVec 18) (s : State) : Host.Outcome State Fault Refusal :=
  done (inAngle s (compute n 1 dst fun s => gp s n sa ||| imm.zeroExtend 32))

/-- XORI (R137). -/
def execEsqXori (n : Fin 8) (dst sa : Fin 16) (imm : BitVec 18) (s : State) : Host.Outcome State Fault Refusal :=
  done (inAngle s (compute n 1 dst fun s => gp s n sa ^^^ imm.zeroExtend 32))

/-- SHLI (R137). -/
def execEsqShli (n : Fin 8) (dst sa : Fin 16) (imm : BitVec 18) (s : State) : Host.Outcome State Fault Refusal :=
  done (inAngle s (compute n 1 dst fun s => gp s n sa <<< (imm.toNat % 32)))

/-- SHRI (R137). -/
def execEsqShri (n : Fin 8) (dst sa : Fin 16) (imm : BitVec 18) (s : State) : Host.Outcome State Fault Refusal :=
  done (inAngle s (compute n 1 dst fun s => gp s n sa >>> (imm.toNat % 32)))

/-- SRAI (R137). -/
def execEsqSrai (n : Fin 8) (dst sa : Fin 16) (imm : BitVec 18) (s : State) : Host.Outcome State Fault Refusal :=
  done (inAngle s (compute n 1 dst fun s => (gp s n sa).sshiftRight (imm.toNat % 32)))

/-- LUI (R137). -/
def execEsqLui (n : Fin 8) (dst : Fin 16) (imm : BitVec 18) (s : State) : Host.Outcome State Fault Refusal :=
  done (inAngle s (compute n 1 dst fun _ => imm.zeroExtend 32 <<< (14 : Nat)))

/-- LD (R137). -/
def execEsqLd (n : Fin 8) (dst sa : Fin 16) (imm : BitVec 18) (s : State) : Host.Outcome State Fault Refusal :=
  done (inAngle s (compute n 1 dst fun s => s.rd (ldmAddr s n sa imm)))

/-- ST (R137). -/
def execEsqSt (n : Fin 8) (dst sa : Fin 16) (imm : BitVec 18) (s : State) : Host.Outcome State Fault Refusal :=
  done (inAngle s (instr n 1 fun s => s.wr (ldmAddr s n sa imm) (gp s n dst)))

/-- LDE (R137). -/
def execEsqLde (n : Fin 8) (dst sa : Fin 16) (imm : BitVec 18) (s : State) : Host.Outcome State Fault Refusal :=
  done (inAngle s (instr n 2 (loadEvent n dst sa imm)))

/-- ABR (R137). -/
def execEsqAbr (n : Fin 8) (dst : Fin 16) (imm : BitVec 18) (s : State) : Host.Outcome State Fault Refusal :=
  done (inAngle s (compute n 1 dst fun s => abusField (abusRead s n imm) (imm.toNat / 4 % 4)))

/-- TBR (R137). -/
def execEsqTbr (n : Fin 8) (dst : Fin 16) (imm : BitVec 18) (s : State) : Host.Outcome State Fault Refusal :=
  done (inAngle s (instr n 1 (timeRead n dst (imm.getLsbD 0))))

/-- FLG (R137). -/
def execEsqFlg (n : Fin 8) (dst : Fin 16) (imm : BitVec 18) (s : State) : Host.Outcome State Fault Refusal :=
  done (inAngle s (instr n 1 (takeFlags n dst imm.toNat)))

/-- ERES (R137). -/
def execEsqEres (n : Fin 8) (dst : Fin 16) (s : State) : Host.Outcome State Fault Refusal :=
  done (inAngle s (compute n 1 dst fun s => passResult (s.esq n)))

/-- BEQ (R137). -/
def execEsqBeq (n : Fin 8) (sa sb : Fin 16) (tgt : BitVec 11) (s : State) : Host.Outcome State Fault Refusal :=
  done (inAngle s (branch n tgt fun s => gp s n sa == gp s n sb))

/-- BNE (R137). -/
def execEsqBne (n : Fin 8) (sa sb : Fin 16) (tgt : BitVec 11) (s : State) : Host.Outcome State Fault Refusal :=
  done (inAngle s (branch n tgt fun s => gp s n sa != gp s n sb))

/-- BLT (R137). -/
def execEsqBlt (n : Fin 8) (sa sb : Fin 16) (tgt : BitVec 11) (s : State) : Host.Outcome State Fault Refusal :=
  done (inAngle s (branch n tgt fun s => (gp s n sa).slt (gp s n sb)))

/-- BGE (R137). -/
def execEsqBge (n : Fin 8) (sa sb : Fin 16) (tgt : BitVec 11) (s : State) : Host.Outcome State Fault Refusal :=
  done (inAngle s (branch n tgt fun s => !(gp s n sa).slt (gp s n sb)))

/-- BLTU (R137). -/
def execEsqBltu (n : Fin 8) (sa sb : Fin 16) (tgt : BitVec 11) (s : State) : Host.Outcome State Fault Refusal :=
  done (inAngle s (branch n tgt fun s => (gp s n sa).ult (gp s n sb)))

/-- BGEU (R137). -/
def execEsqBgeu (n : Fin 8) (sa sb : Fin 16) (tgt : BitVec 11) (s : State) : Host.Outcome State Fault Refusal :=
  done (inAngle s (branch n tgt fun s => !(gp s n sa).ult (gp s n sb)))

/-- JMP (R137). -/
def execEsqJmp (n : Fin 8) (tgt : BitVec 11) (s : State) : Host.Outcome State Fault Refusal :=
  done (inAngle s (instr n 2 (·.set (ESQ_STAT_PC n) tgt.toNat)))

/-- CALL (R137). -/
def execEsqCall (n : Fin 8) (tgt : BitVec 11) (s : State) : Host.Outcome State Fault Refusal :=
  done (inAngle s (instr n 2 (callTo n tgt.toNat)))

/-- JR (R137). -/
def execEsqJr (n : Fin 8) (sa : Fin 16) (s : State) : Host.Outcome State Fault Refusal :=
  done (inAngle s (instr n 2 (jumpReg n sa)))

/-- WPASS (R137). -/
def execEsqWpass (n : Fin 8) (s : State) : Host.Outcome State Fault Refusal :=
  done (inAngle s (instr n 0 (waitPass n)))

/-- EVAL (R137). -/
def execEsqEval (n : Fin 8) (imm : BitVec 18) (s : State) : Host.Outcome State Fault Refusal :=
  done (inAngle s (instr n 0 (evaluate n imm.toNat)))

/-- EDRAIN (R137). -/
def execEsqEdrain (n : Fin 8) (s : State) : Host.Outcome State Fault Refusal :=
  done (inAngle s (instr n 0 (drainPipe n)))

/-- CHSAFE (R137). -/
def execEsqChsafe (n : Fin 8) (imm : BitVec 18) (s : State) : Host.Outcome State Fault Refusal :=
  done (inAngle s (instr n 2 (channelsSafe n imm.toNat)))

/-- SWI (R137). -/
def execEsqSwi (n : Fin 8) (imm : BitVec 18) (s : State) : Host.Outcome State Fault Refusal :=
  done (inAngle s (instr n 1 fun s => whenS (imm.getLsbD 0) (·.setb (ESQ_STAT_SWI n) true) s))

/-- HALT (R137). -/
def execEsqHalt (n : Fin 8) (s : State) : Host.Outcome State Fault Refusal :=
  done (inAngle s (instr n 1 (esqFault n 5)))

/-- WTB (R137). -/
def execEsqWtb (n : Fin 8) (sa : Fin 16) (s : State) : Host.Outcome State Fault Refusal :=
  done (inAngle s (instr n 1 fun s => s.modEsq n fun q => { q with wait := .wtb (gp s n sa) }))

/-- An illegal instruction is fetched (R138). -/
def execIllegalInstruction (n : Fin 8) (word : Word) (s : State) : Host.Outcome State Fault Refusal :=
  done (inAngle s (illegal n word.toNat))

/-- The pass strobe (R133). -/
def execPassStrobe (parity : BitVec 8) (s : State) : Host.Outcome State Fault Refusal := done (inAngle s (passStrobe parity))

/-- A coast expires (R144). -/
def execCoastExpiry (n : Fin 8) (s : State) : Host.Outcome State Fault Refusal := done (inAngle s (coastExpired n))

/-- ESQn.CTL.RUN is set (R146). -/
def execEsqRun (n : Fin 8) (s : State) : Host.Outcome State Fault Refusal := done (inAngle s (esqRun n))

/-- ESQn.CTL.RUN is cleared (R146). -/
def execEsqStop (n : Fin 8) (s : State) : Host.Outcome State Fault Refusal := done (inAngle s (esqStop n))

/-- ESQn.CTL.FCLR is written (R145). -/
def execEsqFclr (n : Fin 8) (s : State) : Host.Outcome State Fault Refusal := done (inAngle s (esqFclr n))

/-- ESQn.CTL.UBREQ is set (R143). -/
def execEsqUbreq (n : Fin 8) (s : State) : Host.Outcome State Fault Refusal := done (inAngle s (esqUbreq n))

/-- ESQn.CTL.STEST is set (R147). -/
def execEsqSelftestStart (n : Fin 8) (s : State) : Host.Outcome State Fault Refusal := done (inAngle s (esqTestStart n))

/-- The self-test of a sequencer ends (R147). -/
def execEsqSelftestDone (n : Fin 8) (pass : Bool) (s : State) : Host.Outcome State Fault Refusal :=
  done (inAngle s (esqTestDone n pass))

/-- ESQn.OWN is written (R131). -/
def execEsqOwnWrite (n : Fin 8) (image : Word) (s : State) : Host.Outcome State Fault Refusal :=
  done (inAngle s (ownWrite n image.toNat))

end Sys2Proof.Machine
end

