-- ==== Sys2Proof/Machine/Queue.lean ====
section
/-! DEFINITION. The queue manager: the thirty-two hardware queues, their credits, pushes, pops and grants (R328 to R334). -/

namespace Sys2Proof.Machine

open Fields

/-- Key of the holding copy of the register at `a` for master `mid` (R15). -/
def holdKey (mid a : Nat) : Nat := mid * 2 ^ 32 + a

/-- A holding copy is captured (R15). -/
def putHold (mid a : Nat) (v : Word) (s : State) : State := { s with hold := putAt (holdKey mid a) (some v) s.hold }

/-- Depth of queue `q` (R328). -/
def queueDepth (s : State) (q : Nat) : Nat := 2 ^ s.get (Q_CFG_DSH q)

/-- Queue `q` is of class L (R328). -/
def queueLarge (s : State) (q : Nat) : Bool := Nat.ble 12 (s.get (Q_CFG_DSH q))

/-- Queue `q` keeps credits (R330, R331). -/
def queueCredit (s : State) (q : Nat) : Bool := !s.flag (Q_CFG_MODE q)

/-- Master `mid` may push to queue `q` (R329). -/
def queueProducer (s : State) (q mid : Nat) : Bool := s.get (Q_CFG_PMID q) == 63 || s.get (Q_CFG_PMID q) == mid

/-- A push by a producer would be taken: a credit is held, or none is kept (R330, R331). -/
def queueRoom (s : State) (q : Nat) : Bool := s.flag (Q_CFG_EN q) && (!queueCredit s q || (s.queue q).cred != 0)

/-- An item enters queue `q` (R330, R331). -/
def queueStore (q : Nat) (x : QItem) (s : State) : State :=
  let v := s.queue q
  bif queueCredit s q then
    bif v.cred == 0 then (s.setb (Q_STAT_NOCR q) true).tally (Q_TALLY_LOSTCNT q)
    else s.putQueue q { v with items := v.items ++ [x], cred := v.cred - 1 }
  else bif Nat.ble (queueDepth s q) v.items.length then
    ((s.setb (Q_STAT_LOSTF q) true).tally (Q_TALLY_LOSTCNT q)).putQueue q { v with items := v.items.drop 1 ++ [x] }
  else s.putQueue q { v with items := v.items ++ [x] }

/-- Master `mid` pushes an item with a tag to queue `q` (R329). A queue that is not enabled takes nothing. -/
def queuePushTag (mid q : Nat) (val : Word) (tag : BitVec 6) (s : State) : State :=
  bif !s.flag (Q_CFG_EN q) then s
  else bif !queueProducer s q mid then s.setb (Q_STAT_WRONG q) true
  else queueStore q { data := val, tag := bif queueLarge s q then tag else 0, ce := false, ue := false, poison := false } s

/-- Master `mid` writes Qq.PUSH (R329). -/
def queuePush (mid q : Nat) (val : Word) (s : State) : State := queuePushTag mid q val (BitVec.ofNat 6 (s.get (Q_PTAG_TAG q))) s

/-- What a pop leaves in POPSTAT (R329). -/
def popStat (s : State) (q : Nat) (x : QItem) (left : Nat) : Word :=
  let large := queueLarge s q
  BitVec.ofNat 32 (2 ^ 31 + (x.ue && !large).toNat * 2 ^ 30 + (x.poison && large).toNat * 2 ^ 29 +
    (bif large then x.tag.toNat else 0) * 2 ^ 16 + left)

/-- The oldest item of queue `q` leaves it: its credit, and the record of a corrected or a bad item (R329, R330). -/
def queueTake (q : Nat) (s : State) : Option QItem × State :=
  let v := s.queue q
  match v.items with
  | [] => (none, s)
  | x :: rest =>
    let auto_ := s.flag (Q_CFG_CRAUTO q)
    let credit := queueCredit s q
    let s1 := s.putQueue q { items := rest, cred := v.cred + (credit && auto_).toNat, rsv := v.rsv + (credit && !auto_).toNat }
    let s2 := whenS (x.ce && !x.ue) (·.tally (Q_TALLY_CECNT q)) s1
    (some x, bif x.ue || x.poison then ((s2.setb (Q_STAT_UEF q) true).tally (Q_TALLY_UECNT q)).pulse 253 else s2)

/-- An error arises in the pool word of item `i` of queue `q` (R329): parity finds any in class L. -/
def itemError (q i : Nat) (uncorrectable : Bool) (s : State) : State :=
  let v := s.queue q
  match v.items[i]? with
  | none => s
  | some x =>
    let y := bif queueLarge s q then { x with poison := true } else bif uncorrectable then { x with ue := true } else { x with ce := true }
    s.putQueue q { v with items := v.items.set i y }

/-- Master `mid` reads Qq.POP: the item or 0, and POPSTAT captured for the master (R329). -/
def queuePop (mid q : Nat) (s : State) : Word × State :=
  bif !s.flag (Q_CFG_EN q) then (0, putHold mid (Reg.Q_POPSTAT q) 0 s)
  else bif s.get (Q_CFG2_CMID q) != mid then (0, s.setb (Q_STAT_WRONG q) true)
  else
    match queueTake q s with
    | (none, t) => (0, putHold mid (Reg.Q_POPSTAT q) 0 t)
    | (some x, t) => (x.data, putHold mid (Reg.Q_POPSTAT q) (popStat s q x (t.queue q).items.length) t)

/-- Master `mid` writes Qq.GRANT (R330). -/
def queueGrant (mid q k : Nat) (s : State) : State :=
  bif s.get (Q_CFG2_CMID q) != mid then s.setb (Q_STAT_WRONG q) true
  else bif !(s.flag (Q_CFG_EN q) && queueCredit s q) then s
  else
    let v := s.queue q
    let m := min k v.rsv
    s.putQueue q { v with cred := v.cred + m, rsv := v.rsv - m }

/-- The pool ranges of queues `q` and `p` overlap. -/
def queuesOverlap (s : State) (q p : Nat) : Bool :=
  let b := s.get (Q_CFG_BASE q)
  let c := s.get (Q_CFG_BASE p)
  Nat.blt b (c + queueDepth s p) && Nat.blt c (b + queueDepth s q)

/-- Whether EN of queue `q` must be refused (R328). -/
def queueRefused (s : State) (q : Nat) : Bool :=
  let d := s.get (Q_CFG_DSH q)
  Nat.blt d 2 || Nat.blt 14 d || s.get (Q_CFG_BASE q) % queueDepth s q != 0 || Nat.blt (queueDepth s q) (s.get (Q_CFG3_INITCR q)) ||
    someBelow 32 fun p => p != q && s.flag (Q_CFG_EN p) && queuesOverlap s q p

/-- EN of queue `q` is set: the queue is emptied and its credits loaded, or the write is refused (R328, R330). -/
def queueEnable (q : Nat) (s : State) : State :=
  bif s.flag (Q_CFG_EN q) then s
  else bif queueRefused s q then (s.setb QM_ERRINFO_PARAM true).set QM_ERRINFO_QNUM q
  else
    let c := s.get (Q_CFG3_INITCR q)
    (s.setb (Q_CFG_EN q) true).putQueue q { items := [], cred := c, rsv := queueDepth s q - c }

/-- EN of queue `q` is cleared. -/
def queueDisable (q : Nat) (s : State) : State := (s.setb (Q_CFG_EN q) false).putQueue q {}

/-- A queue is enabled (R328). -/
def execQueueEnable (q : Fin 32) (s : State) : Host.Outcome State Fault Refusal := done (queueEnable q s)

end Sys2Proof.Machine
end

