-- ==== Sys2Proof/Machine/Locks.lean ====
section
/-! DEFINITION. The lock block (R310 to R314). -/

namespace Sys2Proof.Machine

open Fields

/-- Results of an acquire attempt (R310). -/
def resAcquired : Nat := 0
def resBroken : Nat := 1
def resWaiting : Nat := 2
def resDeadlock : Nat := 3
def resHeld : Nat := 4
def resOwned : Nat := 5

/-- MID `m` leaves the list of waiters of the lock it waits for (R311). -/
def waitRemove (m : Nat) (s : State) : State :=
  match (s.wait m).lock with
  | none => s
  | some l =>
    let k := s.lock l
    (s.putLock l { k with waiters := k.waiters.filter (· != m) }).putWait m { s.wait m with lock := none }

/-- Lock `l` becomes free and passes to its oldest waiter that is not revoked (R311, R312, R314). -/
def lockPass (l : Nat) (s : State) : State :=
  let k := s.lock l
  match k.waiters.filter fun m => !bitAt (s.rdn (bif Nat.blt m 32 then Reg.ACT_REVOKEL else Reg.ACT_REVOKEH)) (m % 32) with
  | [] => s.putLock l { k with owner := none, waiters := [] }
  | m :: rest =>
    ((s.putLock l { k with owner := some m, waiters := rest }).putWait m { s.wait m with lock := none, granted := (s.wait m).granted ++ [l] }).setb
      (LKB_WSTAT_GRANT m) true

/-- The chain from the owner of lock `l` over the locks waited for reaches MID `a` (R313). -/
def chainReaches (s : State) (a : Nat) : Nat → Nat → Bool
  | 0, _ => false
  | fuel + 1, l =>
    match (s.lock l).owner with
    | none => false
    | some o =>
      bif o == a then true
      else match (s.wait o).lock with
        | none => false
        | some l2 => chainReaches s a fuel l2

/-- MID `m` takes the free lock `l`, with the mark cleared (R310). -/
def lockTake (m l : Nat) (s : State) : Nat × State :=
  let k := s.lock l
  (bif k.broken then resBroken else resAcquired, s.putLock l { k with owner := some m, broken := false })

/-- An attempt of MID `m` on lock `l` by a read of ACQ: its result (R310, R311, R313). DEDUCED (log entry 77): of two locks that passed
to `m` before it read either, each is acquired by its own read, and GRANT clears with the last. -/
def lockAcquire (m l : Nat) (s0 : State) : Nat × State :=
  let w := s0.wait m
  bif w.granted.contains l then
    let r := lockTake m l s0
    let rest := w.granted.filter (· != l)
    (r.1, (r.2.putWait m { w with granted := rest }).setb (LKB_WSTAT_GRANT m) (!rest.isEmpty))
  else
    let s := bif w.lock == some l then s0 else waitRemove m s0
    let k := s.lock l
    match k.owner with
    | none => lockTake m l s
    | some o =>
      bif o == m then (resOwned, s)
      else bif w.lock == some l then (resWaiting, s)
      else bif chainReaches s m 64 l then (resDeadlock, s.setb (LKB_WSTAT_DLCK m) true)
      else (resWaiting, (s.putLock l { k with waiters := k.waiters ++ [m] }).putWait m { s.wait m with lock := some l, since := s.time })

/-- An attempt of MID `m` on lock `l` by a read of TRY: its result (R310). -/
def lockTry (m l : Nat) (s : State) : Nat × State :=
  match (s.lock l).owner with
  | none => lockTake m l s
  | some o => bif o == m then (resOwned, s) else (resHeld, s)

/-- The word that a read of ACQ or TRY returns (R310). -/
def lockWord (s : State) (l res : Nat) : Word :=
  BitVec.ofNat 32 ((match (s.lock l).owner with | some o => o | none => 0) * 2 ^ 16 + res)

/-- MID `m` writes REL of lock `l` (R311). -/
def lockRelease (m l : Nat) (s : State) : State :=
  bif (s.lock l).owner == some m then
    let w := s.wait m
    lockPass l (bif w.granted.contains l then s.putWait m { w with granted := w.granted.filter (· != l) } else s)
  else s.setb LKB_ERRINFO_NOTOWN true

/-- Every lock held by MID `m` is released and marked BROKEN, and its wait is removed (R312). -/
def locksBreak (m : Nat) (s : State) : State :=
  let s1 := upTo 64 (fun l u =>
    bif (u.lock l).owner == some m then lockPass l (u.putLock l { u.lock l with broken := true }) else u) (waitRemove m s)
  s1.putWait m {}

/-- The wait of MID `m` has run for TMO µs (R314). -/
def waitTimeout (m : Nat) (s : State) : State :=
  let w := s.wait m
  bif w.lock.isSome && Nat.ble (w.since + 200 * s.get LKB_TMO_TMO) s.time then (waitRemove m s).setb (LKB_WSTAT_TOUT m) true
  else s

/-- The response of a bus read by MID `m`. -/
def respond (m : Nat) (data : Word) (s : State) : State := { s with resp := { mid := m, data := data, err := false } }

/-- A wait times out (R314). -/
def execLockWaitTimeout (mid : Fin 64) (s : State) : Host.Outcome State Fault Refusal := done (waitTimeout mid s)

end Sys2Proof.Machine
end

