-- ==== Sys2Proof/Machine/Irq.lean ====
section
/-! DEFINITION. The pairs of cores, duplex, the context stack of a core, and the interrupt controller (R277 to R293). -/

namespace Sys2Proof.Machine

open Fields

/-! ### Pairs (R277 to R280) -/

/-- Change the hidden part of pair `p`. -/
def State.modPair (s : State) (p : Nat) (f : Pair → Pair) : State := s.putPair p (f (s.pair p))

/-- State of pair `p` (R279): 0 OFF, 1 RESET, 2 BOOT, 3 ACTIVE, 4 STANDBY, 5 SPLIT, 6 FAULT, 7 TEST. -/
def pairState (s : State) (p : Nat) : Nat := s.get (CPR_PAIRSTAT_STATE p)

/-- Pair `p` is present (R3). -/
def hasPair (s : State) (p : Nat) : Bool := s.hasCore (2 * p)

/-- Both cores of pair `p` return to their reset state. -/
def coresReset (p : Nat) (s : State) : State := (s.putCore (2 * p) {}).putCore (2 * p + 1) {}

/-- Requests of pair `p` that no arbiter has granted yet are discarded (R278). -/
def requestsDrop (p : Nat) (s : State) : State :=
  { s with arbs := s.arbs.map fun x => (x.1, { x.2 with raised := x.2.raised.filter fun r => r.mid / 2 != p }) }

/-- The locks of both MIDs of pair `p` are released BROKEN (R278, R312). -/
def pairLocks (p : Nat) (s : State) : State := locksBreak (2 * p + 1) (locksBreak (2 * p) s)

/-- Pair `p` enters RESET (R279). -/
def pairToReset (p : Nat) (s : State) : State :=
  ((coresReset p (pairLocks p s)).set (CPR_PAIRSTAT_STATE p) 1).modPair p fun x => { x with standbyReq := false }

/-- PWR is set (R279). -/
def pairPowerOn (p : Nat) (s : State) : State :=
  let s1 := s.setb (CPR_PAIRCTL_PWR p) true
  bif hasPair s p then (bif pairState s p == 0 then (coresReset p s1).set (CPR_PAIRSTAT_STATE p) 1 else s1) else s

/-- PWR is cleared (R279): from any state to OFF. -/
def pairPowerOff (p : Nat) (s : State) : State :=
  bif hasPair s p then (pairToReset p (s.setb (CPR_PAIRCTL_PWR p) false)).set (CPR_PAIRSTAT_STATE p) 0 else s

/-- RUN is set (R279): from RESET to BOOT, and on to SPLIT with SPLIT = 1. -/
def pairRun (p : Nat) (s : State) : State :=
  let s1 := s.setb (CPR_PAIRCTL_RUN p) true
  bif !hasPair s p then s
  else bif pairState s p != 1 then s1
  else
    let s2 := (coresReset p s1).modPair p fun x =>
      { x with bootSeq := BitVec.ofNat 16 (s.get CPR_DPXSTAT_CKSEQ), standbyReq := false, hbTb := s.time }
    bif s.flag (CPR_PAIRCTL_SPLIT p) then coastReturn ((s2.set (CPR_PAIRSTAT_STATE p) 5).modPair p fun x => { x with barred := false })
    else s2.set (CPR_PAIRSTAT_STATE p) 2

/-- RUN is cleared (R279): any state but OFF to RESET. -/
def pairRunClear (p : Nat) (s : State) : State :=
  let s1 := s.setb (CPR_PAIRCTL_RUN p) false
  bif !hasPair s p then s else bif pairState s p == 0 then s1 else pairToReset p s1

/-- TEST is set in RESET, BOOT or STANDBY (R279); the pair's locks break when it enters RESET at the test's end (R312). -/
def pairTest (p : Nat) (s : State) : State :=
  let st := pairState s p
  bif hasPair s p && (st == 1 || st == 2 || st == 4) then
    (((coresReset p s).setb (CPR_PAIRCTL_TEST p) true).set (CPR_PAIRSTAT_STATE p) 7).modPair p fun x =>
      { x with testTb := s.time, standbyReq := false }
  else s

/-- The self-test ends after 400 µs (R279): STRES, and RESET. -/
def pairTestDone (p : Nat) (pass : Bool) (s : State) : State :=
  bif pairState s p == 7 && Nat.ble ((s.pair p).testTb + 80000) s.time then
    let s1 := (s.set (CPR_PAIRSTAT_STRES p) (bif pass then 1 else 2)).setb (CPR_PAIRCTL_TEST p) false
    let s2 := endJob (s.pair p).testJob (bif pass then 0 else 0x0220) 0 s1
    (pairToReset p s2).modPair p fun x => { x with testJob := 0 }
  else s

/-- The context that a trap of core `t` pushes: return PC, MIE, mode, running level, kind and source (R288). -/
def pushContext (t n : Nat) (c : Core) (mie : Bool) (interrupt : Bool) : Core :=
  { c with stack := { pc := c.pc, mpie := mie, mpp := bif c.machine then 3 else 0, level := c.level,
                      interrupt := interrupt, source := n } :: c.stack,
           machine := true, wfi := bif t == 4 then c.wfi else false }

/-- Delivery of source `n` to target `t` commits (R286): active, running level, mcause, and the fetch at VTBASE + 8 n. -/
def irqCommit (t n : Nat) (c : Core) (s : State) : State :=
  let w := n / 32
  let b := 2 ^ (n % 32)
  let s1 := (s.wrn (Reg.IRQC_PNDSET w) (s.rdn (Reg.IRQC_PNDSET w) &&& (0xFFFFFFFF ^^^ b))).wrn (Reg.IRQC_ACTV w)
    (s.rdn (Reg.IRQC_ACTV w) ||| b)
  { s1.putCore t
      { c with pc := s.rd (Reg.IRQC_VTBASE t) + BitVec.ofNat 32 (8 * n), level := sourcePrio s n,
               csr := putAt 0x342 (BitVec.ofNat 32 (0x80000010 + n)) c.csr } with
    moved := s.moved.filter (· != n) }

/-- PRIO lies above the running level `lvl`; 16 is NONE (R285). -/
def above (lvl prio : Nat) : Bool := lvl == 16 || Nat.blt lvl prio

/-- Source `n` is pending and enabled. -/
def sourceOpen (s : State) (n : Nat) : Bool :=
  bitAt (s.rdn (Reg.IRQC_PNDSET (n / 32)) &&& s.rdn (Reg.IRQC_ENSET (n / 32))) (n % 32)

/-- The takeover (R282): ACT swaps, the standby pair becomes ACTIVE, R29 applies to the failed pair, source 242 is
committed at its issuing core where it is eligible, and else stays pending: a core asleep is woken, and a device in SIMMER or WARM
starts its exit. -/
def takeOver (q : Nat) (s0 : State) : State :=
  let s := { (((s0.set CPR_DPXSTAT_ACT q).tally CPR_DPXSTAT_TKCNT).setb CPR_DPXSTAT_TKACK false).set (CPR_PAIRSTAT_STATE q) 3 with
    takeover := some s0.time }
  let s1 := ((s.modPair q fun x => { x with hbTb := s.time, barred := false }).modPair (1 - q) fun x => { x with barred := true }).pulse 242
  let t := 2 * q
  let c := s1.core t
  bif sourceOpen s1 242 && coreMie s1 t && above c.level 15 && coreRuns s1 t && Nat.blt c.stack.length 24 then
    irqCommit t 242 (pushContext t 242 c true true) s1
  else
    let p := s1.get CPR_PWRSTAT_STATE
    let s2 := s1.putCore t { c with wfi := false }
    bif p == 1 || p == 2 then exitStart s2 else s2

/-- A takeover follows a fault of pair `p` in ACTIVE (R282). -/
def takesOver (s : State) (p : Nat) : Bool :=
  let d := (s.get CPR_DPXSTAT_CKSEQ + 65536 - s.get CPR_CKACK_SEQ) % 65536
  pairState s p == 3 && s.flag CPR_DPXCTL_TKEN && pairState s (1 - p) == 4 && Nat.ble d 1

/-- Pair `p` takes FAULT with cause `cause` (R278 to R280, R282). -/
def pairFault (p cause : Nat) (s : State) : State :=
  let s1 := ((pairLocks p (requestsDrop p s)).set (CPR_PAIRSTAT_STATE p) 6).set (CPR_PAIRSTAT_CAUSE p) cause
  whenS (takesOver s p) (takeOver (1 - p)) s1

/-- A mismatch of pair `p` (R278). -/
def pairMismatch (p cause : Nat) (s : State) : State :=
  let st := pairState s p
  bif Nat.ble 2 st && Nat.ble st 5 then pairFault p cause s else s

/-- A heartbeat write (R280). -/
def pairHeartbeat (p : Nat) (s : State) : State := s.modPair p fun x => { x with hbTb := s.time }

/-- An ACTIVE pair has not written its heartbeat within HBT ms (R280). -/
def heartbeatMissed (p : Nat) (s : State) : State :=
  bif pairState s p == 3 && Nat.ble ((s.pair p).hbTb + 200000 * s.get (CPR_PAIRCTL_HBT p)) s.time then pairFault p 4 s else s

/-- Pair firmware writes ROLE in BOOT (R279). -/
def pairRole (p role : Nat) (s : State) : State :=
  bif pairState s p != 2 then s
  else
    let s1 := s.set (CPR_PAIRCTL_ROLE p) role
    let other := pairState s (1 - p) == 3
    match role with
    | 1 => bif other then s1
        else coastReturn (((s1.set (CPR_PAIRSTAT_STATE p) 3).set CPR_DPXSTAT_ACT p).modPair p fun x =>
          { x with hbTb := s.time, barred := false })
    | 2 => bif other && s.flag CPR_DPXCTL_EN then s1.modPair p fun x => { x with standbyReq := true } else s1
    | _ => s1

/-! ### Duplex (R281 to R283) -/

/-- The signed difference of two sequence numbers, modulo 65,536 (R283). -/
def seqDiff (a b : Nat) : Int := sdiff 65536 b a

/-- A write of CKCOMMIT (R281). -/
def checkpointCommit (q : Nat) (s : State) : State :=
  if seqDiff (s.get CPR_CKACK_SEQ) ((q + 65534) % 65536) < 0 ∨ q ≠ (s.get CPR_DPXSTAT_CKSEQ + 1) % 65536 then
    s.setb CPR_DPXSTAT_CKREF true
  else s.set CPR_DPXSTAT_CKSEQ q

/-- A pair in BOOT that has asked for STANDBY enters it with the CKACK of the first checkpoint committed after its boot (R279, R283). -/
def standbyEnter (q p : Nat) (s : State) : State :=
  let x := s.pair p
  if pairState s p = 2 ∧ x.standbyReq = true ∧ s.flag CPR_DPXCTL_EN = true ∧ pairState s (1 - p) = 3 ∧
      0 < seqDiff q x.bootSeq.toNat ∧ seqDiff q (s.get CPR_DPXSTAT_CKSEQ) ≤ 0 then
    coastReturn ((s.set (CPR_PAIRSTAT_STATE p) 4).modPair p fun y => { y with standbyReq := false })
  else s

/-- A write of CKACK (R281). -/
def checkpointAck (q : Nat) (s : State) : State := standbyEnter q 1 (standbyEnter q 0 (s.set CPR_CKACK_SEQ q))

/-- TKACK by the new active pair within 40,000 tk of the mismatch completes the takeover (R282). -/
def takeoverAck (p : Nat) (s : State) : State :=
  bif s.get CPR_DPXSTAT_ACT != p then s
  else match s.takeover with
    | some t => bif Nat.ble s.time (t + 40000) then { s.setb CPR_DPXSTAT_TKACK true with takeover := none } else s
    | none => s.setb CPR_DPXSTAT_TKACK true

/-- TKACK is missing 40,000 tk after the mismatch (R282). -/
def takeoverMissed (s : State) : State :=
  match s.takeover with
  | some t =>
    bif Nat.blt s.time (t + 40000) then s
    else
      let p := s.get CPR_DPXSTAT_ACT
      let s1 := { s with takeover := none }
      bif pairInService s p then pairFault p 5 s1 else s1
  | none => s

/-! ### Contexts and traps (R288, R289) -/

/-- A CSR of core `n` as stored. -/
def csrOf (c : Core) (k : Nat) : Word := findAt (fun _ => 0) k c.csr

/-- Store a CSR. -/
def Core.putCsr (c : Core) (k : Nat) (v : Word) : Core := { c with csr := putAt k v c.csr }

/-- Change core `n`. -/
def State.modCore (s : State) (n : Nat) (f : Core → Core) : State := s.putCore n (f (s.core n))

/-- mstatus.MIE of a core becomes `b`. -/
def Core.setMie (c : Core) (b : Bool) : Core :=
  c.putCsr 0x300 (BitVec.ofNat 32 (putBits (csrOf c 0x300).toNat 3 1 b.toNat))

/-- A push onto a full context stack: a mismatch of cause STACK in lockstep, a reset of the core in split mode (R288). -/
def stackFull (n : Nat) (s : State) : State :=
  bif s.flag (CPR_PAIRCTL_SPLIT (n / 2)) then s.putCore n {} else pairMismatch (n / 2) 3 s

/-- The exception of code `cause` at the instruction of core `n` (R288): a context is pushed, MIE clears, and the core enters at
mtvec; the running level stays. -/
def trap (n cause : Nat) (tval : Word) (s : State) : State :=
  let c := s.core n
  bif Nat.ble 24 c.stack.length then stackFull n s
  else
    let c1 := (pushContext n 0 c (coreMie s n) false).setMie false
    s.putCore n { ((c1.putCsr 0x342 (BitVec.ofNat 32 cause)).putCsr 0x343 tval) with
      pc := csrOf c 0x305 &&& 0xFFFFFFFC#32 }

/-- Illegal-instruction exception (R270). -/
def trapIllegal (n : Nat) (word : Word) (s : State) : State := trap n 2 word s

/-- Source `n` is eligible for target `t` at running level `lvl` and interrupt enable `mie` (R285, R291): its own target, or the
fallback it has moved to. -/
def eligibleAt (s : State) (t lvl : Nat) (mie : Bool) (n : Nat) : Bool :=
  sourceOpen s n && above lvl (sourcePrio s n) && mie && targetPower s t == 0 &&
    (sourceTarget s n == t || (s.moved.contains n && s.get (IRQC_SRCCFG_FBT n) == t &&
      !(targetPower s (sourceTarget s n) == 0 && coreMie s (sourceTarget s n) &&
        above (s.core (sourceTarget s n)).level (sourcePrio s n))))

/-- The request that wins for target `t`: highest PRIO, then lowest number (R285). -/
def winner (s : State) (t lvl : Nat) (mie : Bool) : Option Nat :=
  ((pendingSources s).filter (eligibleAt s t lvl mie)).foldl (fun best n =>
    match best with
    | none => some n
    | some m => bif Nat.blt (sourcePrio s m) (sourcePrio s n) then some n else best) none

/-- TSTAT of target `t`: its power state, and the source offered to it until its delivery commits (R286, R291). -/
def targetStatus (s : State) (t : Nat) : Nat :=
  16 * targetPower s t + match winner s t (s.core t).level (coreMie s t) with
    | some n => 2 ^ 15 + 2 ^ 16 * n
    | none => 0

/-- Delivery to target `t` commits (R286, R288). -/
def deliver (t : Nat) (s : State) : State :=
  let c := s.core t
  match winner s t c.level (coreMie s t) with
  | none => s
  | some n =>
    bif Nat.ble 24 c.stack.length then (bif t == 4 then s else stackFull t s)
    else irqCommit t n (pushContext t n c (coreMie s t) true) s

/-- Source `n` leaves its handler: it returns to idle (R284). -/
def sourceIdle (n : Nat) (s : State) : State :=
  s.wrn (Reg.IRQC_ACTV (n / 32)) (s.rdn (Reg.IRQC_ACTV (n / 32)) &&& (0xFFFFFFFF ^^^ 2 ^ (n % 32)))

/-- A return to user mode clears mstatus.MPRV (R269: the privileged architecture, version 1.12). -/
def Core.dropMprv (c : Core) (keep : Bool) : Core :=
  bif keep then c else c.putCsr 0x300 (BitVec.ofNat 32 (putBits (csrOf c 0x300).toNat 17 1 0))

/-- A handler of target `t` returns (R288, R289): the top context is restored, or the core enters a handler that is eligible
against the level being restored. An empty stack returns to mepc, MPIE and MPP as stored. -/
def handlerReturn (t : Nat) (s : State) : State :=
  let c := s.core t
  match c.stack with
  | [] =>
    let m := (csrOf c 0x300).toNat
    s.putCore t (({ c with pc := csrOf c 0x341, machine := bitsAt m 11 2 == 3 }).putCsr 0x300
      (BitVec.ofNat 32 (putBits (putBits (putBits (bif bitsAt m 11 2 == 3 then m else putBits m 17 1 0) 3 1 (bitsAt m 7 1)) 7 1 1) 11 2 0)))
  | x :: rest =>
    let back := (({ c with stack := rest, pc := x.pc, machine := x.mpp == 3, level := x.level }).setMie x.mpie).dropMprv (x.mpp == 3)
    bif !x.interrupt then s.putCore t back
    else
      let s1 := pendRaised (sourceIdle x.source s)
      match winner s1 t x.level x.mpie with
      | some n => irqCommit t n ({ c with stack := { x with source := n } :: rest, machine := true }) s1
      | none => s1.putCore t back

/-- minstret counts an instruction that retires, unless mcountinhibit stops it. -/
def Core.retire (c : Core) : Core :=
  bif bitAt (csrOf c 0x320).toNat 2 then c
  else
    let v := (csrOf c 0xB82).toNat * 2 ^ 32 + (csrOf c 0xB02).toNat + 1
    (c.putCsr 0xB02 (BitVec.ofNat 32 v)).putCsr 0xB82 (BitVec.ofNat 32 (v / 2 ^ 32))

/-- MRET (R289): illegal in user mode. -/
def mret (n : Nat) (s : State) : State :=
  bif !coreRuns s n then s
  else bif (s.core n).machine then handlerReturn n (s.modCore n Core.retire) else trapIllegal n 0x30200073 s

/-- WFI (R291): illegal in user mode while mstatus.TW is set. -/
def wfi (n : Nat) (s : State) : State :=
  let c := s.core n
  bif !coreRuns s n then s
  else bif !c.machine && bitAt (csrOf c 0x300).toNat 21 then trapIllegal n 0x10500073 s
  else s.putCore n { c.retire with pc := c.pc + 4, wfi := true }

/-- A request with WAKE wakes core `n` from WFI, and the device from SIMMER or WARM (R291, R401). -/
def coreWake (n : Nat) (s : State) : State :=
  let wakes := (pendingSources s).any fun m =>
    sourceOpen s m && sourceWake s m &&
      (sourceTarget s m == n || (s.moved.contains m && s.get (IRQC_SRCCFG_FBT m) == n))
  let p := s.get CPR_PWRSTAT_STATE
  bif !coreReady s n || !wakes then s
  else
    let s1 := s.modCore n fun c => { c with wfi := false }
    bif p == 1 || p == 2 then exitStart s1 else s1

/-- An exception that a core takes (R288): only of a core that runs. -/
def exceptionTrap (n : Nat) (cause : BitVec 5) (tval : Word) (s : State) : State :=
  bif coreRuns s n then trap n cause.toNat tval s else s

/-! ### Registers of the interrupt controller (R290, R292) -/

/-- A write of ENSET (R292). -/
def irqEnable (w : Nat) (bits : Word) (s : State) : State := s.wr (Reg.IRQC_ENSET w) (s.rd (Reg.IRQC_ENSET w) ||| bits)

/-- A write of ENCLR (R292). -/
def irqDisable (w : Nat) (bits : Word) (s : State) : State := s.wr (Reg.IRQC_ENSET w) (s.rd (Reg.IRQC_ENSET w) &&& ~~~bits)

/-- A write of PNDSET (R284, R292): an active source does not become pending. -/
def irqSetPending (w : Nat) (bits : Word) (s : State) : State :=
  s.wr (Reg.IRQC_PNDSET w) (s.rd (Reg.IRQC_PNDSET w) ||| (bits &&& ~~~s.rd (Reg.IRQC_ACTV w)))

/-- A write of PNDCLR (R292). -/
def irqClearPending (w : Nat) (bits : Word) (s : State) : State :=
  s.wr (Reg.IRQC_PNDSET w) (s.rd (Reg.IRQC_PNDSET w) &&& ~~~bits)

/-- A target code names PERC, or a core that is present and takes interrupts (R290). -/
def targetOk (s : State) (t : Nat) : Bool :=
  t == 4 || (s.hasCore t && (t % 2 == 0 || s.flag (CPR_PAIRCTL_SPLIT (t / 2))))

/-- A write of SRCCFG (R290): a reserved code keeps its field (R13), a target that cannot be refuses the write; a pending
request moves with its target. -/
def sourceConfig (n : Nat) (image : Word) (s : State) : State :=
  let old := s.rdn (Reg.IRQC_SRCCFG n)
  let new := image.toNat &&& 0x1F70F
  let t := bitsAt new 8 3
  let f := bitsAt new 12 3
  let t1 := bif Nat.blt 4 t then bitsAt old 8 3 else t
  let f1 := bif Nat.blt 4 f then bitsAt old 12 3 else f
  let bad := Nat.blt 4 t || Nat.blt 4 f
  bif (Nat.ble t 4 && !targetOk s t) || (Nat.ble f 4 && !targetOk s f) then s.setb IRQC_ERRINFO_PARAM true
  else
    let s1 := whenS bad (·.setb IRQC_ERRINFO_PARAM true) (s.wrn (Reg.IRQC_SRCCFG n) (putBits (putBits new 8 3 t1) 12 3 f1))
    bif t1 == bitsAt old 8 3 then s1 else { s1 with moved := s1.moved.filter (· != n) }

/-- A pair leaves split mode: requests for its second core go to its first (R290). -/
def retarget (p : Nat) (s : State) : State :=
  upTo 256 (fun n u => whenS (u.get (IRQC_SRCCFG_TARGET n) == 2 * p + 1) (·.set (IRQC_SRCCFG_TARGET n) (2 * p)) u) s

/-! ### Commands -/

/-- A delivery commits (R286). -/
def execInterruptDeliveryCommit (target : Fin 5) (s : State) : Host.Outcome State Fault Refusal := done (deliver target s)

/-- MRET (R289). -/
def execMret (core : Fin 4) (s : State) : Host.Outcome State Fault Refusal := done (mret core s)

/-- WFI (R291). -/
def execWfi (core : Fin 4) (s : State) : Host.Outcome State Fault Refusal := done (wfi core s)

/-- A core is woken (R291). -/
def execCoreWake (core : Fin 4) (s : State) : Host.Outcome State Fault Refusal := done (coreWake core s)

/-- An exception (R288). -/
def execExceptionTrap (core : Fin 4) (cause : BitVec 5) (tval : Word) (s : State) : Host.Outcome State Fault Refusal :=
  done (exceptionTrap core cause tval s)

/-- ENSET (R292). -/
def execIrqEnset (w : Fin 8) (bits : Word) (s : State) : Host.Outcome State Fault Refusal := done (irqEnable w bits s)

/-- ENCLR (R292). -/
def execIrqEnclr (w : Fin 8) (bits : Word) (s : State) : Host.Outcome State Fault Refusal := done (irqDisable w bits s)

/-- PNDSET (R292). -/
def execIrqPndset (w : Fin 8) (bits : Word) (s : State) : Host.Outcome State Fault Refusal := done (irqSetPending w bits s)

/-- PNDCLR (R292). -/
def execIrqPndclr (w : Fin 8) (bits : Word) (s : State) : Host.Outcome State Fault Refusal := done (irqClearPending w bits s)

/-- SRCCFG (R290). -/
def execIrqTargetWrite (src : Fin 256) (image : Word) (s : State) : Host.Outcome State Fault Refusal :=
  done (sourceConfig src image s)

/-- A mismatch (R278); one of cause ECC is an uncorrectable error, which raises source 253 (R276). -/
def execLockstepMismatch (p : Fin 2) (cause : MismatchCause) (s : State) : Host.Outcome State Fault Refusal :=
  done (match cause with
    | .mismatch => pairMismatch p 1 s
    | .ecc => whenS (Nat.ble 2 (pairState s p) && Nat.ble (pairState s p) 5) (·.pulse 253) (pairMismatch p 2 s)
    | .stack => pairMismatch p 3 s)

/-- PAIRHB (R280). -/
def execPairHeartbeat (p : Fin 2) (s : State) : Host.Outcome State Fault Refusal := done (pairHeartbeat p s)

/-- A missed heartbeat (R280). -/
def execPairHeartbeatTimeout (p : Fin 2) (s : State) : Host.Outcome State Fault Refusal := done (heartbeatMissed p s)

/-- PAIRCTL.PWR is set (R279). -/
def execPairPowerOn (p : Fin 2) (s : State) : Host.Outcome State Fault Refusal := done (pairPowerOn p s)

/-- PAIRCTL.PWR is cleared (R279). -/
def execPairPowerOff (p : Fin 2) (s : State) : Host.Outcome State Fault Refusal := done (pairPowerOff p s)

/-- PAIRCTL.RUN is set (R279). -/
def execPairRun (p : Fin 2) (s : State) : Host.Outcome State Fault Refusal := done (pairRun p s)

/-- PAIRCTL.RUN is cleared (R279). -/
def execPairRunClear (p : Fin 2) (s : State) : Host.Outcome State Fault Refusal := done (pairRunClear p s)

/-- PAIRCTL.TEST is set (R279). -/
def execPairTest (p : Fin 2) (s : State) : Host.Outcome State Fault Refusal := done (pairTest p s)

/-- The pair's self-test ends (R279). -/
def execPairTestComplete (p : Fin 2) (pass : Bool) (s : State) : Host.Outcome State Fault Refusal := done (pairTestDone p pass s)

/-- PAIRCTL.ROLE (R279). -/
def execPairRoleWrite (p : Fin 2) (role : BitVec 2) (s : State) : Host.Outcome State Fault Refusal := done (pairRole p role.toNat s)

/-- CKCOMMIT (R281). -/
def execCkcommit (seq : BitVec 16) (s : State) : Host.Outcome State Fault Refusal := done (checkpointCommit seq.toNat s)

/-- CKACK (R281). -/
def execCkack (seq : BitVec 16) (s : State) : Host.Outcome State Fault Refusal := done (checkpointAck seq.toNat s)

/-- TKACK (R282). -/
def execTkack (p : Fin 2) (s : State) : Host.Outcome State Fault Refusal := done (takeoverAck p s)

/-- The takeover times out (R282). -/
def execTakeoverTimeout (s : State) : Host.Outcome State Fault Refusal := done (takeoverMissed s)

end Sys2Proof.Machine
end

