-- ==== Sys2Proof/Machine/Memory.lean ====
section
/-! DEFINITION. The shared SRAM controller, the switch of the access tables, revocation, and the arbiters
(R296 to R298, R302, R303, R305 to R309). -/

namespace Sys2Proof.Machine

open Fields

/-! ### Words met by a read (R271, R276, R296) -/

/-- Field `lo` of dzecc of core `n` counts an error (R271, R276): 16 corrected errors, 0 refetches. -/
def eccCount (lo n : Nat) (s : State) : State :=
  s.modCore n fun c =>
    let w := (csrOf c 0x7C3).toNat
    c.putCsr 0x7C3 (BitVec.ofNat 32 (putBits w lo 16 (min 65535 (bitsAt w lo 16 + 1))))

/-- PERC memory (R293, R350). -/
def percMemory (a : Nat) : Bool := within 0x60000000 0x40000 a

/-- The word at `a` is met by a read: a single-bit error is corrected and counted; an uncorrectable one in a TCM stops a lockstep
pair, one in PERC memory resets PERC (R276, R296, R350). -/
def meetWord (a : Nat) (s : State) : State :=
  let w := a / 4 * 4
  match tcmWindow a with
  | some n =>
    let s1 := bif s.soft.contains w then eccCount 16 n { s with soft := s.soft.filter (· != w) } else s
    bif wordBad s a && !s.flag (CPR_PAIRCTL_SPLIT (n / 2)) then pairMismatch (n / 2) 2 s1 else s1
  | none =>
    bif !wordBad s a then softCorrect a s
    else bif percMemory a then { s with perc := { s.perc with memBad := true } }
    else sramUe a s

/-- In lockstep the checker meets its own copy of a TCM word that the issuing core meets: a single-bit error is corrected and counted in
its dzecc, an uncorrectable one raises source 253 and stops the pair (R275, R276). -/
def mirrorMeet (a : Nat) (s : State) : State :=
  match mirrorOf s (a / 4 * 4) with
  | none => s
  | some b =>
    bif wordBad s b then (pairMismatch ((b - 0x0C000000) / 0x80000) 2 s).pulse 253
    else bif s.soft.contains b then eccCount 16 ((b - 0x0C000000) / 0x40000) { s with soft := s.soft.filter (· != b) }
    else s

/-- A word read by an internal master from a byte memory: its value unless the read fails (R275, R276, R295, R296). -/
def ramRead (mid addr : Nat) (s : State) : Option Word × State :=
  let a := busAddr mid addr
  match judge s mid a .word false with
  | .pass =>
    bif checkerTcm s a then (some 0, s)
    else bif wordBad s a then (none, recordError mid a 3 false (meetWord a s))
    else (some (s.word a), meetWord a s)
  | .denied => (none, recordViolation mid a false s)
  | .error c => (none, recordError mid a c false s)
  | .silent => (none, s)

/-! ### SRAM banks (R296 to R298) -/

/-- First byte of SRAM bank `b`. -/
def bankBase (b : Nat) : Nat := 0x10000000 + b * 0x80000

/-- Two byte ranges overlap. -/
def rangesMeet (a n b m : Nat) : Bool := Nat.blt a (b + m) && Nat.blt b (a + n)

/-- Bank `b` is in use (R298). -/
def bankInUse (s : State) (b : Nat) : Bool :=
  let k := s.get ACT_CTL_SEL
  let size := 2 ^ 19
  ((regionsOf s k).any fun e =>
    let w := s.rdn (Reg.ACT_RGN0 k e)
    bitAt w 0 && rangesMeet (bankBase b) size (w / 4096 * 4096) (2 ^ bitsAt w 7 5)) ||
  (s.flag CPR_DPXCTL_EN &&
    (rangesMeet (bankBase b) size (s.get CPR_DPXCKB0_ADDR) (1024 * s.get CPR_DPXCTL_CKSZ) ||
     rangesMeet (bankBase b) size (s.get CPR_DPXCKB1_ADDR) (1024 * s.get CPR_DPXCTL_CKSZ))) ||
  (s.power.entering.isSome && bitAt (s.get CPR_RETMASK_BANK) b)

/-- Bank `b` holds zeros with valid ECC (R298). -/
def bankZero (b : Nat) (s : State) : State :=
  let off (a : Nat) : Bool := !within (bankBase b) 0x80000 a
  { (s.clearBytes (bankBase b) 0x80000) with ecc := s.ecc.filter off, soft := s.soft.filter off }

/-- MEMC refuses a write. -/
def memcRefuse (s : State) : State := s.setb MEMC_ERRINFO_PARAM true

/-- BANKCTL.OFFL of bank `b` is written; a bank under test stays offline (R298; DEDUCED, log entry 77: the test runs only on an offline
bank, so the write is refused). -/
def bankOffline (b : Nat) (offl : Bool) (s : State) : State :=
  bif offl then
    bif s.flag (MEMC_BANKCTL_OFFL b) then s
    else bif bankInUse s b then memcRefuse s
    else (s.setb (MEMC_BANKCTL_OFFL b) true).setb (MEMC_BANKSTAT_ISOFF b) true
  else bif !s.flag (MEMC_BANKCTL_OFFL b) then s
  else bif s.flag (MEMC_BANKCTL_BIST b) then memcRefuse s
  else bankZero b ((s.setb (MEMC_BANKCTL_OFFL b) false).setb (MEMC_BANKSTAT_ISOFF b) false)

/-- BANKCTL.BIST of bank `b` is set (R298). -/
def bistStart (b : Nat) (s : State) : State :=
  bif s.flag (MEMC_BANKCTL_BIST b) then s
  else bif !s.flag (MEMC_BANKSTAT_ISOFF b) then memcRefuse s
  else { (s.setb (MEMC_BANKCTL_BIST b) true) with bistTb := putAt b s.time s.bistTb }

/-- The test of bank `b` ends 40 ms after its start (R298). -/
def bistDone (b : Nat) (pass : Bool) (s : State) : State :=
  let t := findAt (fun _ => 0) b s.bistTb
  bif !s.flag (MEMC_BANKCTL_BIST b) || Nat.blt s.time (t + 8000000) then s
  else
    let s1 := bankZero b ((s.setb (MEMC_BANKCTL_BIST b) false).set (MEMC_BANKSTAT_BISTRES b) (bif pass then 1 else 2))
    let j := findAt (fun _ => 0) b s.bistJob
    { (endJob j (bif pass then 0 else 0x0220) 0 s1) with bistJob := putAt b 0 s.bistJob }

/-! ### Access tables (R302, R303) -/

/-- ACT.CTL.SWREQ is set: the other table bank becomes active (R302). -/
def actSwitch (s : State) : State := (s.setb ACT_CTL_SEL (!s.flag ACT_CTL_SEL)).setb ACT_CTL_SWREQ false

/-- The REVOKE bit of MID `m` is set (R303). -/
def midRevoke (m : Nat) (s : State) : State :=
  let r := bif Nat.blt m 32 then Reg.ACT_REVOKEL else Reg.ACT_REVOKEH
  locksBreak m (s.wrn r (putBits (s.rdn r) (m % 32) 1 1))

/-! ### Arbiters (R305 to R309) -/

/-- The rank of MID `m` (R306). -/
def rankOf (s : State) (m : Nat) : Nat := bitsAt (s.rdn (Reg.ARB_RANK (m / 8))) (4 * (m % 8)) 3

/-- The request that a refill grant goes to is `a` rather than `b`: raised longer, then the lower MID (R307). -/
def olderReq (a b : ArbReq) : Bool := Nat.blt a.order b.order || (a.order == b.order && Nat.blt a.mid b.mid)

/-- The request that an ordinary grant goes to is `a` rather than `b`: the higher rank, then the lower MID (R306). -/
def higherReq (s : State) (a b : ArbReq) : Bool :=
  Nat.blt (rankOf s b.mid) (rankOf s a.mid) || (rankOf s a.mid == rankOf s b.mid && Nat.blt a.mid b.mid)

/-- The first of a list of requests under an order. -/
def pickReq (better : ArbReq → ArbReq → Bool) : List ArbReq → Option ArbReq
  | [] => none
  | x :: xs => some (xs.foldl (fun m y => bif better y m then y else m) x)

/-- First byte and size of the target of arbiter `t`: the SRAM banks, the CAE memory, the OSPI window, the peripheral bridge, the angle
bridge, and the AON range (R305). -/
def arbRange (t : Nat) : Nat × Nat :=
  match t with
  | 12 => (0x14000000, 0x100000)
  | 13 => (0x20000000, 0x10000000)
  | 14 => (0x40000000, 0x100000)
  | 15 => (0x50000000, 0xF0000)
  | 16 => (0x70000000, 0x10000000)
  | b => (bankBase b, 0x80000)

/-- Beats of 8 bytes that a burst from address `a` may have at arbiter `t`: its master splits what goes on behind the target (R305). -/
def beatsWithin (t a : Nat) : Nat := ((arbRange t).1 + (arbRange t).2 - a / 8 * 8) / 8

/-- Master `m` holds a grant of another arbiter than `t`; it raises no request for a second target (R305). -/
def holdsElsewhere (s : State) (t m : Nat) : Bool := s.arbs.any fun x => x.1 != t && match x.2.grant with | some g => g.mid == m | none => false

/-- A DMA channel has a burst in this direction outstanding, among `l` or at an arbiter: it raises no second one (R319). -/
def burstOutstanding (s : State) (l : List ArbReq) (r : BusReq) : Bool :=
  let same (x : ArbReq) : Bool := x.mid == r.mid && x.write == r.write
  within 32 16 r.mid && (l.any same || s.arbs.any fun a => a.2.raised.any same || a.2.grant.any same)

/-- The requests that masters raise at arbiter `t`, raised in cycle `order`: of masters that issue requests (R25), for an address of the
target, and of a master with no grant elsewhere (R305); of a DMA channel one read burst and one write burst (R319). -/
def arbRaises (s : State) (t order : Nat) (new : List BusReq) : List ArbReq :=
  (new.filter fun r => issues s r.mid && within (arbRange t).1 (arbRange t).2 r.addr.toNat && !holdsElsewhere s t r.mid).foldl (fun l r =>
    bif burstOutstanding s l r then l
    else l ++ [{ mid := r.mid, order := order, left := min r.beats (beatsWithin t r.addr.toNat), preemptible := r.preemptible,
                 addr := r.addr.toNat, write := r.write }]) []

/-- A grant decision at arbiter `t` (R306, R307, R309). A burst that resumes is judged again, and ends where the access tables deny it
(R302). -/
def arbDecide (t : Nat) (s : State) : State :=
  let a := s.arb t
  let n := bif Nat.ble (s.get ARB_CFG_REFILL) a.count then 1 else a.count + 1
  let refill := n == s.get ARB_CFG_REFILL
  match pickReq (bif refill then olderReq else higherReq s) a.raised with
  | none => s
  | some r =>
    let go := !r.resumes || actAllows s r.mid r.addr r.write
    let u := s.putArb t { a with count := n, grant := bif go then some r else none, refill := refill, raised := a.raised.erase r }
    bif go then u else recordViolation r.mid r.addr r.write u

/-- A burst is taken back after `beats` beats: it stays raised, from this cycle on, for the beats and the address that are left (R307,
R308). -/
def ArbReq.preempted (g : ArbReq) (beats order : Nat) : ArbReq :=
  { g with left := g.left - beats, order := order, addr := g.addr / 8 * 8 + 8 * beats, resumes := true }

/-- The end of a beat at arbiter `t`, `beats` beats after the grant, with the requests raised since: the burst goes on, is taken
back, or ends; then the next grant (R306 to R308). -/
def arbGrant (t beats : Nat) (new : List BusReq) (s : State) : State :=
  let a0 := s.arb t
  let a := { a0 with order := a0.order + 1, raised := a0.raised ++ arbRaises s t a0.order new }
  match a.grant with
  | none => arbDecide t (s.putArb t a)
  | some g =>
    bif Nat.ble g.left beats then arbDecide t (s.putArb t { a with grant := none })
    else bif g.preemptible && !a.refill && a.raised.any fun r => Nat.blt (rankOf s g.mid) (rankOf s r.mid) then
      arbDecide t (s.putArb t { a with grant := none, raised := a.raised ++ [g.preempted beats a0.order] })
    else s.putArb t a

/-! ### The scrubber (R297) -/

/-- SDIV BUSCLK cycles have passed since the scrubber last read bank `b`. -/
def scrubDue (s : State) (b : Nat) : Bool := Nat.ble (2 * s.get MEMC_SCRUB_SDIV) (3 * (s.time - (findAt (fun _ => (0, 0)) b s.scrub).2))

/-- The scrubber reads one word of bank `b`, every SDIV cycles: a grant of the bank's arbiter with the lowest rank, which waits while
another request stands (R297). -/
def scrubRead (b : Nat) (s0 : State) : State :=
  let r := s0.arb b
  bif !s0.flag (MEMC_BANKCTL_SCRUB b) || s0.flag (MEMC_BANKSTAT_ISOFF b) || !scrubDue s0 b || r.grant.isSome || !r.raised.isEmpty then s0
  else
    let s := s0.putArb b { r with count := bif Nat.ble (s0.get ARB_CFG_REFILL) r.count then 1 else r.count + 1 }
    let i := (findAt (fun _ => (0, 0)) b s.scrub).1
    let a := bankBase b + 4 * i
    let s1 := softCorrect a { s with scrub := putAt b ((i + 1) % 131072, s.time) s.scrub }
    bif wordBad s1 a then (sramUe a s1).pulse 253 else s1

/-! ### The commands -/

/-- The scrubber reads a word (R297). -/
def execScrubRead (b : Fin 12) (s : State) : Host.Outcome State Fault Refusal := done (scrubRead b s)

/-- BANKCTL.OFFL is written (R298). -/
def execBankOffline (b : Fin 12) (offl : Bool) (s : State) : Host.Outcome State Fault Refusal := done (bankOffline b offl s)

/-- BANKCTL.BIST is set (R298). -/
def execBankBistStart (b : Fin 12) (s : State) : Host.Outcome State Fault Refusal := done (bistStart b s)

/-- A bank test ends (R298). -/
def execBankBistDone (b : Fin 12) (pass : Bool) (s : State) : Host.Outcome State Fault Refusal := done (bistDone b pass s)

/-- ACT.CTL.SWREQ is set (R302). -/
def execActBankSwitch (s : State) : Host.Outcome State Fault Refusal := done (actSwitch s)

/-- A REVOKE bit is set (R303). -/
def execMidRevoke (mid : Fin 64) (s : State) : Host.Outcome State Fault Refusal := done (midRevoke mid s)

/-- A decision point of an arbiter (R306). -/
def execArbiterGrant (target : Fin 17) (beats : Nat) (raised : List BusReq) (s : State) : Host.Outcome State Fault Refusal :=
  done (arbGrant target beats raised s)

end Sys2Proof.Machine
end

