-- ==== Sys2Proof/Machine/Padc.lean ====
section
/-! DEFINITION. The pressure converters: sampling marks, windows, converter cores, calibration (R172 to R181). -/

namespace Sys2Proof.Machine

open Fields

/-! ### Marks and windows (R172, R174) -/

/-- M of the pacing tracker (R172). -/
def padcM (s : State) : Nat := bif s.flag (AT_WCFG_CYCLE (s.get PADC_CFG_TRK)) then 7200 else 14400

/-- Angle of mark `j` (R172). -/
def markAngle (j : Nat) : Nat := rndNat (j * 2 ^ 24) 14400

/-- SDIV, at least 1. -/
def padcSdiv (s : State) : Nat := max 1 (s.get PADC_CFG_SDIV)

/-- Samples per window. -/
def padcN (s : State) : Nat := s.get PADC_CFG_N

/-- First mark of the window of cylinder `c` (R174). -/
def windowStartMark (s : State) (c : Nat) : Nat :=
  (((s.get (PADC_CYL_TDC c) : Int) + s.geti PADC_WOFS_WOFS) % (padcM s : Int)).toNat

/-- Cylinder `c` is sampled: enabled, with a present channel (R172, R174). -/
def sampled (s : State) (c : Nat) : Bool := s.flag (PADC_CYL_EN c) && Nat.blt c s.counts.cpi

/-- STRIDE of a cylinder's buffer (R180). -/
def padcStride (s : State) : Nat := ceilDiv (2 * padcN s * s.get PADC_CFG_NHIST) 64 * 64

/-- Address of sample `i` of the window with sequence number `seq` of cylinder `c` (R180). -/
def sampleAddr (s : State) (c seq i : Nat) : Nat :=
  0x14000000 + c * padcStride s + seq % max 1 (s.get PADC_CFG_NHIST) * (2 * padcN s) + 2 * i

/-- A sample as stored. -/
def sampleAt (s : State) (c seq i : Nat) : Int :=
  let a := sampleAddr s c seq i
  signedOf 16 ((s.byte a).toNat + 256 * (s.byte (a + 1)).toNat)

/-- Marks emitted in one cycle: the multiples of SDIV below M. -/
def marksPerCycle (s : State) : Nat := (padcM s - 1) / padcSdiv s + 1

/-- The place, among the marks emitted in a cycle, of the last one that angle `a` has reached. -/
def markPlace (s : State) (a : Nat) : Nat :=
  let j := min (padcM s - 1) (a * 14400 / 2 ^ 24 + 1)
  (bif Nat.ble (markAngle j) a then j else j - 1) / padcSdiv s

/-- Change the converters. -/
def State.modPadc (s : State) (f : Padc → Padc) : State := { s with padc := f s.padc }

/-- The conversions that core `k` has still to make. -/
def Padc.queue (p : Padc) (k : Nat) : List Conv :=
  match k with
  | 0 => p.queue0
  | 1 => p.queue1
  | 2 => p.queue2
  | _ => p.queue3

/-- Replace the conversions of core `k`. -/
def Padc.putQueue (p : Padc) (k : Nat) (q : List Conv) : Padc :=
  match k with
  | 0 => { p with queue0 := q }
  | 1 => { p with queue1 := q }
  | 2 => { p with queue2 := q }
  | _ => { p with queue3 := q }

/-- The open window with key `w`. -/
def Padc.window (p : Padc) (w : Nat) : Option Window := (p.windows.find? fun x => x.1 == w).map (·.2)

/-- The parameters that the analysis of a window of cylinder `c` reads when it begins (R182). -/
def analysisParams (s : State) (c : Nat) : List (Nat × Word) :=
  [Reg.CAE_GAMMA, Reg.CAE_KPOLY, Reg.CAE_QMIN, Reg.CAE_KTH, Reg.CAE_PREF, Reg.CAE_PEG, Reg.CAE_KWIN, Reg.CAE_CYLW0 c].map fun a => (a, s.rd a)

/-- A window closes: the CAE takes it while it runs, and begins its analysis when no other is under way (R174, R183). -/
def windowClose (w : Nat) (v : Window) (s : State) : State :=
  let c := w / 2
  let s1 := s.modPadc fun p => { p with windows := dropAt w p.windows, seqs := putAt c ((v.seq + 1) % 65536) p.seqs }
  bif s.get CAE_STAT2_STATE == 1 then
    { s1 with cae := { s1.cae with closed := s1.cae.closed ++
      [{ cyl := c, seq := v.seq, tbOpen := v.tbOpen, tbClose := v.tbLast, tbStored := s.now, filled := v.filled, clip := v.clip,
         params := bif s.cae.closed.isEmpty then analysisParams s c else [] }] } }
  else s1

/-- A code is stored as sample `i` of the window `w`; the last one closes it (R173, R174, R178). -/
def storeSample (w i : Nat) (code : Int) (fill clip : Bool) (s : State) : State :=
  match s.padc.window w with
  | none => s
  | some v =>
    let a := sampleAddr s (w / 2) v.seq i
    let n := codeOf 16 code
    let s1 := (s.putByte a (BitVec.ofNat 8 n)).putByte (a + 1) (BitVec.ofNat 8 (n / 256))
    let s2 := whenS fill (·.tally PADC_STAT_FILLCNT) s1
    let v1 := { v with filled := v.filled || fill, clip := v.clip || clip }
    let s3 := s2.modPadc fun p => { p with windows := putAt w v1 p.windows, last := putAt (w / 2) (signedOf 16 n) p.last }
    bif i + 1 == padcN s then windowClose w v1 s3 else s3

/-! ### A mark (R172, R173, R175, R177, R178) -/

/-- Cylinder `c` at mark `j`: the window and sample that the mark belongs to, opening one at its start (R174). -/
def markCyl (c j : Nat) (s : State) : Option (Nat × Nat) × State :=
  let p := s.padc
  let start := windowStartMark s c
  bif j == start then
    let opened := (p.windows.filter fun x => x.1 / 2 == c).length
    let seq := (findAt (fun _ => 0) c p.seqs + opened) % 65536
    let w := 2 * c + seq % 2
    let v : Window := { next := 1, seq := seq, filled := false, clip := false, tbOpen := s.now, tbLast := s.now }
    (some (w, 0), s.modPadc fun x => { x with windows := putAt w v x.windows })
  else
    match p.windows.find? fun x =>
        x.1 / 2 == c && Nat.blt x.2.next (padcN s) && (start + padcSdiv s * x.2.next) % padcM s == j with
    | none => (none, s)
    | some (w, v) =>
      (some (w, v.next), s.modPadc fun x => { x with windows := putAt w { v with next := v.next + 1, tbLast := s.now } x.windows })

/-- The samples of cylinder `c` at a run of marks: window, index, and whether the sample is filled (R173). -/
def markRun (c : Nat) : List Nat → State → List (Nat × Nat × Bool) × State
  | [], s => ([], s)
  | j :: js, s =>
    let r := markCyl c j s
    let rest := markRun c js r.2
    match r.1 with
    | none => rest
    | some (w, i) => ((w, i, !js.isEmpty) :: rest.1, rest.2)

/-- The cores in service for a mark: a core that returns in this tk serves from the next (R177, R178). -/
def coresInService (s : State) : List Nat :=
  (List.range 4).filter fun k => bitAt (s.get PADC_LOAD_INSVC) k && s.padc.back != some (k, s.now)

/-- The conversions of the samples that one hold of a channel gives. -/
def convsOf (ord tb : Nat) : List (Nat × Nat × Bool) → List Conv
  | [] => []
  | (w, i, f) :: rest => { win := w, idx := i, fill := f, more := !rest.isEmpty, ord := ord, tb := tb } :: convsOf ord tb rest

/-- The channels of a mark are given to the cores in service (R177). -/
def assignCores (chans : List (List (Nat × Nat × Bool))) (s : State) : State :=
  let cores := coresInService s
  let m := max 1 cores.length
  (chans.zipIdx).foldl (fun u x =>
    let k := cores.getD (x.2 % m) 0
    u.modPadc fun p => p.putQueue k (p.queue k ++ convsOf (x.2 / m) s.now x.1)) s

/-- A queue in which a filled sample follows the last conversion of its cylinder. -/
def appendCopy (w i : Nat) (q : List Conv) : List Conv :=
  match (q.zipIdx).filter (fun x => x.1.win / 2 == w / 2) |>.getLast? with
  | none => q
  | some (x, k) =>
    q.take k ++ [{ x with more := true }, { win := w, idx := i, fill := true, more := x.more, ord := x.ord, tb := x.tb }] ++ q.drop (k + 1)

/-- The previous sample of cylinder `c`'s channel, as stored; before the first one the spec names none: a free value (R178, log entry 81). -/
def previousSample (c : Nat) (s : State) : Int × State :=
  match s.padc.last.find? fun x => x.1 == c with
  | some x => (x.2, s)
  | none => let d := s.drawNat; (signedOf 16 (d.1 % 65536), d.2)

/-- A sample of a dropped mark takes a copy of its channel's previous sample (R178). -/
def copySample (x : Nat × Nat × Bool) (s : State) : State :=
  let w := x.1
  let i := x.2.1
  match (List.range 4).find? fun k => (s.padc.queue k).any fun v => v.win / 2 == w / 2 with
  | some k => s.modPadc fun p => p.putQueue k (appendCopy w i (p.queue k))
  | none => let p := previousSample (w / 2) s; storeSample w i p.1 true false p.2

/-- Some conversion of an earlier mark has not ended (R177, R178). -/
def convsRunning (s : State) : Bool :=
  (List.range 4).any fun k => (s.padc.queue k).any fun v => Nat.blt s.now (v.tb + 52 + 50 * v.ord)

/-- The samples of every sampled cylinder at a run of marks, cylinders in rising order. -/
def markChannels (marks : List Nat) (s : State) : List (List (Nat × Nat × Bool)) × State :=
  ((List.range 24).filter (sampled s)).foldl (fun acc c =>
    let r := markRun c marks acc.2
    (bif r.1.isEmpty then acc.1 else acc.1 ++ [r.1], r.2)) ([], s)

/-- The marks `marks` are emitted in this tk, with one hold; each one that is dropped counts (R172, R173, R178). -/
def emitMarks (marks : List Nat) (s : State) : State :=
  let drop := convsRunning s
  let r := markChannels marks s
  bif drop then r.1.foldl (fun u ch => ch.foldl (fun v x => copySample x v) u)
    (marks.foldl (fun u _ => u.tally PADC_STAT_MDROP) r.2)
  else assignCores r.1 r.2

/-- The place of the last mark that was due before this tk: the last one emitted, else the one that the angle published in the tk before
stood at or beyond, in forward SYNC720; none where the tracker was not there (R172). -/
def lastPlace (s : State) (n : Nat) : Option Nat :=
  let v := s.published.getD n {}
  s.padc.lastMark.orElse fun _ => bif v.sync == 4 && !v.dir then some (markPlace s v.angle) else none

/-- The pacing tracker reaches or passes sampling marks (R172, R173). -/
def samplingMark (s0 : State) : State :=
  let n := s0.get PADC_CFG_TRK
  let s := trackerSync n s0
  bif !(s.hasCae && s.flag PADC_CFG_EN && syncState s n == 4 && !s.flag (AT_SSTAT_DIR n)) then s
  else
    let a := angleOf s n
    let k := markPlace s a
    let per := marksPerCycle s
    let place (i : Nat) : Nat := i % per * padcSdiv s
    let s1 := s.modPadc fun p => { p with lastMark := some k }
    match lastPlace s n with
    | none => s1
    | some p =>
      let d := (k + per - p) % per
      bif d == 0 || Nat.ble per (2 * d) then s else emitMarks ((List.range d).map fun i => place (p + 1 + i)) s1

/-- Core `k` ends a conversion with the code `raw` (R177, R178). -/
def conversionDone (k : Nat) (raw : Int) (s : State) : State :=
  match s.padc.queue k with
  | [] => s
  | x :: _ =>
    bif Nat.blt s.now (x.tb + 56 + 50 * x.ord) then s
    else
      let v := rndAway ((raw - s.geti (PADC_CORE_OFS k)) * s.get (PADC_CORE_GC k)) 32768
      let code := clampInt (-32768) 32767 v
      let rec store : List Conv → State → State
        | [], u => u.modPadc fun p => p.putQueue k []
        | y :: ys, u =>
          let u1 := storeSample y.win y.idx code y.fill (code != v) u
          bif y.more then store ys u1 else u1.modPadc fun p => p.putQueue k ys
      store (s.padc.queue k) s

/-! ### Enabling (R176) -/

/-- How many enabled windows contain mark `j` (R176). -/
def windowsAt (s : State) (j : Nat) : Nat :=
  ((List.range 24).filter fun c => s.flag (PADC_CYL_EN c) &&
    Nat.blt ((j + padcM s - windowStartMark s c % padcM s) % padcM s) (padcSdiv s * padcN s)).length

/-- LOAD: the largest number of enabled windows that contain any one mark (R176). -/
def padcLoad (s : State) : Nat :=
  ((List.range 24).filter fun c => s.flag (PADC_CYL_EN c)).foldl (fun m c => max m (windowsAt s (windowStartMark s c))) 0

/-- Two enabled cylinders have TDC values less than 20 marks apart. -/
def tdcsClose (s : State) : Bool :=
  let m := padcM s
  let en := (List.range 24).filter fun c => s.flag (PADC_CYL_EN c)
  en.any fun c => en.any fun d => Nat.blt c d &&
    (let x := (s.get (PADC_CYL_TDC c) + m - s.get (PADC_CYL_TDC d) % m) % m
     Nat.blt x 20 || Nat.blt (m - x) 20)

/-- Whether EN must be refused (R176). -/
def padcRefused (s : State) : Bool :=
  let en := (List.range 24).filter fun c => s.flag (PADC_CYL_EN c)
  Nat.blt 12 (padcLoad s) || (en.any fun c => ((s.get (PADC_CYL_TDC c) : Int) + s.geti PADC_WOFS_WOFS) % (padcSdiv s : Int) != 0) ||
    Nat.blt (padcM s) (padcN s * padcSdiv s) || Nat.blt (padcN s) 16 || Nat.blt 4096 (padcN s) || tdcsClose s ||
    Nat.blt 0xE0000 (s.counts.cpi * padcStride s) || en.any fun c => !sampled s c

/-- PADC refuses a write. -/
def padcRefuse (s : State) : State := s.setb PADC_ERRINFO_PARAM true

/-- PADC.CFG.EN is set, or refused (R176). -/
def padcEnable (s : State) : State :=
  bif !s.hasCae || s.flag PADC_CFG_EN then s
  else bif padcRefused s then padcRefuse s
  else ((s.setb PADC_CFG_EN true).set PADC_LOAD_LOAD (padcLoad s)).modPadc fun p => { p with lastMark := none }

/-- PADC.CFG.EN is cleared: open windows are discarded (R175). -/
def padcDisable (s : State) : State := bif s.flag PADC_CFG_EN then windowsDiscard (s.setb PADC_CFG_EN false) else s

/-! ### Calibration (R179) -/

/-- The calibration of core `k` starts (R179). -/
def padcCalStart (k : Nat) (s : State) : State :=
  let s1 := s.set PADC_LOAD_INSVC (putBits (s.get PADC_LOAD_INSVC) k 1 0)
  let s2 := (s1.set PADC_CAL_BUSY (2 ^ k)).set PADC_CAL_PEND (putBits (s1.get PADC_CAL_PEND) k 1 0)
  (s2.set PADC_CAL_CALREQ (s2.get PADC_CAL_CALREQ ||| 2 ^ k)).modPadc fun p => { p with calTb := s.time }

/-- The calibration of core `k` ends: `ok` says whether the coefficients are taken (R179). -/
def padcCalEnd (k : Nat) (ok : Bool) (ofs : Int) (gc : Nat) (s : State) : State :=
  let s1 := bif ok then ((s.seti (PADC_CORE_OFS k) ofs).set (PADC_CORE_GC k) gc).set PADC_CAL_DONE (s.get PADC_CAL_DONE ||| 2 ^ k)
    else s.set PADC_CAL_FAIL (s.get PADC_CAL_FAIL ||| 2 ^ k)
  let s2 := (s1.set PADC_CAL_BUSY 0).set PADC_LOAD_INSVC (s1.get PADC_LOAD_INSVC ||| 2 ^ k)
  let s3 := (s2.set PADC_CAL_CALREQ (putBits (s2.get PADC_CAL_CALREQ) k 1 0)).modPadc fun p => { p with back := some (k, s.now) }
  match (List.range 4).find? fun j => bitAt (s3.get PADC_CAL_PEND) j with
  | some j => padcCalStart j s3
  | none => s3

/-- A calibration request for core `k`, with its status (R179). With PLLA lost it stops with FAIL as it starts (R395). -/
def padcCalRequest (k : Nat) (s : State) : Nat × State :=
  let busy := s.get PADC_CAL_BUSY
  let pend := s.get PADC_CAL_PEND
  bif !s.hasCae then (0x0501, s)
  else bif bitAt busy k || pend != 0 then (0x020B, s)
  else bif busy != 0 then (0x0002, (s.set PADC_CAL_PEND (2 ^ k)).set PADC_CAL_CALREQ (s.get PADC_CAL_CALREQ ||| 2 ^ k))
  else bif s.flag PADC_CFG_EN && Nat.blt 9 (s.get PADC_LOAD_LOAD) then (0x0208, s)
  else (0x0001, whenS (!s.clockOk 2) (padcCalEnd k false 0 0) (padcCalStart k s))

/-- The calibration of core `k` is complete: the sums of its 4096 zero and 4096 reference conversions (R179). -/
def padcCalComplete (k : Nat) (zeroSum refSum : Int) (s : State) : State :=
  bif !bitAt (s.get PADC_CAL_BUSY) k || Nat.blt s.time (s.padc.calTb + 600000) then s
  else
    let ofs := rndAway zeroSum 4096
    let span := refSum - zeroSum
    let gc := bif decide (0 < span) then (rndAway (32768 * 29491 * 4096) span.toNat).toNat else 0
    let ok := s.clockOk 2 && Nat.ble ofs.natAbs 512 && Nat.ble 0x7800 gc && Nat.ble gc 0x8800
    padcCalEnd k ok ofs gc s

/-- The automatic rotation requests the next core, ROTP * 10 ms after the last request (R179). -/
def padcRotate (s : State) : State :=
  let r := s.get PADC_CAL_ROTP
  bif !s.hasCae || r == 0 || Nat.blt s.time (s.padc.rotTb + 2000000 * r) then s
  else
    let k := s.padc.rotNext
    let res := padcCalRequest k s
    let t := res.2.modPadc fun p => { p with rotTb := s.time }
    bif res.1 == 0x0208 then t.set PADC_CAL_STARVED (t.get PADC_CAL_STARVED ||| 2 ^ k)
    else t.modPadc fun p => { p with rotNext := (k + 1) % 4 }

/-! ### The commands -/

/-- The angle reaches a sampling mark (R172). -/
def execSamplingMark (s : State) : Host.Outcome State Fault Refusal := done (inAngle s samplingMark)

/-- A conversion ends (R177). -/
def execPadcConversionDone (core : Fin 4) (raw : Int) (s : State) : Host.Outcome State Fault Refusal :=
  done (inAngle s (conversionDone core raw))

/-- PADC.CFG.EN is set (R176). -/
def execPadcEnable (s : State) : Host.Outcome State Fault Refusal := done (padcEnable s)

/-- A CALREQ bit is set (R179). -/
def execPadcCalreq (core : Fin 4) (s : State) : Host.Outcome State Fault Refusal := done (padcCalRequest core s).2

/-- A core calibration ends (R179). -/
def execPadcCalComplete (core : Fin 4) (zeroSum refSum : Int) (s : State) : Host.Outcome State Fault Refusal :=
  done (padcCalComplete core zeroSum refSum s)

/-- The rotation period elapses (R179). -/
def execPadcCalRotation (s : State) : Host.Outcome State Fault Refusal := done (padcRotate s)

end Sys2Proof.Machine
end

