-- ==== Sys2Proof/Machine/Cae.lean ====
section
/-! DEFINITION. The combustion analysis engine: volume table, analysis, cycle record, result item, phasing controller,
feed-forward, kernel bank, faults (R180 to R192). Kernel arithmetic is binary32, each formula taken from left to right. -/

namespace Sys2Proof.Machine

open Fields

/-! ### Geometry and the volume table (R180, R182) -/

/-- STATE of the CAE: 0 STOPPED, 1 RUNNING, 2 FAULT. -/
def caeState (s : State) : Nat := s.get CAE_STAT2_STATE

/-- Crank mark of sample `i` from TDC (R174). -/
def thetaMark (s : State) (i : Nat) : Int := s.geti PADC_WOFS_WOFS + (padcSdiv s : Int) * i

/-- 0.05, 0.01, pi, 2, 4 and 16 in binary32. -/
def f005 : Word := 0x3D4CCCCD
def f001 : Word := 0x3C23D70A
def fPi : Word := 0x40490FDB
def f1 : Word := 0x3F800000
def f2 : Word := 0x40000000
def f4 : Word := 0x40800000
def f6 : Word := 0x40C00000
def f16 : Word := 0x41800000

/-- Crank angle of sample `i` in degrees (R174). -/
def thetaDeg (s : State) (i : Nat) : Word := Fl.mul (Fl.ofInt (thetaMark s i)) f005

/-- The bore area A and the displaced volume V_d (R182). -/
def boreArea (s : State) : Word := Fl.div (Fl.mul (Fl.mul fPi (s.rd Reg.CAE_BORE)) (s.rd Reg.CAE_BORE)) f4
def sweptVolume (s : State) : Word := Fl.mul (boreArea s) (s.rd Reg.CAE_STROKE)

/-- V(i) as the CAE builds it (R182). -/
def volumeOf (s : State) (i : Nat) : Word :=
  let r := Fl.div (s.rd Reg.CAE_STROKE) f2
  let l := s.rd Reg.CAE_ROD
  let vc := Fl.div (sweptVolume s) (Fl.sub (s.rd Reg.CAE_CR) f1)
  let sn := Fl.sinMark (thetaMark s i)
  let root := Fl.sqrt (Fl.sub (Fl.mul l l) (Fl.mul (Fl.mul r r) (Fl.mul sn sn)))
  let x := Fl.sub (Fl.sub (Fl.add r l) (Fl.mul r (Fl.cosMark (thetaMark s i)))) root
  Fl.add vc (Fl.mul (boreArea s) x)

/-- Address of V(i), and of the difference behind it (R180). -/
def volumeAddr (i : Nat) : Nat := 0x140E8000 + 4 * i
def volumeDiffAddr (i : Nat) : Nat := 0x140EC000 + 4 * i

/-- The volume table is built (R182). -/
def volumeBuild (s : State) : State :=
  let n := padcN s
  let s1 := upTo n (fun i u => u.putWord (volumeAddr i) (volumeOf s i)) s
  let s2 := upTo (n - 1) (fun i u => u.putWord (volumeDiffAddr i) (Fl.sub (volumeOf s (i + 1)) (volumeOf s i))) s1
  { s2 with ecc := s2.ecc.filter fun a => !within 0x140E8000 0x8000 a }

/-! ### Phasing controller states (R187) -/

/-- The controller of cylinder `c`. -/
def State.phase (s : State) (c : Nat) : Phase := findAt (fun _ => {}) c s.cae.phases

/-- Replace the controller of cylinder `c`. -/
def State.putPhase (s : State) (c : Nat) (v : Phase) : State := { s with cae := { s.cae with phases := putAt c v s.cae.phases } }

/-- PHST and TC are shown. -/
def showPhase (c st : Nat) (tc : Int) (s : State) : State := (s.set (CAE_CYLW3_PHST c) st).seti (CAE_CYLW3_TC c) tc

/-- A controller follows PHEN and PHCFG.EN: OFF to RUN, any to OFF (R187). -/
def phaseFollow (c : Nat) (s : State) : State :=
  let on := s.flag (CAE_CYLW1_PHEN c) && s.flag CAE_PHCFG_EN
  let off := s.get (CAE_CYLW3_PHST c) == 0
  bif on && off then
    let tc := atrimOf s (s.get (CAE_CYLW2_EVA c))
    showPhase c 1 tc (s.putPhase c { tc := tc, prevTc := tc })
  else bif !on && !off then (s.set (CAE_CYLW3_PHST c) 0).putPhase c {}
  else s

/-! ### Running and stopping (R182, R183, R190, R191) -/

/-- The offset of the first register for which RUN is refused (R182, R183, R259). -/
def caeRunFault (s : State) : Option Nat :=
  let zero (a : Nat) : Bool := Fl.abs (s.rd a) == 0
  let n := padcN s
  let ja := s.get CAE_PEG_JA
  let jb := s.get CAE_PEG_JB
  let ks := s.get CAE_KWIN_KJS
  let ke := s.get CAE_KWIN_KJE
  bif zero Reg.CAE_BORE then some 0x020
  else bif zero Reg.CAE_STROKE then some 0x024
  else bif zero Reg.CAE_ROD then some 0x028
  else bif zero Reg.CAE_CR || Fl.le (s.rd Reg.CAE_CR) f1 then some 0x02C
  else bif !(Nat.ble 2 ja && Nat.blt ja jb && Nat.ble (jb + 3) n) then some 0x040
  else bif !(Nat.ble 2 ks && Nat.ble ks ke && Nat.ble (ke + 3) n) then some 0x048
  else none

/-- The CAE refuses a write. -/
def caeRefuse (s : State) : State := s.setb CAE_ERRINFO_PARAM true

/-- A window that is open when RUN is set, as it is renumbered: its key and number before and after, and its samples. -/
structure Renumber where
  old : Nat
  key : Nat
  win : Window
  bytes : List Byte
  deriving DecidableEq, Repr

/-- The open windows of cylinder `c` in the order in which they opened, renumbered from 0. -/
def renumberOf (s : State) (c : Nat) : List Renumber :=
  let ws := s.padc.windows.filter fun x => x.1 / 2 == c
  let first := match ws with
    | [a, b] => bif (a.2.seq + 1) % 65536 == b.2.seq then [a, b] else [b, a]
    | l => l
  first.zipIdx.map fun x =>
    { old := x.1.1, key := 2 * c + x.2 % 2, win := { x.1.2 with seq := x.2 }, bytes := s.bytes (sampleAddr s c x.1.2.seq 0) (2 * padcN s) }

/-- The windows that are open when RUN is set count from 0 like those that follow, each in the slot of its number (R180, R185; DEDUCED, log
entry 72): their samples so far and the conversions under way move with them. -/
def windowsRenumber (s : State) : State :=
  let rs := (List.range 24).flatMap (renumberOf s)
  let key (w : Nat) : Nat := match rs.find? fun r => r.old == w with | some r => r.key | none => w
  let conv (x : Conv) : Conv := { x with win := key x.win }
  let s1 := s.modPadc fun p =>
    { p with
      seqs := []
      windows := rs.foldl (fun l r => putAt r.key r.win l) []
      queue0 := p.queue0.map conv
      queue1 := p.queue1.map conv
      queue2 := p.queue2.map conv
      queue3 := p.queue3.map conv }
  rs.foldl (fun u r => u.putBytes (sampleAddr u (r.key / 2) r.win.seq 0) r.bytes) s1

/-- CTL.RUN is set, or refused (R182, R183, R191). The kernel takes its workspace anew (DEDUCED, log entry 72). -/
def caeRun (s : State) : State :=
  bif !s.hasCae || s.flag CAE_CTL_RUN then s
  else bif caeState s != 0 || (caeRunFault s).isSome then caeRefuse s
  else
    let s1 := windowsRenumber ((s.setb CAE_CTL_RUN true).set CAE_STAT2_STATE 1)
    let s2 := volumeBuild { s1 with ecc := s1.ecc.filter fun a => !within 0x140F0000 0x10000 a }
    let s3 := { s2 with cae := { s2.cae with closed := [], pofs := [], phases := [] } }
    upTo 24 (fun c u => phaseFollow c (u.set (CAE_CYLW3_PHST c) 0)) s3

/-- The kernel bank switches where one is asked for and no analysis runs (R190). -/
def kernelSwitch (s : State) : State :=
  bif s.flag CAE_CTL_KBREQ && s.cae.closed.isEmpty then
    let s1 := ((s.setb CAE_STAT2_KBANK (!s.flag CAE_STAT2_KBANK)).setb CAE_CTL_KBREQ false).setb CAE_EVT_KBSW true
    let s2 := endJob s.cae.kbankJob 0 0 s1
    { s2 with cae := { s2.cae with kbankJob := 0 } }
  else s

/-- The CAE leaves RUNNING: its analyses end with no record, and its locks are released (R191, R312). -/
def caeHalt (st : Nat) (s : State) : State :=
  let s1 := (s.setb CAE_CTL_RUN false).set CAE_STAT2_STATE st
  kernelSwitch (locksBreak 4 { s1 with cae := { s1.cae with closed := [] } })

/-- CTL.RUN is cleared (R182). -/
def caeStop (s : State) : State := bif caeState s == 1 then caeHalt 0 s else s

/-- The CAE stops in FAULT (R191). -/
def caeFault (flag : Fld) (s : State) : State := caeHalt 2 ((s.setb flag true).setb CAE_EVT_FAULT true)

/-- CTL.FCLR is written (R191). -/
def caeFclr (s : State) : State := bif caeState s == 2 then caeHalt 0 s else s

/-- CTL.KBREQ is set (R190). -/
def kernelRequest (s : State) : State := bif s.hasCae then kernelSwitch (s.setb CAE_CTL_KBREQ true) else s

/-! ### The analysis (R183, R185) -/

/-- What an analysis finds, in binary32. -/
structure Found where
  pofs : Word := 0
  valid : Bool := true
  pegf : Bool := false
  stop : Bool := false
  w : Word := 0
  imep : Word := 0
  pmax : Word := 0
  jp : Nat := 0
  dp : Word := 0
  jd : Nat := 0
  qnet : Word := 0
  misf : Bool := false
  mfb10 : Option Word := none
  mfb50 : Option Word := none
  mfb90 : Option Word := none
  ki : Word := 0
  knock : Bool := false
  deriving DecidableEq, Repr

/-- Item `i` of a vector of samples. -/
def at_ (v : Array Word) (i : Nat) : Word := v.getD i 0

/-- A vector of `n` samples. -/
def vec (n : Nat) (f : Nat → Word) : Array Word := Array.ofFn (n := n) fun i => f i

/-- The binomial filter (R183). -/
def filtered (pm : Array Word) (n i : Nat) : Word :=
  bif Nat.blt i 2 || Nat.ble n (i + 2) then at_ pm i
  else Fl.div (Fl.add (Fl.add (Fl.add (Fl.add (at_ pm (i - 2)) (Fl.mul f4 (at_ pm (i - 1)))) (Fl.mul f6 (at_ pm i)))
    (Fl.mul f4 (at_ pm (i + 1)))) (at_ pm (i + 2))) f16

/-- The least index from `lo` on, below `hi`, of a largest item. -/
def argMax (v : Array Word) (lo hi : Nat) : Nat :=
  (List.range (hi - lo)).foldl (fun b k => bif Fl.lt (at_ v b) (at_ v (lo + k)) then lo + k else b) lo

/-- The least index below `hi` of a smallest item. -/
def argMin (v : Array Word) (hi : Nat) : Nat :=
  (List.range hi).foldl (fun b k => bif Fl.lt (at_ v k) (at_ v b) then k else b) 0

/-- Referencing: POFS, whether it is valid, PEGF, and whether nothing else is computed (R183). -/
def reference (s : State) (c : Nat) (v pf : Array Word) : Word × Bool × Bool × Bool :=
  let ja := s.get CAE_PEG_JA
  let jb := s.get CAE_PEG_JB
  bif s.flag CAE_PEG_MODE then (Fl.sub (at_ pf ja) (s.rd Reg.CAE_PREF), true, false, false)
  else
    let q := Fl.sub (Fl.pow (Fl.div (at_ v ja) (at_ v jb)) (s.rd Reg.CAE_KPOLY)) f1
    bif Fl.le q f001 then
      match s.cae.pofs.find? fun x => x.1 == c with
      | none => (0, false, true, true)
      | some x => (x.2, false, true, false)
    else (Fl.sub (at_ pf ja) (Fl.div (Fl.sub (at_ pf jb) (at_ pf ja)) q), true, false, false)

/-- The apparent heat release Q(0) to Q(n - 1) (R183). -/
def heatRelease (s : State) (v pf : Array Word) (n : Nat) : Array Word :=
  let g := s.rd Reg.CAE_GAMMA
  let a := Fl.div g (Fl.sub g f1)
  let b := Fl.div f1 (Fl.sub g f1)
  let q := (List.range (n - 2)).foldl (fun (acc : Array Word) k =>
    let i := k + 1
    let d1 := Fl.div (Fl.mul (Fl.mul a (at_ pf i)) (Fl.sub (at_ v (i + 1)) (at_ v (i - 1)))) f2
    let d2 := Fl.div (Fl.mul (Fl.mul b (at_ v i)) (Fl.sub (at_ pf (i + 1)) (at_ pf (i - 1)))) f2
    acc.push (Fl.add (Fl.add (at_ acc (i - 1)) d1) d2)) #[0]
  q.push (at_ q (n - 2))

/-- The angle at which a share `x` of QNET has been released (R183). -/
def burnt (s : State) (q : Array Word) (n j0 : Nat) (q0 qnet x : Word) : Option Word :=
  match (List.range n).find? fun i => Nat.blt j0 i && Fl.le (Fl.mul x qnet) (Fl.sub (at_ q i) q0) with
  | none => none
  | some i =>
    let part := Fl.div (Fl.sub (Fl.add q0 (Fl.mul x qnet)) (at_ q (i - 1))) (Fl.sub (at_ q i) (at_ q (i - 1)))
    some (Fl.add (thetaDeg s (i - 1)) (Fl.mul (Fl.mul part (Fl.ofInt (padcSdiv s))) f005))

/-- The analysis of a window (R183). -/
def analysis (s : State) (w : Closed) : Found :=
  let n := padcN s
  let g := s.rd (Reg.CAE_CYLW0 w.cyl)
  let pm := vec n fun i => Fl.mul g (Fl.ofInt (sampleAt s w.cyl w.seq i))
  let pf0 := vec n fun i => filtered pm n i
  let v := vec n fun i => s.word (volumeAddr i)
  let r := reference s w.cyl v pf0
  bif r.2.2.2 then { valid := false, pegf := true, stop := true }
  else
    let p := vec n fun i => Fl.sub (at_ pm i) r.1
    let pf := vec n fun i => Fl.sub (at_ pf0 i) r.1
    let work := (List.range (n - 1)).foldl (fun acc k =>
      Fl.add acc (Fl.mul (Fl.div (Fl.add (at_ p (k + 1)) (at_ p k)) f2) (Fl.sub (at_ v (k + 1)) (at_ v k)))) 0
    let jp := argMax p 0 n
    let step := Fl.mul (Fl.mul f2 (Fl.ofInt (padcSdiv s))) f005
    let rise := vec n fun i => Fl.div (Fl.sub (at_ pf (i + 1)) (at_ pf (i - 1))) step
    let jd := argMax rise 1 (n - 1)
    let q := heatRelease s v pf n
    let jq := argMax q 0 n
    let j0 := argMin q (jq + 1)
    let q0 := at_ q j0
    let qnet := Fl.sub (at_ q jq) q0
    let misf := Fl.lt qnet (s.rd Reg.CAE_QMIN)
    let mfb (x : Word) : Option Word := bif misf then none else burnt s q n j0 q0 qnet x
    let ks := s.get CAE_KWIN_KJS
    let ke := s.get CAE_KWIN_KJE
    let dev := vec n fun i => Fl.abs (Fl.sub (at_ p i) (at_ pf i))
    let ki := at_ dev (argMax dev ks (ke + 1))
    { pofs := r.1, valid := true, pegf := r.2.2.1, w := work, imep := Fl.div work (sweptVolume s), pmax := at_ p jp, jp := jp,
      dp := at_ rise jd, jd := jd, qnet := qnet, misf := misf, mfb10 := mfb 0x3DCCCCCD, mfb50 := mfb 0x3F000000,
      mfb90 := mfb 0x3F666666, ki := ki, knock := Fl.lt (s.rd Reg.CAE_KTH) ki }

/-- A result as a fixed-point number between `lo` and `hi`: rounded to nearest even, saturated (R185). -/
def fixed (w : Word) (num den : Nat) (lo hi : Int) : Int :=
  match Fl.toFixed w num den with
  | .inr i => clampInt lo hi i
  | .inl none => clampInt lo hi (Config.nanFixed w)
  | .inl (some neg) => bif neg then lo else hi

/-- A signed 32-bit result, and an unsigned one. -/
def fixed32 (w : Word) (num : Nat) : Word := BitVec.ofInt 32 (fixed w num 1 (-(2 ^ 31)) (2 ^ 31 - 1))
def fixedU32 (w : Word) : Word := BitVec.ofInt 32 (fixed w 1 1 0 (2 ^ 32 - 1))

/-- An angle in 0.01 °CA; 0x8000 means not found (R185). -/
def angle16 (w : Option Word) : Nat := match w with
  | none => 0x8000
  | some x => codeOf 16 (fixed x 100 1 (-32768) 32767)

/-- The angle of sample `i` in 0.01 °CA (R185). -/
def index16 (s : State) (i : Nat) : Nat := codeOf 16 (clampInt (-32768) 32767 (5 * thetaMark s i))

/-- RATEW: the window span over the time between its first and last mark, to nearest even (R185). -/
def windowRate (s : State) (w : Closed) : Nat :=
  let num := (padcN s - 1) * padcSdiv s * 2 ^ 48
  let den := 14400 * max 1 (w.tbClose - w.tbOpen)
  let q := num / den
  let r := num % den
  min 0xFFFFFFFF (q + (Nat.blt den (2 * r) || (2 * r == den && q % 2 == 1)).toNat)

/-- The mean speed of the window is above 3000 rpm (R183). -/
def overspeed (s : State) (w : Closed) : Bool :=
  Nat.blt (18 * (w.tbClose - w.tbOpen)) ((padcN s - 1) * padcSdiv s * 10000)

/-- A sample of the window's slot holds an uncorrectable error (R183). -/
def slotEcc (s : State) (w : Closed) : Bool :=
  let a := sampleAddr s w.cyl w.seq 0
  !s.ecc.isEmpty && s.ecc.any fun x => Nat.ble (a / 4 * 4) x && Nat.blt x (a + 2 * padcN s)

/-- The volume table or the kernel workspace holds an uncorrectable error (R191). -/
def kernelEcc (s : State) : Bool := s.ecc.any fun x => within 0x140E8000 0x8000 x || within 0x140F0000 0x10000 x

/-! ### Phasing (R186, R187) -/

/-- The requests of the CAE of opcode family `f` are allowed (R240, R304). -/
def caeAllowed (s : State) (f : Nat) : Bool := bitAt (s.get (ACT_IMASK_FMASK (s.get ACT_CTL_SEL) 4)) f && !bitAt (s.rdn Reg.ACT_REVOKEL) 4

/-- The CAE writes the ATRIM of an event through the FCP: the reply's status (R186). -/
def caeTrim (e : Nat) (v : Int) (s : State) : Nat × State := bif caeAllowed s 2 then trimThroughFcp e v s else (0x0401, s)

/-- A trim write was rejected (R187). -/
def phaseRejected (s : State) : State := (s.setb CAE_EVT_PHREJ true).tally CAE_TALLY_TREJ

/-- The controller of cylinder `c` takes a record that is not usable (R187). -/
def phaseHold (c : Nat) (s : State) : State :=
  let st := s.get (CAE_CYLW3_PHST c)
  bif st == 1 || st == 2 || st == 3 then s.set (CAE_CYLW3_PHST c) 2 else s

/-- The step d of the controller, in au (R186). -/
def phaseStep (s : State) (p : Phase) (e ep : Int) : Int :=
  let kp : Int := s.get CAE_PHGAIN_KP
  let ki : Int := s.get CAE_PHGAIN_KI
  let lim : Int := s.get CAE_PHSTEP_TSTEP
  let _ := p
  clampInt (-lim) lim (rnd (-(kp * (e - ep) + ki * e) * 2330169) 2560000)

/-- The controller of cylinder `c` takes a usable record with this MFB50 (R186, R187). -/
def phaseUse (c : Nat) (mfb50 : Int) (s : State) : State :=
  let p := s.phase c
  let e0 := mfb50 - s.geti (CAE_CYLW1_TGT c)
  let e : Int := bif Nat.ble e0.natAbs (s.get CAE_PHCFG_DBAND) then 0 else e0
  let ep := bif p.first then e else p.ep
  let d0 := phaseStep s p e ep
  let lim : Int := s.get CAE_PHLIM_TLIM
  let past := s.get (CAE_CYLW3_PHST c) == 3 && ((decide (lim ≤ p.tc) && decide (0 < d0)) || (decide (p.tc ≤ -lim) && decide (d0 < 0)))
  let d := bif past then 0 else d0
  let trim := clampInt (-lim) lim (p.tc + d)
  let limited := past || trim != p.tc + d
  let eva := s.get (CAE_CYLW2_EVA c)
  let r := caeTrim eva trim s
  let s1 := r.2.putPhase c { ep := e, first := false, tc := p.tc, prevTc := p.tc, reply := some (BitVec.ofNat 16 r.1),
                             written := bif r.1 == 0 || r.1 == 0x0310 then atrimOf r.2 eva else trim, limited := limited }
  let s2 := s1.set (CAE_CYLW3_PHST c) (bif limited then 3 else 1)
  whenS limited (·.setb CAE_EVT_PHLIM true) s2

/-- A record of cylinder `c` drives its controller (R186, R187). -/
def phaseRecord (c : Nat) (usable : Bool) (mfb50 : Int) (s0 : State) : State :=
  let s := phaseFollow c s0
  bif s.get (CAE_CYLW3_PHST c) == 0 then s else bif usable then phaseUse c mfb50 s else phaseHold c s

/-- The reply to the controller's write of EVA: REJECT, or EVB is written (R186, R187); in FAULT no trim is written (R191). -/
def phaseReply (c : Nat) (s : State) : State :=
  let p := s.phase c
  match p.reply with
  | none => s
  | some st =>
    let s0 := s.putPhase c { p with reply := none }
    bif s.get (CAE_CYLW3_PHST c) == 0 || caeState s == 2 then s0
    else bif st != 0 && st != 0x0310 then (phaseRejected s0).set (CAE_CYLW3_PHST c) 4
    else
      let take (v : Int) (u : State) : State := (u.putPhase c { p with reply := none, tc := v }).seti (CAE_CYLW3_TC c) v
      bif !s.flag (CAE_CYLW2_EVBV c) then take p.written s0
      else
        let r := caeTrim (s.get (CAE_CYLW2_EVB c)) p.written s0
        bif r.1 == 0 || r.1 == 0x0310 then take p.written r.2
        else take p.prevTc (caeTrim (s.get (CAE_CYLW2_EVA c)) p.prevTc (phaseRejected r.2)).2

/-! ### Record, item, feed-forward (R184, R185, R189) -/

/-- The words of a record that no kernel has computed: free values. -/
def freeWords : Nat → State → List Word × State
  | 0, s => ([], s)
  | n + 1, s =>
    let r := s.drawWord
    let t := freeWords n r.2
    (r.1 :: t.1, t.2)

/-- Words 4 to 12 of a record (R185). -/
def resultWords (s : State) (f : Found) : List Word :=
  [fixed32 f.imep 1, fixedU32 f.pmax, BitVec.ofNat 32 (index16 s f.jp * 2 ^ 16 + angle16 f.mfb50),
   BitVec.ofNat 32 (angle16 f.mfb10 * 2 ^ 16 + angle16 f.mfb90), fixed32 f.qnet 10, fixed32 f.w 10,
   BitVec.ofNat 32 (codeOf 16 (fixed f.dp 1 1000 0 65535) * 2 ^ 16 + index16 s f.jd), fixedU32 f.ki, fixed32 f.pofs 1]

/-- The MFB angles of an analysis are all found (R183, R185). -/
def Found.angled (f : Found) : Bool := !f.misf && f.mfb10.isSome && f.mfb50.isSome && f.mfb90.isSome

/-- Word 0 of a record (R185). -/
def recordHead (w : Closed) (f : Found) (ovspd ecc : Bool) : Word :=
  let real := !(ovspd || ecc || f.stop)
  let misf := real && f.misf
  BitVec.ofNat 32 (real.toNat * 2 ^ 31 + misf.toNat * 2 ^ 30 + (real && f.knock).toNat * 2 ^ 29 +
    (real && !f.angled).toNat * 2 ^ 28 +
    w.clip.toNat * 2 ^ 27 + w.filled.toNat * 2 ^ 26 + (!(ovspd || ecc) && f.pegf).toNat * 2 ^ 25 + ovspd.toNat * 2 ^ 24 +
    ecc.toNat * 2 ^ 23 + w.cyl * 2 ^ 16 + w.seq % 2 ^ 16)

/-- The result item (R184). -/
def resultItem (h : Word) (w : Closed) (r : Nat) : Word :=
  BitVec.ofNat 32 (bitsAt h.toNat 29 3 * 2 ^ 29 + w.cyl * 2 ^ 24 + w.seq % 256 * 2 ^ 16 + r)

/-- The item is pushed, with the tag of the queue (R329), or counted as lost (R184). -/
def pushItem (item : Word) (s : State) : State :=
  let q := s.get CAE_RQCFG_Q
  bif !s.flag CAE_RQCFG_EN then s
  else bif queueRoom s q then queuePush 4 q item s
  else (s.tally CAE_TALLY_RQLOST).setb CAE_EVT_RQLOST true

/-- The record is written to its ring entry, and its item is pushed (R184, R185). -/
def writeRecord (w : Closed) (ws : List Word) (s : State) : State :=
  let r := s.get CAE_STAT_RWIDX
  let all := ws ++ [crcWords ws]
  let base := 0x140E0000 + 64 * r
  let s1 := (all.zipIdx).foldl (fun u x => u.putWord (base + 4 * x.2) x.1) s
  let s2 := { s1 with ecc := s1.ecc.filter fun a => !within base 64 a }
  let h := ws.getD 0 0
  let s3 := (s2.set CAE_STAT_RWIDX ((r + 1) % 512)).setb CAE_EVT_REC true
  let s4 := whenS (bitAt h.toNat 30) (fun u => (u.setb CAE_EVT_MISF true).tally CAE_TALLY_MISCNT) s3
  pushItem (resultItem h w r) (whenS (bitAt h.toNat 29) (·.setb CAE_EVT_KNOCK true) s4)

/-- Work is written to the tracker, unless PERC has written the same value in this cycle (R189). -/
def feedForward (w : Closed) (wind : Int) (s : State) : State :=
  let n := s.get CAE_FF_TRK
  bif s.flag CAE_FF_EN && caeAllowed s 4 && !(s.trk n).percWork.contains (w.cyl, s.now) then
    workWrite n w.cyl (BitVec.ofInt 32 (max wind 0)) s
  else s

/-- The last valid POFS of a cylinder is kept (R183). -/
def keepPofs (w : Closed) (f : Found) (s : State) : State :=
  bif f.pegf || f.stop then s else { s with cae := { s.cae with pofs := putAt w.cyl f.pofs s.cae.pofs } }

/-- The registers as the analysis of a window read them when it began (R182). -/
def paramView (s : State) (w : Closed) : State := w.params.foldl (fun u p => u.wr p.1 p.2) s

/-- The oldest window that still waits has its analysis begun, with the parameters as they stand (R182, R183). -/
def analysesBegin (s : State) : List Closed → List Closed
  | [] => []
  | w :: ws => { w with params := analysisParams s w.cyl } :: ws

/-- The analysis of the oldest closed window ends (R183 to R189). -/
def analyseWindow (w : Closed) (rest : List Closed) (s0 : State) : State :=
  let ovspd := overspeed s0 w
  let ecc := !ovspd && slotEcc s0 w
  let f := bif ovspd || ecc then {} else analysis (paramView s0 w) w
  let computed := !(ovspd || ecc || f.stop)
  let s1 := whenS ecc (·.pulse 253) { s0 with cae := { s0.cae with closed := analysesBegin s0 rest } }
  let s2 := whenS computed (keepPofs w f) s1
  let res := bif computed then (resultWords s2 f, s2) else freeWords 9 s2
  let h := recordHead w f ovspd ecc
  let mfb50 := signedOf 16 (angle16 f.mfb50)
  let s3 := phaseRecord w.cyl (computed && f.angled) mfb50 res.2
  let eva := s3.get (CAE_CYLW2_EVA w.cyl)
  let w13 := BitVec.ofNat 32 (s3.get (CAE_CYLW3_PHST w.cyl) * 2 ^ 28 + codeOf 24 (atrimOf s3 eva))
  let ws := [h, BitVec.ofNat 32 w.tbOpen, BitVec.ofNat 32 w.tbClose, BitVec.ofNat 32 (windowRate s3 w)] ++ res.1 ++ [w13, 0]
  let s4 := writeRecord w ws s3
  let s5 := whenS computed (feedForward w (fixed f.w 10 1 (-(2 ^ 31)) (2 ^ 31 - 1))) s4
  kernelSwitch s5

/-- The CAE ends the analysis of cylinder `c`, the oldest closed window (R183, R191). -/
def analysisDone (c : Nat) (s : State) : State :=
  match s.cae.closed with
  | [] => s
  | w :: rest =>
    bif w.cyl != c || caeState s != 1 then s
    else bif kernelEcc s then caeFault CAE_ERRINFO_ECC s
    else analyseWindow w rest s

/-- The analysis of cylinder `c` has not ended 8000 tk after its close (R191). -/
def analysisTimeout (c : Nat) (s : State) : State :=
  bif caeState s == 1 && s.cae.closed.any fun w => w.cyl == c && Nat.ble (w.tbStored + 8000) s.now then caeFault CAE_ERRINFO_TOUT s
  else s

/-! ### The commands -/

/-- An analysis ends (R183). -/
def execCaeAnalysisComplete (c : Fin 24) (s : State) : Host.Outcome State Fault Refusal := done (bif s.sysClock then inAngle s (analysisDone c) else s)

/-- The FCP replies to the controller (R187). -/
def execPhaseTrimReply (c : Fin 24) (s : State) : Host.Outcome State Fault Refusal := done (inAngle s (phaseReply c))

/-- An analysis overruns (R191). -/
def execCaeAnalysisTimeout (c : Fin 24) (s : State) : Host.Outcome State Fault Refusal := done (inAngle s (analysisTimeout c))

/-- CAE.CTL.RUN is set (R182). -/
def execCaeRun (s : State) : Host.Outcome State Fault Refusal := done (inAngle s caeRun)

/-- CAE.CTL.RUN is cleared (R182). -/
def execCaeStop (s : State) : Host.Outcome State Fault Refusal := done (inAngle s caeStop)

/-- CAE.CTL.FCLR is written (R191). -/
def execCaeFclr (s : State) : Host.Outcome State Fault Refusal := done (inAngle s caeFclr)

/-- CAE.CTL.KBREQ is set (R190). -/
def execKernelBankRequest (s : State) : Host.Outcome State Fault Refusal := done (inAngle s kernelRequest)

end Sys2Proof.Machine
end

