-- ==== Sys2Proof/Machine/Dma.lean ====
section
/-! DEFINITION. The DMA channels: control, descriptors and write-back (R319 to R327). The transfer of the data stands in
Xfer.lean, since it reaches registers through the bus. -/

namespace Sys2Proof.Machine

open Fields

/-- STATE codes of a channel (R325). -/
def dmaIdle : Nat := 0
def dmaFetch : Nat := 1
def dmaXfer : Nat := 2
def dmaWb : Nat := 3
def dmaError : Nat := 4

/-- The state of channel `n`. -/
def dmaState (s : State) (n : Nat) : Nat := s.get (DMA_STAT_STATE n)

/-- MID of channel `n` (R319). -/
def dmaMid (n : Nat) : Nat := 32 + n

/-- Address of the descriptor at CUR (R320). -/
def dmaDescAddr (s : State) (n : Nat) : Nat := 32 * s.get (DMA_RBASE_ADDR n) + 32 * s.get (DMA_RCFG_CUR n)

/-- In IDLE, with EN = 1 and KICK set, a fetch starts (R325). -/
def dmaGo (n : Nat) (s : State) : State :=
  bif dmaState s n == dmaIdle && s.flag (DMA_CTL_EN n) && s.flag (DMA_CTL_KICK n) then
    (s.setb (DMA_CTL_KICK n) false).set (DMA_STAT_STATE n) dmaFetch
  else s

/-- KICK of channel `n` is written (R325). -/
def dmaKick (n : Nat) (s : State) : State := dmaGo n (s.setb (DMA_CTL_KICK n) true)

/-- EN of channel `n` is written (R325). -/
def dmaEnable (n : Nat) (on : Bool) (s : State) : State := dmaGo n (s.setb (DMA_CTL_EN n) on)

/-- CLRERR of channel `n` is written (R325). -/
def dmaClrerr (n : Nat) (s : State) : State :=
  bif dmaState s n == dmaError then dmaGo n (s.set (DMA_STAT_STATE n) dmaIdle) else s

/-- RST of channel `n` is written (R312, R327). -/
def dmaRst (n : Nat) (s : State) : State :=
  let s1 := (s.set (DMA_STAT_STATE n) dmaIdle).set (DMA_RCFG_CUR n) 0 |>.setb (DMA_CTL_KICK n) false
  let s2 := (s1.setb (DMA_STAT_DONEF n) false).setb (DMA_STAT_WBERR n) false
  locksBreak (dmaMid n) (s2.putDma n {})

/-- Word `i` of the fetched descriptor. -/
def Dma.word (d : Dma) (i : Nat) : Nat := (d.desc.getD i 0).toNat

/-- Bytes of the transfer. -/
def Dma.len (d : Dma) : Nat := bitsAt (d.word 0) 0 24

/-- The source is a queue, and the destination is one (R320). -/
def Dma.fromQueue (d : Dma) : Bool := bitAt (d.word 0) 29
def Dma.toQueue (d : Dma) : Bool := bitAt (d.word 0) 28

/-- The descriptor has not the source item or the destination credit that its next beat needs (R324). -/
def beatWaits (s : State) (d : Dma) : Bool :=
  (d.fromQueue && (s.queue (d.word 1 % 32)).items.isEmpty) || (d.toQueue && !queueRoom s (d.word 2 % 32))

/-- Channel `n` waits for a queue: STAT.QWAIT (R324). -/
def dmaWaits (s : State) (n : Nat) : Bool :=
  dmaState s n == dmaXfer && Nat.blt (s.dma n).done (s.dma n).len && beatWaits s (s.dma n)

/-- A descriptor is invalid (R321). -/
def dmaInvalid (s : State) (n : Nat) (d : Dma) : Bool :=
  let len := d.len
  let src := d.word 1
  let dst := d.word 2
  bitsAt (d.word 0) 24 2 != 0 || bitsAt (d.word 4) 9 19 != 0 || bitsAt (d.word 4) 0 8 != 0 || d.word 7 != 0 || len == 0 || len % 4 != 0 ||
    (bif d.fromQueue then !s.flag (Q_CFG_EN (src % 32)) || s.get (Q_CFG2_CMID (src % 32)) != dmaMid n else src % 4 != 0) ||
    (bif d.toQueue then !s.flag (Q_CFG_EN (dst % 32)) || !queueProducer s (dst % 32) (dmaMid n) else dst % 4 != 0)

/-- The channel goes to WB with a status (R322, R323). -/
def dmaFinish (n st done_ err : Nat) (s : State) : State :=
  (s.set (DMA_STAT_STATE n) dmaWb).putDma n
    { s.dma n with status := st, done := done_, errAddr := err }

/-- The words of a descriptor as read; none when a read fails. -/
def readWords (mid a : Nat) : Nat → State → Option (List Word) × State
  | 0, s => (some [], s)
  | k + 1, s =>
    match ramRead mid a s with
    | (none, t) => (none, t)
    | (some w, t) =>
      match readWords mid (a + 4) k t with
      | (none, u) => (none, u)
      | (some ws, u) => (some (w :: ws), u)

/-- Channel `n` reads the descriptor at CUR (R321, R325). A read that fails halts the channel. -/
def dmaFetchDesc (n : Nat) (s : State) : State :=
  bif dmaState s n != dmaFetch then s
  else
    match readWords (dmaMid n) (dmaDescAddr s n) 8 s with
    | (none, t) => t.set (DMA_STAT_STATE n) dmaError
    | (some ws, t) =>
      let d : Dma := { desc := ws }
      bif !bitAt (d.word 0) 31 then dmaGo n (t.set (DMA_STAT_STATE n) dmaIdle)
      else
        let t1 := t.putDma n d
        bif dmaInvalid t n d then dmaFinish n 3 0 0 t1 else t1.set (DMA_STAT_STATE n) dmaXfer

/-- Write words in order until one is refused; whether all were written. -/
def writeWords (mid : Nat) : List (Nat × Word) → State → Bool × State
  | [], s => (true, s)
  | (a, v) :: rest, s =>
    match ramWrite mid a v s with
    | (false, t) => (false, t)
    | (true, t) => writeWords mid rest t

/-- The write-back of channel `n` completes; `errResp` says that it received an error response (R322, R323, R325). -/
def dmaWriteback (n : Nat) (errResp : Bool) (s : State) : State :=
  bif dmaState s n != dmaWb then s
  else
    let d := s.dma n
    let a := dmaDescAddr s n
    let w4 := BitVec.ofNat 32 (2 ^ 31 + d.status * 2 ^ 28 + d.poison.toNat * 2 ^ 8)
    let words := [(a + 16, w4), (a + 20, BitVec.ofNat 32 d.done), (a + 24, BitVec.ofNat 32 d.errAddr),
      (a, BitVec.ofNat 32 (putBits (d.word 0) 31 1 0))]
    let r := bif errResp then (false, s) else writeWords (dmaMid n) words s
    bif !r.1 then (r.2.setb (DMA_STAT_WBERR n) true).set (DMA_STAT_STATE n) dmaError
    else
      let s1 := r.2.set (DMA_RCFG_CUR n) ((s.get (DMA_RCFG_CUR n) + 1) % 2 ^ s.get (DMA_RCFG_RSZ n))
      bif d.status != 0 then s1.set (DMA_STAT_STATE n) dmaError
      else
        let s2 := (whenS (bitAt (d.word 0) 30) (·.setb (DMA_STAT_DONEF n) true) s1).tally (DMA_STAT_DCNT n)
        bif s.flag (DMA_CTL_EN n) then (s2.setb (DMA_CTL_KICK n) false).set (DMA_STAT_STATE n) dmaFetch
        else s2.set (DMA_STAT_STATE n) dmaIdle

/-- KICK is written (R325). -/
def execDmaKick (n : Fin 16) (s : State) : Host.Outcome State Fault Refusal := done (dmaKick n s)

/-- RST is written (R327). -/
def execDmaRst (n : Fin 16) (s : State) : Host.Outcome State Fault Refusal := done (dmaRst n s)

/-- CLRERR is written (R325). -/
def execDmaClrerr (n : Fin 16) (s : State) : Host.Outcome State Fault Refusal := done (dmaClrerr n s)

/-- The descriptor at CUR is read (R325). -/
def execDmaDescriptorFetch (n : Fin 16) (s : State) : Host.Outcome State Fault Refusal := done (dmaFetchDesc n s)

/-- The write-back completes (R322). -/
def execDmaWritebackComplete (n : Fin 16) (errResp : Bool) (s : State) : Host.Outcome State Fault Refusal :=
  done (dmaWriteback n errResp s)

end Sys2Proof.Machine
end

