-- ==== Sys2Proof/Machine/Faults.lean ====
section
/-! DEFINITION. What the status of each block shows of its faults, by log source and class (R338). -/

namespace Sys2Proof.Machine

open Fields

/-- One of the fields is not zero. -/
def someSet (s : State) (fs : List Fld) : Bool := fs.any fun f => s.get f != 0

/-- The record that a block's status calls for: one of the class that R338 states, or one of a class that it leaves open. -/
inductive FaultKind where
  | crit | err | warn | info | other
  deriving DecidableEq, Repr

/-- Tracker `n`: LOST, and its other flags. -/
def trackerShows (s : State) (n : Nat) : FaultKind → Bool
  | .err => s.get (AT_SSTAT_STATE n) == 5 || s.get (AT_SFLT_LOSTCNT n) != 0
  | .warn => s.rdn (Reg.AT_SFLT n) / 4 % 64 != 0 || s.rdn (Reg.AT_CFLT n) % 256 != 0 || s.rdn (Reg.AT_ERRINFO n) % 16 != 0
  | _ => false

/-- Sequencer `n` and the channels of its group. -/
def esqShows (s : State) (n : Nat) : FaultKind → Bool
  | .crit => s.get (ESQ_STAT_STATE n) == 2
  | .warn =>
    s.rdn Reg.SCH_ERRINFO != 0 || (s.flag (ESQ_OWN_VALID n) && someBelow 8 fun i =>
      let c := 8 * s.get (ESQ_OWN_GRP n) + i
      s.flag (SCH_CHSTAT_MAXCUT c) || s.flag (SCH_CHSTAT_CANCEL c))
  | .other => s.flag (ESQ_ERRINFO_PARAM n)
  | _ => false

/-- Shaping engine `n` and its loops: a fault that has stopped a loop, and one that has ended a pulse. -/
def cseShows (s : State) (n : Nat) : FaultKind → Bool
  | .crit => someBelow 6 fun i => s.get (CRL_STAT_STATE (6 * n + i)) == 8
  | .err => someBelow 6 fun i => s.get (CRL_STAT_STATE (6 * n + i)) != 8 && s.rdn (Reg.CRL_FLT (6 * n + i)) % 64 != 0
  | .other => s.rdn (Reg.CSE_ERRINFO n) != 0
  | _ => false

/-- The ports and the request interface. -/
def portsShow (s : State) : Bool :=
  (someBelow 2 fun p => s.rdn (Reg.HSPI_PTALLY p) != 0 || s.rdn (Reg.ETH_PTALLY p) != 0 || s.rdn (Reg.UART_PTALLY p) != 0) ||
    someBelow 4 fun p => s.rdn (Reg.CAN_PTALLY p) != 0

/-- A memory of a block, or of a core, has reported an uncorrectable error or counted a corrected one. -/
def memoryShows (s : State) : FaultKind → Bool
  | .err =>
    (someBelow 12 fun b => s.flag (MEMC_BANKSTAT_UE b)) || (someBelow 4 fun n => s.flag (AT_ERRINFO_ECC n) || s.flag (AT_ERRINFO_ECCP n)) ||
      someSet s [SCH_ERRINFO_ECC, CAE_ERRINFO_ECC, CSE_ERRINFO_ECC 0, CSE_ERRINFO_ECC 1]
  | .info => (someBelow 12 fun b => s.get (MEMC_BANKSTAT_CECNT b) != 0) || someBelow 4 fun n => csrOf (s.core n) 0x7C3 != 0
  | _ => false

/-- The status of the block with log source `src` shows a fault of this kind (R338). -/
def faultShown (s : State) (src : Nat) (k : FaultKind) : Bool :=
  match src with
  | 1 => bif k == .crit then s.get KTL_STAT_LCAUSE != 0 else k == .other && s.flag KTL_STAT_WARN
  | 3 => k == .err && (s.flag ACT_VREC0_VALID || s.flag ACT_BERR0_VALID)
  | 4 => memoryShows s k
  | 5 => k == .err && s.rdn Reg.LKB_ERRINFO != 0
  | 6 => k == .err && (s.rdn Reg.QM_ERRINFO != 0 || someBelow 32 fun q => someSet s [Q_STAT_NOCR q, Q_STAT_LOSTF q, Q_STAT_UEF q, Q_STAT_WRONG q])
  | 7 => k == .err && someBelow 16 fun n => s.get (DMA_STAT_STATE n) == 4 || someSet s [DMA_STAT_WBERR n, DMA_STAT_PARAM n]
  | 8 | 9 | 10 | 11 => trackerShows s (src - 8) k
  | 12 | 13 | 14 | 15 | 16 | 17 | 18 | 19 => esqShows s (src - 12) k
  | 20 | 21 => cseShows s (src - 20) k
  | 22 => bif k == .crit then s.get CAE_STAT2_STATE == 2 else k == .other && s.rdn Reg.CAE_ERRINFO != 0
  | 23 => k == .other && (s.rdn Reg.PADC_STAT != 0 || s.rdn Reg.PADC_ERRINFO != 0 || someSet s [PADC_CAL_FAIL, PADC_CAL_STARVED])
  | 24 => k == .warn && (s.get HADC_STAT_CALST == 3 || s.flag HADC_STAT_CALSTRV || someSet s [HADC_ERRINFO_PARAM, CMP_ERRINFO_PARAM] ||
      someBelow 4 fun q => s.flag (HADC_SEQSTAT_TOVR q))
  | 25 => bif k == .crit then s.get (CPR_PAIRSTAT_STATE 0) == 6 || s.get (CPR_PAIRSTAT_STATE 1) == 6 || s.get CPR_DPXSTAT_TKCNT != 0
      else k == .other && s.flag CPR_DPXSTAT_CKREF
  | 26 => k == .warn && portsShow s
  | 27 => bif k == .crit then s.flag RING_STAT_TKOVR
      else k == .other && someSet s [RING_STAT_LINKF, RING_STAT_MMF, RING_STAT_ORELF, RING_STAT_LOSTF, RING_ERRINFO_PARAM]
  | _ => false

/-- The kinds in the order of the classes, the open one last. -/
def kindAt (k : Nat) : FaultKind :=
  match k with
  | 0 => .crit
  | 1 => .err
  | 2 => .warn
  | 3 => .info
  | _ => .other

/-- The kind of a record's class. -/
def kindOf (cls : BitVec 2) : FaultKind := kindAt cls.toNat

/-- A monitor of CPR shows the condition of this class and code: a rail outside its window, or a clock lost (R335). -/
def monitorShows (s : State) (cls : BitVec 2) (code : Nat) : Bool :=
  (cls == 1 && Nat.ble 0x30 code && Nat.blt code 0x35 && bitAt (s.get CPR_MONSTAT_RAIL) (code - 0x30)) ||
    (cls == 0 && Nat.ble 0x40 code && Nat.blt code 0x46 && bitAt (s.get CPR_CLKSTAT_LOSS) (code - 0x40))

end Sys2Proof.Machine
end

