-- ==== Sys2Proof/Machine/Aes.lean ====
section
/-! DEFINITION. AES-128 and the AES-128-CMAC that session tags are made with (R234). -/

namespace Sys2Proof.Machine.Aes

/-- Multiplication by x in the field of AES. -/
def xtime (a : Byte) : Byte := bif a.getLsbD 7 then (a <<< (1 : Nat)) ^^^ 0x1B else a <<< (1 : Nat)

/-- The substitution box: 32 values in each number, the first in its lowest byte. -/
def box : List Nat :=
  [0xc072a49cafa2d4adf04759fa7dc982ca76abd7fe2b670130c56f6bf27b777c63,
   0x75b227ebe28012079a059618c323c7041531d871f1e5a534ccf73f362693fdb7,
   0xcf584c4a39becb6a5bb1fc20ed00d153842fe329b3d63b52a05a6e1b1a2c8309,
   0xd2f3ff1021dab6bcf5389d928f40a351a89f3c507f02f94585334d43fbaaefd0,
   0xdb0b5ede14b8ee4688902a22dc4f816073195d643d7ea7c41744975fec130ccd,
   0x08ae7a65eaf4566ca94ed58d6d37c8e779e4959162acd3c25c2406490a3a32e0,
   0x9e1dc186b95735610ef6034866b53e708a8bbd4b1f74dde8c6b4a61c2e2578ba,
   0x16bb54b00f2d99416842e6bf0d89a18cdf2855cee9871e9b948ed9691198f8e1]

/-- Byte `a` of a table of 256 bytes. -/
def entry (t : List Nat) (a : Byte) : Byte := BitVec.ofNat 8 (t.getD (a.toNat / 32) 0 >>> (8 * (a.toNat % 32)))

/-- The substitution of a byte. -/
def sub (a : Byte) : Byte := entry box a

/-- The bytewise sum of two blocks. -/
def xor (a b : List Byte) : List Byte := List.zipWith (· ^^^ ·) a b

/-- Byte `i` of a block. -/
def at_ (s : List Byte) (i : Nat) : Byte := (s[i]?).getD 0

/-- The rows of a block, held column by column, shifted. -/
def shiftRows (s : List Byte) : List Byte := (List.range 16).map fun i => at_ s ((i + 4 * (i % 4)) % 16)

/-- One column mixed. -/
def mixColumn (a b c d : Byte) : List Byte :=
  let r (p q u v : Byte) : Byte := xtime p ^^^ (xtime q ^^^ q) ^^^ u ^^^ v
  [r a b c d, r b c d a, r c d a b, r d a b c]

/-- The four columns mixed. -/
def mixColumns (s : List Byte) : List Byte :=
  (List.range 4).flatMap fun c => mixColumn (at_ s (4 * c)) (at_ s (4 * c + 1)) (at_ s (4 * c + 2)) (at_ s (4 * c + 3))

/-- The next round key, with round constant `rc`. -/
def nextKey (k : List Byte) (rc : Byte) : List Byte :=
  let t := [sub (at_ k 13) ^^^ rc, sub (at_ k 14), sub (at_ k 15), sub (at_ k 12)]
  let c0 := xor (k.take 4) t
  let c1 := xor ((k.drop 4).take 4) c0
  let c2 := xor ((k.drop 8).take 4) c1
  let c3 := xor (k.drop 12) c2
  c0 ++ c1 ++ c2 ++ c3

/-- Rounds of encryption: `n` rounds remain, `k` is the key of the round before. -/
def rounds : Nat → List Byte → Byte → List Byte → List Byte
  | 0, _, _, s => s
  | n + 1, k, rc, s =>
    let k1 := nextKey k rc
    let t := shiftRows (s.map sub)
    rounds n k1 (xtime rc) (xor (bif n == 0 then t else mixColumns t) k1)

/-- AES-128 of one block. -/
def encrypt (key blk : List Byte) : List Byte := rounds 10 key 1 (xor blk key)

/-- A block doubled in the field of CMAC. -/
def double (b : List Byte) : List Byte :=
  let shifted := (List.range 16).map fun i =>
    (at_ b i <<< (1 : Nat)) ||| (at_ b (i + 1) >>> (7 : Nat))
  bif (at_ b 0).getLsbD 7 then shifted.take 15 ++ [at_ shifted 15 ^^^ 0x87] else shifted

/-- The chaining of CMAC over the blocks before the last one. -/
def chain (key : List Byte) : Nat → List Byte → List Byte → List Byte × List Byte
  | 0, x, m => (x, m)
  | n + 1, x, m => chain key n (encrypt key (xor x (m.take 16))) (m.drop 16)

/-- AES-128-CMAC. -/
def cmac (key msg : List Byte) : List Byte :=
  let k1 := double (encrypt key (List.replicate 16 0))
  let n := (msg.length - 1) / 16
  let r := chain key n (List.replicate 16 0) msg
  let last := bif r.2.length == 16 then xor r.2 k1
    else xor (r.2 ++ [0x80] ++ List.replicate (15 - r.2.length) 0) (double k1)
  encrypt key (xor r.1 last)

/-- The bytes of a key, most significant first. -/
def keyBytes (k : BitVec 128) : List Byte := (List.range 16).map fun i => k.extractLsb' (8 * (15 - i)) 8

/-- The number whose bytes, most significant first, are the first 8 of `l`. -/
def tagOf (l : List Byte) : BitVec 64 := BitVec.ofNat 64 ((l.take 8).foldl (fun acc b => acc * 256 + b.toNat) 0)

end Sys2Proof.Machine.Aes
end

