-- ==== Sys2Proof/Machine/Reply.lean ====
section
/-! DEFINITION. Replies and alarms on their way to a requester: the ports with their tallies and reply stores, the internal
reply queues, and session tags (R228, R234, R236 to R239, R347, R413, R418). -/

namespace Sys2Proof.Machine

open Fields

/-! ### Ports (R410, R418) -/

/-- The number of the port of a source (R410): none for an internal requester. -/
def portOf : Source → Option Nat
  | .mailbox _ => none
  | .hspi p => some p.val
  | .eth p _ _ => some (2 + p.val)
  | .can p => some (4 + p.val)
  | .uart p _ => some (14 + p.val)

/-- The register of port `k` that stands `o` bytes into its block at 0xF00. -/
def portReg (k o : Nat) : Nat :=
  bif Nat.blt k 2 then Reg.HSPI_PTALLY k + o
  else bif Nat.blt k 4 then Reg.ETH_PTALLY (k - 2) + o
  else bif Nat.blt k 8 then Reg.CAN_PTALLY (k - 4) + o
  else Reg.UART_PTALLY (k - 14) + o

/-- A packet or frame discarded for another reason than CRC or length (R418). -/
def portDisc (k : Nat) (s : State) : State := (s.tally ⟨portReg k 0, 0, 16⟩).setb ⟨portReg k 4, 1, 1⟩ true

/-- A packet discarded for CRC or length (R418). -/
def portCrc (k : Nat) (s : State) : State := (s.tally ⟨portReg k 0, 16, 16⟩).setb ⟨portReg k 4, 0, 1⟩ true

/-- A packet met a full receive buffer (R239, R418). -/
def portFull (k : Nat) (s : State) : State := (portDisc k s).setb ⟨portReg k 4, 2, 1⟩ true

/-- Port `k`. -/
def State.port (s : State) (k : Nat) : Port := findAt (fun _ => {}) k s.gnorum.ports

/-- Replace port `k`. -/
def State.putPort (s : State) (k : Nat) (v : Port) : State := { s with gnorum := { s.gnorum with ports := putAt k v s.gnorum.ports } }

/-! ### Sessions (R234, R235) -/

/-- Session slot `k`. -/
def State.session (s : State) (k : Nat) : Option Session := findAt (fun _ => none) k s.gnorum.sessions

/-- Replace session slot `k`. -/
def State.putSession (s : State) (k : Nat) (v : Option Session) : State :=
  { s with gnorum := { s.gnorum with sessions := putAt k v s.gnorum.sessions } }

/-- Header words of a packet (R226). -/
def headerWords (opc flg : BitVec 8) (seq : BitVec 16) (len : Nat) (unit sess : BitVec 8) : List Word :=
  [seq ++ (flg ++ opc), sess ++ (unit ++ BitVec.ofNat 16 len)]

/-- The tag of a packet under a session (R234). -/
def tagFor (x : Session) (epoch : Word) (hdr params : List Word) : BitVec 64 :=
  Aes.tagOf (Aes.cmac (Aes.keyBytes x.key) ((epoch :: hdr ++ params).flatMap wordBytes))

/-- Parameter words of a reply: STATUS and DETAIL, then the rest (R228). -/
def replyParams (r : Reply) : List Word := (r.detail ++ r.status) :: r.words

/-- Header words of a reply (R228). -/
def replyHeader (r : Reply) : List Word := headerWords r.opc 0x80 r.seq (r.words.length + 1) r.unit r.sess

/-- A reply of an open session with its tag (R228, R234). -/
def tagReply (r : Reply) (s : State) : Reply :=
  bif r.sess == 0 then r
  else match s.session r.sess.toNat with
    | some x => { r with tag := some (tagFor x x.epoch (replyHeader r) (replyParams r)) }
    | none => r

/-- The words of a reply as an internal reply queue takes them: no tag (R228, R233, R238). -/
def replyWords (r : Reply) : List Word := replyHeader r ++ replyParams r

/-! ### Framing of replies (R227, R228, R233, R236, R237) -/

/-- The bytes of a tag, in the order of R234. -/
def tagBytes (t : BitVec 64) : List Byte := (List.range 8).map fun i => t.extractLsb' (8 * (7 - i)) 8

/-- A reply as a packet without its CRC: header, parameters, tag (R226 to R228). -/
def replyBytes (r : Reply) : List Byte := (replyWords r).flatMap wordBytes ++ match r.tag with | some t => tagBytes t | none => []

/-- A reply as a packet with its CRC trailer (R233). -/
def replyPacket (r : Reply) : List Byte := let bs := replyBytes r; bs ++ wordBytes (crc32c bs)

/-- What a read transaction clocks out: the length of the reply, the reply and its CRC; a length of zero when none is pending (R236). -/
def hspiBytes : Option Reply → List Byte
  | none => [0, 0]
  | some r => let n := (replyBytes r).length; BitVec.ofNat 8 n :: BitVec.ofNat 8 (n / 256) :: replyPacket r

/-- 0x7E and 0x7D of a frame are sent as 0x7D and the byte XOR 0x20 (R236). -/
def escape (bs : List Byte) : List Byte := bs.flatMap fun b => bif b == 0x7E || b == 0x7D then [0x7D, b ^^^ 0x20] else [b]

/-- A reply on the line of a UART; its address byte is the port's own (R236; DEDUCED, log entry 73). -/
def uartBytes (addr : Byte) (r : Reply) : List Byte := 0x7E :: escape (addr :: replyPacket r) ++ [0x7E]

/-- CAN frames that a reply takes (R237). -/
def replyFrames (r : Reply) : Nat := ceilDiv (replyPacket r).length 63

/-- Frame `i` of a reply: the segment control byte, 63 bytes of the packet, and in the last frame the padding (R237). -/
def canBytes (r : Reply) (i : Nat) : List Byte :=
  let k := replyFrames r
  let type := bif Nat.ble k 1 then 0 else bif i == 0 then 1 else bif i + 1 == k then 3 else 2
  let part := ((replyPacket r).drop (63 * i)).take 63
  BitVec.ofNat 8 (64 * type + i % 64) :: part ++ List.replicate (63 - part.length) 0

/-! ### Sending (R236, R238, R413) -/

/-- A reply leaves for its requester: into the requester's reply queue, or into the port's store, which holds eight on a host SPI
(R413); a broadcast receives none (R236). -/
def sendReply (r : Reply) (s : State) : State :=
  match r.src with
  | .mailbox b => (replyWords r).foldl (fun u w => queuePushTag 16 (2 * b.val + 1) w 0 u) s
  | .uart _ true => s
  | src =>
    match portOf src with
    | none => s
    | some k =>
      let p := s.port k
      bif Nat.blt k 2 && Nat.ble 8 p.replies.length then portDisc k s
      else s.putPort k { p with replies := p.replies ++ [tagReply r s] }

end Sys2Proof.Machine
end

