-- ==== Sys2Proof/Machine/Perc.lean ====
section
/-! DEFINITION. The Percolator: the log, incident mode, alarms, the flash log, sensors, and what the Kettle counts
(R335 to R349). The Kettle's resets stand in Kettle.lean, the recovery sequences in Startup.lean. -/

namespace Sys2Proof.Machine

open Fields

/-- Change the Percolator's part of the state. -/
def State.modPerc (s : State) (f : Perc → Perc) : State := { s with perc := f s.perc }

/-- An action of PERC firmware: no effect while it does not run (R352, R397). -/
def byPerc (s : State) (f : State → State) : State :=
  bif s.perc.running && Nat.blt (s.get CPR_PWRSTAT_STATE) 3 then f s else s

/-! ### Records (R339) -/

/-- Words 0 to 6 of a record. -/
def recHead (r : LogRec) : List Word :=
  [r.lseq, r.tb.extractLsb' 0 32, r.tb.extractLsb' 32 32,
   r.cls ++ (BitVec.ofBool r.summ ++ (BitVec.ofBool r.dly ++ (0 : BitVec 6) ++ (r.src ++ r.code))),
   r.arg0, r.arg1, r.rep ++ r.lastdt]

/-- The eight words of a record: word 7 is the CRC of the others (R339). -/
def recWords (r : LogRec) : List Word := recHead r ++ [crcWords (recHead r)]

/-! ### Alarms (R347, R348) -/

/-- Tokens of an alarm subscription at TB `t`: 20 per second, up to 64 (R348). -/
def alarmTokens (a : Alarm) (t : Nat) : Alarm :=
  let gained := (t - a.refillTb) / 10000000
  { a with tokens := min 64 (a.tokens + gained), refillTb := a.refillTb + gained * 10000000 }

/-- The alarm packet of a record: a suppressed count takes the place of its CRC (R347, R348). -/
def alarmReply (a : Alarm) (r : LogRec) : Reply :=
  { src := a.src, opc := 0x73, seq := a.count, unit := 0, sess := a.sess, status := 0, detail := 0xFFFF,
    words := bif a.suppressed == 0 then recWords r else recHead r ++ [(0 : BitVec 16) ++ a.suppressed], tag := none }

/-- Subscription slot `k` receives the record, if its class is met and its bucket allows (R347, R348). -/
def alarmOne (r : LogRec) (k : Nat) (s : State) : State :=
  match findAt (fun _ => none) k s.perc.alarms with
  | none => s
  | some a0 =>
    bif Nat.blt a0.lowest.toNat r.cls.toNat then s
    else
      let a := alarmTokens a0 s.time
      let put (x : Alarm) (u : State) : State := u.modPerc fun p => { p with alarms := putAt k (some x) p.alarms }
      bif r.cls != 0 && a.tokens == 0 then
        put { a with suppressed := bif a.suppressed == 0xFFFF then a.suppressed else a.suppressed + 1 } s
      else
        put { a with count := a.count + 1, suppressed := 0, tokens := bif r.cls == 0 then a.tokens else a.tokens - 1 }
          (sendReply (alarmReply a r) s)

/-- A record is sent to every subscription (R347). -/
def alarmSend (r : LogRec) (s : State) : State := upTo 8 (alarmOne r) s

/-! ### The on-chip ring (R343, R346) -/

/-- A record of class `cls` is lost: its tally (R346). CRIT has none. -/
def lossTally (cls : Nat) (s : State) : State :=
  match cls with
  | 1 => s.tally PST_LOSS0_ERRLOSS
  | 2 => s.tally PST_LOSS0_WARNLOSS
  | 3 => s.tally PST_LOSS1_INFOLOSS
  | _ => s

/-- A record stands in its entry of the top 64 KiB of PERC SRAM, with valid ECC (R343; DESIGN CHOICE, log 80: the order of the entries). -/
def ringStore (r : LogRec) (s : State) : State :=
  let a := 0x60030000 + 32 * r.slot
  let off (w : Nat) : Bool := !within a 32 w
  let t := s.putBytes a ((recWords r).flatMap wordBytes)
  { t with ecc := t.ecc.filter off, soft := t.soft.filter off }

/-- Remove the first record that satisfies `f`. -/
def dropFirst (f : LogRec → Bool) : List LogRec → List LogRec
  | [] => []
  | r :: rest => bif f r then rest else r :: dropFirst f rest

/-- The lowest class among the pending records that are not CRIT, as its code: 3 is the lowest. -/
def lowestClass (l : List LogRec) : Nat := l.foldl (fun m r => bif r.pending then max m r.cls.toNat else m) 0

/-- Entries that remain available to CRIT: those that hold no pending CRIT record (R343). -/
def critRoom (l : List LogRec) : Nat := 2048 - (l.filter fun r => r.pending && r.cls == 0).length

/-- The windows of records that have left the ring close. -/
def coalescePrune (s : State) : State :=
  s.modPerc fun p => { p with windows := p.windows.filter fun w =>
    match w.2 with
    | some c => p.ring.any fun r => r.lseq == c.lseq
    | none => false }

/-- In incident mode a dropped record of source `src` and class `cls` counts in the summary of its source (R344; DESIGN CHOICE, log 80: a
summary that begins with a dropped record takes that record's class). -/
def summaryDrop (src : Nat) (cls : BitVec 2) (s : State) : State :=
  match findAt (fun _ => none) src s.perc.summaries with
  | some x => s.modPerc fun p => { p with summaries := putAt src (some { x with dropped := x.dropped + 1 }) p.summaries }
  | none => whenS (s.flag PST_STATE_INCID)
      (fun u => u.modPerc fun p => { p with summaries := putAt src (some { offered := 0, dropped := 1, cls := cls }) p.summaries }) s

/-- Place a record in the ring (R343): whether it was written, and the state. -/
def ringPlace (r : LogRec) (s : State) : Bool × State :=
  let l := s.perc.ring
  let put (k : Nat) (l1 : List LogRec) (u : State) : State :=
    ringStore { r with slot := k } (coalescePrune (u.modPerc fun p => { p with ring := l1 ++ [{ r with slot := k }] }))
  let over_ (f : LogRec → Bool) (u : State) : State := put ((l.find? f).map (·.slot) |>.getD 0) (dropFirst f l) u
  bif Nat.blt l.length 2048 then (true, put l.length l s)
  else bif l.any fun x => !x.pending then (true, over_ (fun x => !x.pending) s)
  else
    let c := lowestClass l
    bif c != 0 && (r.cls == 0 || (Nat.ble r.cls.toNat c && Nat.ble 256 (critRoom l))) then
      (true, over_ (fun x => x.cls.toNat == c) (lossTally c s))
    else (false, summaryDrop r.src.toNat r.cls (lossTally r.cls.toNat s))

/-! ### Offering a record (R341, R342, R344) -/

/-- TB of the end of a coalescing window (R342). -/
def coalesceEnd (c : Coalesce) : Nat := c.openTb + 200000000

/-- The lowest free window slot, 0 to 63. -/
def freeCoalesce (s : State) : Option Nat :=
  (List.range 64).find? fun k => (findAt (fun _ => none) k s.perc.windows).isNone

/-- Write a record: its sequence number, the ring, an alarm, and a window if one is asked for and free (R341, R343, R347). -/
def recordWrite (ev : LogEvent) (summ dly window : Bool) (s : State) : State :=
  let r : LogRec :=
    { lseq := s.rd Reg.PST_LSEQ, tb := s.tb, cls := ev.cls, summ := summ, dly := dly, src := ev.src, code := ev.code,
      arg0 := ev.arg0, arg1 := ev.arg1, rep := 1, lastdt := 0, pending := true }
  match ringPlace r s with
  | (false, t) => t
  | (true, t) =>
    let t1 := alarmSend r (t.wr Reg.PST_LSEQ (s.rd Reg.PST_LSEQ + 1))
    match bif window then freeCoalesce t1 else none with
    | some k => t1.modPerc fun p => { p with windows := putAt k (some { lseq := r.lseq, openTb := s.time }) p.windows }
    | none => t1

/-- A window closes (R342, R348): a record that was repeated is sent once more. -/
def coalesceShut (k : Nat) (s : State) : State :=
  match findAt (fun _ => none) k s.perc.windows with
  | none => s
  | some c =>
    let s1 := s.modPerc fun p => { p with windows := putAt k none p.windows }
    match s.perc.ring.find? fun r => r.lseq == c.lseq with
    | some r => bif Nat.blt 1 r.rep.toNat then alarmSend r s1 else s1
    | none => s1

/-- The record is a first occurrence of the event's key (R341). -/
def sameKey (ev : LogEvent) (r : LogRec) : Bool :=
  r.src == ev.src && r.code == ev.code && r.arg0 == ev.arg0 && r.arg1 == ev.arg1 && r.cls == ev.cls && !r.summ

/-- The window slot that is open for the event's key. -/
def coalesceFor (s : State) (ev : LogEvent) : Option Nat :=
  (List.range 64).find? fun k =>
    match findAt (fun _ => none) k s.perc.windows with
    | some c => s.perc.ring.any fun r => r.lseq == c.lseq && sameKey ev r
    | none => false

/-- A repeat inside an open window changes the record in place (R341, R342). -/
def coalesce (c : Coalesce) (s : State) : State :=
  let again (r : LogRec) : LogRec :=
    { r with rep := bif r.rep == 0xFFFF then r.rep else r.rep + 1,
             lastdt := BitVec.ofNat 16 (min 0xFFFF ((s.time - c.openTb) / 200000)) }
  let hit (r : LogRec) : Bool := r.lseq == c.lseq
  (s.perc.ring.filter hit).foldl (fun u r => ringStore (again r) u)
    (s.modPerc fun p => { p with ring := p.ring.map fun r => bif hit r then again r else r })

/-- Bucket of a source (R341). -/
def State.bucket (s : State) (k : Nat) : Bucket := findAt (fun _ => {}) k s.perc.buckets

/-- Replace the bucket of a source. -/
def State.putBucket (s : State) (k : Nat) (b : Bucket) : State := s.modPerc fun p => { p with buckets := putAt k b p.buckets }

/-- A source's bucket gains RATE tokens per second, up to BURST; a full one gains nothing (R341). -/
def bucketRefill (k : Nat) (s : State) : State :=
  let b := s.bucket k
  let gained := (s.time - b.refillTb) * b.rate / 200000000
  let n := min b.burst (b.tokens + gained)
  s.putBucket k { b with tokens := n,
                         refillTb := bif n == b.burst then s.time else b.refillTb + gained * 200000000 / max 1 b.rate }

/-- A WARN or INFO record in incident mode enters the summary of its source (R344). -/
def summaryAdd (ev : LogEvent) (s : State) : State :=
  let k := ev.src.toNat
  let x := (findAt (fun _ => none) k s.perc.summaries).getD { offered := 0, dropped := 0, cls := ev.cls }
  let y : Summary :=
    { x with offered := x.offered + 1, cls := bif Nat.blt ev.cls.toNat x.cls.toNat then ev.cls else x.cls }
  s.modPerc fun p => { p with summaries := putAt k (some y) p.summaries }

/-- The steps after coalescing (R341). -/
def offerNew (ev : LogEvent) (dly : Bool) (s : State) : State :=
  bif s.flag PST_STATE_INCID && Nat.ble 2 ev.cls.toNat then summaryAdd ev s
  else bif ev.cls == 0 then recordWrite ev false dly true s
  else
    let s1 := bucketRefill ev.src.toNat s
    let b := s1.bucket ev.src.toNat
    bif b.tokens == 0 then summaryDrop ev.src.toNat ev.cls (lossTally ev.cls.toNat s1)
    else recordWrite ev false dly true (s1.putBucket ev.src.toNat { b with tokens := b.tokens - 1 })

/-- A record is offered (R341). A repeat in the same ms as its window closes opens a new record (R342). -/
def offer (ev : LogEvent) (dly : Bool) (s0 : State) : State :=
  let s := s0.modPerc fun p => { p with offered := p.offered + 1 }
  match coalesceFor s ev with
  | some k =>
    match findAt (fun _ => none) k s.perc.windows with
    | some c => bif Nat.blt (s.time / 200000) (coalesceEnd c / 200000) then coalesce c s else offerNew ev dly (coalesceShut k s)
    | none => offerNew ev dly s
  | none => offerNew ev dly s

/-- A record of PERC's own whose arguments the spec does not state. -/
def offerOwn (cls : BitVec 2) (src : BitVec 6) (code : BitVec 16) (s : State) : State :=
  let (a0, s1) := s.drawWord
  let (a1, s2) := s1.drawWord
  offer { cls := cls, src := src, code := code, arg0 := a0, arg1 := a1 } false s2

/-- A record of PERC's own whose code the spec does not state either. -/
def offerStep (cls : BitVec 2) (src : BitVec 6) (s : State) : State :=
  let (c, s1) := s.drawWord
  offerOwn cls src (c.setWidth 16) s1

/-- A class that the spec leaves open: any but CRIT, which only the marked events have (R343). -/
def State.drawClass (s : State) : BitVec 2 × State := let r := s.drawWord; (BitVec.ofNat 2 (1 + r.1.toNat % 3), r.2)

/-- A record of PERC's own of which the spec states only the source: its class, code and arguments are free values. -/
def offerFree (src : BitVec 6) (s : State) : State :=
  let (c, s1) := s.drawClass
  offerStep c src s1

/-- The record of the restart of a pair: ARG1 is 1 where PERC brought the restart about itself (R353). -/
def restartRecord (own : Bool) (s : State) : State :=
  let (k, s0) := s.drawClass
  let (c, s1) := s0.drawWord
  let (a0, s2) := s1.drawWord
  offer { cls := k, src := 25, code := c.setWidth 16, arg0 := a0, arg1 := BitVec.ofNat 32 own.toNat } false s2

/-- An application log item (R340): popped with UE or POISON, or of a device source, it is discarded. -/
def logItem (x : QItem) (dly : Bool) (s : State) : State :=
  let src := x.data.extractLsb' 24 6
  let cls := x.data.extractLsb' 30 2
  bif x.ue || x.poison || Nat.blt src.toNat 32 then s.tally PST_LOSS1_BADITEM
  else offer { cls := bif cls == 0 then 1 else cls, src := src, code := x.data.extractLsb' 8 16,
               arg0 := (0 : BitVec 18) ++ (x.tag ++ x.data.extractLsb' 0 8), arg1 := 0 } dly s

/-- PERC pops an item from Q31 (R340). -/
def logTake (s : State) : State :=
  bif !s.flag (Q_CFG_EN 31) then s
  else match queueTake 31 s with
    | (none, t) => t
    | (some x, t) => logItem x (s.perc.delayed != 0) (t.modPerc fun p => { p with delayed := p.delayed - 1 })

/-- A window has run for 1 s (R342). -/
def coalesceClose (k : Nat) (s : State) : State :=
  match findAt (fun _ => none) k s.perc.windows with
  | some c => bif Nat.ble (coalesceEnd c) s.time then coalesceShut k s else s
  | none => s

/-! ### Incident mode (R344) -/

/-- A record of a transition of incident mode: WARN from source 0, past every bucket. -/
def incidentRecord (s : State) : State :=
  let (c, s1) := s.drawWord
  let (a0, s2) := s1.drawWord
  let (a1, s3) := s2.drawWord
  recordWrite { cls := 2, src := 0, code := c.setWidth 16, arg0 := a0, arg1 := a1 } false false true s3

/-- A 10 ms interval ends (R344). -/
def incidentInterval (s : State) : State :=
  let p := s.perc
  let overs := bif Nat.blt 10 p.offered then p.overs + 1 else 0
  let under := bif Nat.blt p.offered 2 then p.under + 1 else 0
  let s1 := s.modPerc fun q => { q with offered := 0, overs := overs, under := under }
  bif !s.flag PST_STATE_INCID && Nat.ble 10 overs then
    incidentRecord ((s1.setb PST_STATE_INCID true).modPerc fun q => { q with overs := 0, under := 0, sumTb := s.time })
  else bif s.flag PST_STATE_INCID && Nat.ble 100 under then
    incidentRecord ((s1.setb PST_STATE_INCID false).modPerc fun q => { q with overs := 0, under := 0 })
  else s1

/-- The summary record of a source (R344). -/
def summaryRecord (src : Nat) (x : Summary) (s : State) : State :=
  recordWrite { cls := x.cls, src := BitVec.ofNat 6 src, code := 0xFFFF, arg0 := BitVec.ofNat 32 x.offered,
                arg1 := BitVec.ofNat 32 x.dropped } true false false s

/-- A second of incident mode ends: one summary record for each source (R344). -/
def incidentSummary (s : State) : State :=
  bif Nat.ble (s.perc.sumTb + 200000000) s.time then
    let s1 := s.modPerc fun p => { p with summaries := [], sumTb := p.sumTb + 200000000 }
    s.perc.summaries.foldl (fun u x => match x.2 with | some y => summaryRecord x.1 y u | none => u) s1
  else s

/-! ### The flash log (R345) -/

/-- The record of an open window may not yet be copied (R343). -/
def coalesceOpen (s : State) (r : LogRec) : Bool :=
  s.perc.windows.any fun w => match w.2 with | some c => c.lseq == r.lseq | none => false

/-- The first record that satisfies `f` becomes retained. -/
def retain (f : LogRec → Bool) : List LogRec → List LogRec
  | [] => []
  | r :: rest => bif f r then { r with pending := false } :: rest else r :: retain f rest

/-- A record enters the flash log of 256 sectors: the sector that the head reaches is erased first, and its 2048 records leave together
(R345). -/
def flashPut (r : LogRec) (l : List LogRec) : List LogRec :=
  bif l.length == 256 * 2048 then l.drop 2048 ++ [r] else l ++ [r]

/-- The flash writer may copy a record: at most 200 in a second, one each 5 ms (R345; DESIGN CHOICE, log 80: the spacing). -/
def flashReady (s : State) : Bool := match s.perc.flashTb with | some t => Nat.ble (t + 1000000) s.time | none => true

/-- The flash writer copies the oldest pending record whose window has closed (R343, R345). -/
def flashCopy (s : State) : State :=
  let ok (r : LogRec) : Bool := r.pending && !coalesceOpen s r
  match bif flashReady s then s.perc.ring.find? ok else none with
  | some r => s.modPerc fun p =>
      { p with ring := retain ok p.ring, flash := flashPut { r with pending := false } p.flash, flashTb := some s.time }
  | none => s

/-- After a restart PERC finds the head of the flash log, the highest LSEQ, and numbers the records from there on where the always-on domain
has lost its count (R345; DESIGN CHOICE, log 80). -/
def logHead (s : State) : State :=
  match s.perc.flash.getLast? with
  | some r => whenS (Nat.blt (r.lseq + 1 - s.rd Reg.PST_LSEQ).toNat (2 ^ 31)) (·.wr Reg.PST_LSEQ (r.lseq + 1)) s
  | none => s

/-! ### Sensors (R335, R336) -/

/-- PERC sets up the sequence that it owns: entries ENT24 to ENT31 on AN24 to AN31, started by SWTRG (R335). -/
def sensorBoot (s : State) : State :=
  bif s.flag (HADC_SEQCFG_EN 3) then s.setb HADC_CTL_EN true
  else
    let s1 := upTo 8 (fun i u => u.set (HADC_ENT_CH (24 + i)) (24 + i)) s
    ((((s1.set (HADC_SEQCFG_START 3) 24).set (HADC_SEQCFG_END 3) 31).set (HADC_SEQCFG_TTYP 3) 0).setb (HADC_SEQCFG_EN 3) true).setb HADC_CTL_EN true

/-- The sequence that PERC owns has completed since its trigger, as its DONE shows: its results are the readings of the last completed
sample, and no reading is stale (R335, R336). -/
def sensorTake (s : State) : State :=
  bif s.perc.trigTb.isSome && !(s.seqOf 3).active && s.flag (HADC_SEQSTAT_DONE 3) then
    s.modPerc fun p => { p with trigTb := none, stale := false,
                                readings := (List.range 8).map fun i => BitVec.ofNat 32 (s.get (HADC_RES_VALUE (24 + i))) }
  else s

/-- The reading of AN(24 + i). -/
def reading (s : State) (i : Nat) : Int := signedOf 16 (((s.perc.readings[i]?).getD 0).toNat)

/-- Temperature `i`, 25 °C less, in units of 1/1000 °C (R210). -/
def tempOver (s : State) (i : Nat) : Int := (reading s i - s.get (HADC_TCAL_C25 i)) * s.geti (HADC_TCAL_K i)

/-- Rail voltages in units of 1/4096 mV, with the nominal value in mV: VSUP, VCORE, VIO from their taps, VANA, VAON from CPR
(R335, R392). -/
def railOf (s : State) (r : Nat) : Int × Int :=
  match r with
  | 0 => (reading s 6 * 1800 * 4, 5000)
  | 1 => (reading s 4 * 1800, 800)
  | 2 => (reading s 5 * 1800 * 2, 3300)
  | 3 => (s.get (CPR_RAIL_MV 3) * 4096, 1800)
  | _ => (s.get (CPR_RAIL_MV 4) * 4096, 900)

/-- The rail lies outside `pct` percent of nominal. -/
def railOutside (s : State) (r : Nat) (pct : Int) : Bool :=
  let v := (railOf s r).1
  let n := (railOf s r).2
  decide (pct * n * 4096 < 100 * (v - n * 4096) ∨ 100 * (v - n * 4096) < -(pct * n * 4096))

/-- A condition of the log: it begins with a record of its class, and ends with an INFO record (R335). -/
def condition (cls : BitVec 2) (code : Nat) (on off : Bool) (s : State) : State :=
  let key := 4 * code + cls.toNat
  let held := findAt (fun _ => 0) key s.perc.conds == 1
  let put (v : Nat) (u : State) : State := u.modPerc fun p => { p with conds := putAt key v p.conds }
  bif on && !held then offerOwn cls 2 (BitVec.ofNat 16 code) (put 1 s)
  else bif off && held then offerOwn 3 2 (BitVec.ofNat 16 code) (put 0 s)
  else s

/-- A condition that a monitor of CPR holds until its flag is cleared: one record (R335). -/
def flagged (cls : BitVec 2) (code : Nat) (on : Bool) (s : State) : State :=
  let key := 4 * code + cls.toNat
  let held := findAt (fun _ => 0) key s.perc.conds == 1
  let put (v : Nat) (u : State) : State := u.modPerc fun p => { p with conds := putAt key v p.conds }
  bif on && !held then offerOwn cls 2 (BitVec.ofNat 16 code) (put 1 s) else bif !on && held then put 0 s else s

/-- PERC reads the rail and clock monitors of CPR: each rail outside its window, each clock lost (R335). The record of PLLT comes when the
angle domain is back (R407). -/
def monitorsTake (s : State) : State :=
  let s1 := upTo 5 (fun r u => flagged 1 (0x30 + r) (bitAt (u.get CPR_MONSTAT_RAIL) r) u) s
  upTo 6 (fun k u => flagged 0 (0x40 + k) (bitAt (u.get CPR_CLKSTAT_LOSS) k && !(k == 1 && u.power.angleReset)) u) s1

/-- The readings are compared with their limits (R335). -/
def sensorLimits (s : State) : State :=
  let temp (cls : BitVec 2) (lim : Int) (i : Nat) (u : State) : State :=
    condition cls (0x10 + i) (decide (lim ≤ tempOver u i)) (decide (tempOver u i ≤ lim - 5000)) u
  let rail (r : Nat) (u : State) : State := condition 2 (0x20 + r) (railOutside u r 5) (!railOutside u r 4) u
  let amp (cls : BitVec 2) (lim : Nat) (u : State) : State :=
    let ma := u.get CPR_ISUP_MA
    condition cls 0x50 (Nat.blt lim ma) (Nat.ble ma (lim - 20)) u
  let s1 := bif s.perc.readings.isEmpty then s
    else upTo 3 rail (upTo 4 (temp 1 100000) (upTo 4 (temp 2 90000) s))
  amp 1 1000 (amp 2 900 (rail 4 (rail 3 s1)))

/-- The measured rails and the current: the spec gives no path by which a command states them, so each measurement is free. -/
def measure (s0 : State) : State :=
  let one (f : Fld) (u : State) : State := let r := u.drawWord; r.2.set f r.1.toNat
  let rail (f : Fld) (u : State) : State := let r := u.drawWord; r.2.set f (r.1.toNat % 6554 * 10)
  one CPR_ISUP_MA (rail (CPR_RAIL_MV 4) (rail (CPR_RAIL_MV 3) (rail (CPR_RAIL_MV 2) (rail (CPR_RAIL_MV 1)
    (s0.set (CPR_RAIL_MV 0) (s0.power.vsup / 10 * 10))))))

/-- PERC samples its sensors: the last completed sample is compared, the monitors are read, and SEQ3 is triggered, with its DONE cleared
(R335). -/
def sensorSample (s : State) : State :=
  let s0 := monitorsTake (sensorLimits (measure (sensorTake s)))
  let s1 := hadcSoft 8 (s0.setb (HADC_SEQSTAT_DONE 3) false)
  s1.modPerc fun p => { p with trigTb := some (p.trigTb.getD s.time) }

/-- SEQ3 has not completed within 20 ms of its trigger (R336). -/
def sensorLate (s : State) : State :=
  let s1 := sensorTake s
  match s1.perc.trigTb with
  | some t => bif !s1.perc.stale && Nat.ble (t + 4000000) s.time then
      (offerOwn 2 2 1 s1).modPerc fun p => { p with stale := true }
    else s1
  | none => s1

/-! ### Faults and the Kettle's count (R338, R346, R349) -/

/-- The key of a recorded fault. -/
def faultKey (src k : Nat) : Nat := 8 * src + k

/-- Faults whose status no longer shows them are forgotten. -/
def faultsPrune (s : State) : State := s.modPerc fun p => { p with known := p.known.filter fun x => faultShown s (x / 8) (kindAt (x % 8)) }

/-- The status of the event's block shows it (R335, R338): the class that the rule states, or any but CRIT where it states none. -/
def eventShown (s : State) (ev : LogEvent) : Bool :=
  let src := ev.src.toNat
  faultShown s src (kindOf ev.cls) || (ev.cls != 0 && faultShown s src .other) || (src == 2 && monitorShows s ev.cls ev.code.toNat)

/-- The event is recorded: its status is known, or its monitor's condition holds. -/
def faultNote (ev : LogEvent) (s : State) : State :=
  let src := ev.src.toNat
  let k := bif faultShown s src (kindOf ev.cls) then ev.cls.toNat else 4
  s.modPerc fun p =>
    bif src == 2 then { p with conds := putAt (4 * ev.code.toNat + ev.cls.toNat) 1 p.conds }
    else { p with known := bif p.known.contains (faultKey src k) then p.known else p.known ++ [faultKey src k] }

/-- The records of the faults that came while PERC did not run, from the blocks' status (R338, R352, R353); a fault that PERC has recorded is
not recorded again. The Kettle's own record stands beside them. -/
def faultsMissed (s0 : State) : State :=
  let s := faultsPrune s0
  upTo 25 (fun i t => upTo 5 (fun k u =>
    let src := i + 3
    bif !faultShown u src (kindAt k) || u.perc.known.contains (faultKey src k) then u
    else
      let v := u.modPerc fun p => { p with known := p.known ++ [faultKey src k] }
      bif k == 4 then offerFree (BitVec.ofNat 6 src) v else offerStep (BitVec.ofNat 2 k) (BitVec.ofNat 6 src) v) t) s

/-- PERC reads a block's status, writes its record where the status shows the fault, and its handler ends (R338). -/
def faultObserve (ev : LogEvent) (s0 : State) : State :=
  let s := faultsPrune s0
  let s1 := bif eventShown s ev then offer ev false (faultNote ev s) else s
  bif (s1.core 4).stack.isEmpty then s1 else handlerReturn 4 s1

/-- A write of LINC (R346). -/
def lossIncrement (bits : Nat) (s : State) : State :=
  whenS (bitAt bits 3) (·.tally PST_LOSS1_BADITEM) (whenS (bitAt bits 2) (·.tally PST_LOSS1_INFOLOSS)
    (whenS (bitAt bits 1) (·.tally PST_LOSS0_WARNLOSS) (whenS (bitAt bits 0) (·.tally PST_LOSS0_ERRLOSS) s)))

/-- A heartbeat (R349). -/
def kettleBeat (s : State) : State := s.modPerc fun p => { p with hbTb := s.time, hbToggle := !p.hbToggle }

/-- The count of AONCLK periods at which the Kettle resets PERC (R349). -/
def kettleCount (s : State) : Nat := s.get KTL_CFG_HBT * 32768 / 1000

/-- `n` AONCLK periods, each at most 5 % short, may have passed since the last heartbeat of PERC firmware; while the ROM runs it writes
heartbeats itself (R349, R351, R394). -/
def kettlePast (s : State) (n : Nat) : Bool :=
  s.perc.running && Nat.ble (n * 20000000000) ((s.time - s.perc.hbTb) * 32768 * 105)

/-- Half the count has passed (R349). -/
def kettleWarn (s : State) : State := whenS (kettlePast s (kettleCount s / 2)) (·.setb KTL_STAT_WARN true) s

/-! ### Commands -/

/-- A sample (R335). -/
def execSensorSample (s : State) : Host.Outcome State Fault Refusal := done (byPerc s sensorSample)

/-- A late sequence (R336). -/
def execSensorSeqTimeout (s : State) : Host.Outcome State Fault Refusal := done (byPerc s sensorLate)

/-- A fault is observed (R338). -/
def execPercFaultObserve (ev : LogEvent) (s : State) : Host.Outcome State Fault Refusal := done (byPerc s (faultObserve ev))

/-- A record is offered (R341). -/
def execLogRecordOffer (ev : LogEvent) (s : State) : Host.Outcome State Fault Refusal := done (byPerc s (offer ev false))

/-- A log item is taken (R340). -/
def execLogItemTake (s : State) : Host.Outcome State Fault Refusal := done (byPerc s logTake)

/-- A coalescing window closes (R342). -/
def execCoalesceWindowClose (slot : Fin 64) (s : State) : Host.Outcome State Fault Refusal := done (byPerc s (coalesceClose slot))

/-- A bucket is refilled (R341). -/
def execLogBucketRefill (src : Fin 64) (s : State) : Host.Outcome State Fault Refusal := done (byPerc s (bucketRefill src))

/-- An interval ends (R344). -/
def execIncidentInterval (s : State) : Host.Outcome State Fault Refusal := done (byPerc s incidentInterval)

/-- A second of incident mode ends (R344). -/
def execIncidentSummary (s : State) : Host.Outcome State Fault Refusal := done (byPerc s incidentSummary)

/-- The flash writer copies a record (R345). -/
def execFlashLogCopy (s : State) : Host.Outcome State Fault Refusal := done (byPerc s flashCopy)

/-- PST.LINC (R346). -/
def execLogLossIncrement (bits : BitVec 4) (s : State) : Host.Outcome State Fault Refusal := done (lossIncrement bits.toNat s)

/-- KTL.HB (R349). -/
def execKettleHeartbeat (s : State) : Host.Outcome State Fault Refusal := done (kettleBeat s)

/-- Half the heartbeat timeout passes (R349). -/
def execKettleWarn (s : State) : Host.Outcome State Fault Refusal := done (kettleWarn s)

end Sys2Proof.Machine
end

