-- ==== Sys2Proof/Machine/Power.lean ====
section
/-! DEFINITION. Supply, clocks, power states and resets (R392 to R407, R424). Start-up, and what PERC applies after a reset of the
angle domain, stand in Startup.lean. -/

namespace Sys2Proof.Machine

open Fields

/-- Change the part of the state that supply and clocks hold. -/
def State.modPower (s : State) (f : Power → Power) : State := { s with power := f s.power }

/-! ### Resets (R402, R403, R407) -/

/-- Addresses of the registers and memories of the angle domain (R294, R407): trackers, inputs, tables, scheduler, sequencers,
current shaping, microcode, timers. -/
def angleAddr (a : Nat) : Bool :=
  within 0x50000000 0xA0000 a || within 0x500D0000 0x20000 a || within 0x40040000 0x10000 a

/-- Switches that the angle domain had been asked for are lost with it, and are asked for again (R361). -/
def Update.angleLost (u : Update) : Update :=
  { u with calib := [], active := u.active.map fun a => bif Nat.ble 3 a.comp && Nat.ble a.comp 6 then { a with asked := false } else a }

/-- The angle domain is reset (R407): TB, its registers, memories and units. Staged writes are gone with the FCP's execution
units; PERC has the images to apply again. -/
def angleReset (s : State) : State :=
  let s1 := windowsDiscard s
  cmpsBack s { s1 with
    tb := 0
    regs := s1.regs.filter fun r => !angleAddr r.1
    ecc := s1.ecc.filter fun a => !angleAddr a
    inputs := [], trackers := [], occs := [], units := [], published := [], held := [], switched := [], bankCyl := false, bankJob := 0,
    copyTb := 0, copySrc := false, copyJob := 0, esqs := [], loops := [], cses := [], gpts := []
    gnorum := { s1.gnorum with staged := [] }
    update := s1.update.angleLost
    ring := { s1.ring with digs := [], got := [], framed := none, wrote := [], handed := none, closeAt := 0, startAt := 0, driveTb := 0 }
    perc := { s1.perc with coldDue := true }
    power := { s1.power with angleReset := true } }

/-- Byte addresses whose contents outlast a device reset: the flash behind the OSPI window, and the AON SRAM (R397, R403). -/
def keptByte (a : Nat) : Bool := within 0x20000000 0x10000000 a || within 0x70000000 0x10000 a

/-- Registers that a device reset keeps, all of the AON domain: AON timer, PST, KTL.CFG, KTL.STAT and KTL.RCNT, RSTCAUSE (R403). -/
def keptReg (a : Nat) : Bool :=
  a == Reg.AON_TMR || within Reg.PST_STATE 0x18 a || a == Reg.KTL_CFG || a == Reg.KTL_STAT || a == Reg.KTL_RCNT || a == Reg.CPR_RSTCAUSE

/-- The update that a reset of PERC interrupts is closed (R366). An activation goes on when PERC runs again, without its job (R252,
R361); a revert that still checks its slot is over. -/
def Update.interrupt (u : Update) : Update :=
  { u with opened := none, verify := 0, active := (u.active.filter fun a => !a.revert).map fun a => { a with job := 0 },
           closed := bif u.opened.isSome then (bif u.active.isEmpty then u.opened else none) else u.closed }

/-- A reset of the device also takes from the hardware what an activation had put there (R361). -/
def Update.restart (u : Update) : Update :=
  { u.interrupt with calib := [], active := u.interrupt.active.map fun a => { a with asked := false, bank := 0 } }

/-- What a reset of everything but the AON domain, or of that too, leaves: fuses, flash and pins (R403). -/
def afterReset (s : State) (mem : List Host.Cell) (regs : List (Nat × Word)) : State :=
  { State.reset with
    pending := s.pending
    mem := mem
    regs := regs
    perc := { flash := s.perc.flash }
    update := s.update.restart
    fuses := { s.fuses with dbg := bif s.fuses.dbg == 2 then 1 else s.fuses.dbg, chal := none }
    power := { vsup := s.power.vsup, orel := s.power.orel, tmrTb := s.power.tmrTb, inReset := s.power.inReset, porTb := s.power.porTb }
    draws := s.draws }

/-- A device reset whose cause is bit `bit` of RSTCAUSE (R402, R403). ROM safe mode ends, and KTL.CFG.LOCK clears. A reset in which VSUP
holds the device goes on (R406). -/
def deviceReset (bit : Nat) (s : State) : State :=
  let s1 := s.wrn Reg.CPR_RSTCAUSE (s.rdn Reg.CPR_RSTCAUSE ||| 2 ^ bit)
  let s2 := whenS (s.get PST_STATE_MODE == 2) (·.set PST_STATE_MODE 1) (((s1.setb KTL_STAT_SAFE false).setb KTL_STAT_WARN false).setb KTL_CFG_LOCK false)
  { afterReset s2 (s2.mem.filter fun c => keptByte c.1) (s2.regs.filter fun r => keptReg r.1) with clock := s.clock }

/-- A power-on reset: everything, the AON domain too; RSTCAUSE shows POR alone, and the device is held while VSUP is below 4.4 V or has
not come back there since an undervoltage (R402, R403, R406). -/
def powerOnReset (s : State) : State :=
  let t := afterReset s (s.mem.filter fun c => within 0x20000000 0x10000000 c.1) []
  t.modPower fun p => { p with inReset := p.inReset || Nat.blt p.vsup 4400, porTb := some 0, tapReset := true }

/-- A power-on reset falls in this tk, or still holds the device (R405, R406). -/
def powerOnHolds (s : State) : Bool := s.power.porTb == some s.time || (s.power.inReset && s.rdn Reg.CPR_RSTCAUSE == 1)

/-- A rail is below its threshold (R393, R402): VSUP, VCORE, VIO reset the device, VAON everything. Below 4.4 V of VSUP the
device stays in reset (R406); with a power-on reset RSTCAUSE shows POR (R405). -/
def undervoltage (rail : Nat) (s : State) : State :=
  bif rail == 3 then powerOnReset s
  else (bif powerOnHolds s then s else deviceReset 1 s).modPower fun p => { p with inReset := p.inReset || rail == 0 || Nat.blt p.vsup 4400 }

/-- VSUP crosses a threshold (R406, R424). -/
def vsupRamp (mv : Nat) (s : State) : State :=
  (s.modPower fun p => { p with vsup := mv, inReset := p.inReset && Nat.blt mv 4400 }).set (CPR_RAIL_MV 0) (mv / 10 * 10)

/-! ### Clocks (R394, R395) -/

/-- The monitor of clock `k` trips: LOSS sets, OK clears (R395), and PERC's history of it (R337). -/
def clockTrip (k : Nat) (s : State) : State :=
  ((s.set CPR_CLKSTAT_LOSS (putBits (s.get CPR_CLKSTAT_LOSS) k 1 1)).set CPR_CLKSTAT_OK
    (putBits (s.get CPR_CLKSTAT_OK) k 1 0)).modPerc fun p => { p with clkHist := BitVec.ofNat 6 (p.clkHist.toNat ||| 2 ^ k) }

/-- Clock `k` is as it should be: OK sets (R395). -/
def clockGood (k : Nat) (s : State) : State := s.set CPR_CLKSTAT_OK (putBits (s.get CPR_CLKSTAT_OK) k 1 1)

/-- A pair in service takes RESET when PLLS is lost, and PERC has to restart it (R395). -/
def pairUnclocked (p : Nat) (s : State) : State :=
  bif pairInService s p then (pairToReset p s).modPair p fun x => { x with recover := 1 } else s

/-- PLLS loses lock (R395). -/
def pllsLost (s : State) : State := pairUnclocked 1 (pairUnclocked 0 (clockTrip 0 s))

/-- PLLT loses lock (R395, R407). -/
def plltLost (s : State) : State := angleReset (clockTrip 1 s)

/-- PLLA loses lock (R395): a calibration of a pressure converter stops with FAIL, and so does the pending one that its end starts
(DEDUCED, log entry 57). -/
def pllaLost (s : State) : State :=
  upTo 8 (fun i u => whenS (bitAt (u.get PADC_CAL_BUSY) (i % 4)) (padcCalEnd (i % 4) false 0 0) u) (clockTrip 2 s)

/-- A PLL locks (R394); sequences of the housekeeping converter go on with PLLA (R395). -/
def pllLock (k : Nat) (s : State) : State := whenS (k == 2) hadcResume (clockGood k s)

/-- The crystal shows no edge (R395). -/
def crystalLost (s : State) : State := (clockTrip 3 s).modPower fun p => { p with xtalLossTb := some s.time }

/-- 10 ms after the loss of the crystal the PLLs lose lock (R395). -/
def holdoverEnd (s : State) : State :=
  match s.power.xtalLossTb with
  | some t => bif Nat.ble (t + 2000000) s.time then pllaLost (plltLost (pllsLost (s.modPower fun p => { p with xtalLossTb := none }))) else s
  | none => s

/-- The crystal, MCLK or AONCLK is back in range (R395). -/
def clockRestored (k : Nat) (s : State) : State :=
  bif Nat.blt k 3 then s
  else
    let s1 := clockGood k s
    bif k == 3 then s1.modPower fun p => { p with xtalLossTb := none } else s1

/-- AONCLK is out of range: with the AON crystal in use, CPR switches to the RC (R395). -/
def aonClockLost (s : State) : State := (clockTrip 5 s).setb CPR_CLKSTAT_AONX false

/-! ### Power states (R397 to R401) -/

/-- Every pair in service is in WFI (R399). -/
def pairsIdle (s : State) : Bool :=
  !someBelow 2 fun p => pairInService s p &&
    (!(s.core (2 * p)).wfi || (s.flag (CPR_PAIRCTL_SPLIT p) && !(s.core (2 * p + 1)).wfi))

/-- Why the entry to state `q` aborts: the ABORT code (R399, R400), 0 if it does not. -/
def entryAbort (s : State) (q : Nat) : Nat :=
  bif q == 1 then (bif pairsIdle s then 0 else 1)
  else bif s.rdn Reg.SCH_OUTENL != 0 || s.rdn Reg.SCH_OUTENH != 0 then 2
  else bif someBelow 4 fun n => s.get (AT_SSTAT_STATE n) != 0 then 3
  else bif s.get RING_STAT_STATE != 0 then 4
  else bif s.update.verify != 0 || !s.update.active.isEmpty then 5
  else 0

/-- A write of PWRCTL: WAKEEN, and a request from RUN (R399). -/
def powerRequest (image : Nat) (s : State) : State :=
  let q := bitsAt image 0 3
  let s1 := s.set CPR_PWRCTL_WAKEEN (bitsAt image 8 5)
  bif Nat.ble 1 q && Nat.ble q 4 && s.get CPR_PWRSTAT_STATE == 0 && s.power.entering.isNone then
    s1.modPower fun p => { p with entering := some q, enterTb := s.time }
  else s1

/-- PLLs stop (R399). -/
def pllsStop (s : State) : State :=
  (s.set CPR_CLKSTAT_OK (s.get CPR_CLKSTAT_OK &&& 0x38)).modPerc fun p => { p with clkHist := p.clkHist ||| 7 }

/-- The pending records are copied to flash (R399). -/
def flashFlush (s : State) : State :=
  s.modPerc fun p => { p with
    flash := (p.ring.filter (·.pending)).foldl (fun l r => flashPut { r with pending := false } l) p.flash
    ring := p.ring.map fun r => { r with pending := false } }

/-- A byte address whose contents STEEP keeps: all but SRAM banks outside RETMASK, the TCMs and the CAE memory (R397). -/
def steepByte (s : State) (a : Nat) : Bool :=
  (match sramBank a with | some b => bitAt (s.get CPR_RETMASK_BANK) b | none => true) &&
    !(tcmWindow a).isSome && !within 0x14000000 0x100000 a

/-- STEEP (R397, R399): pairs OFF, angle domain and CAE without power, banks outside RETMASK without contents. -/
def enterSteep (s : State) : State :=
  let s1 := angleReset (pairPowerOff 1 (pairPowerOff 0 (flashFlush s)))
  let s2 := pllsStop s1
  { s2 with
    mem := s2.mem.filter fun c => steepByte s c.1
    ecc := s2.ecc.filter (steepByte s)
    soft := s2.soft.filter (steepByte s)
    regs := s2.regs.filter fun r => !within 0x500A0000 0x1000 r.1
    cae := {} }

/-- CELLAR (R397, R399): all but the AON domain is lost. The Kettle's history stays, AONCLK runs on (R395), and the AON comparators pass to
software's thresholds (R400). -/
def enterCellar (s : State) : State :=
  let s1 := flashFlush s
  let t : State := { afterReset s1 (s1.mem.filter fun c => keptByte c.1)
      (s1.regs.filter fun r => keptReg r.1 || within Reg.KTL_CFG 0x20 r.1 || within Reg.PST_STATE 0x18 r.1 ||
        r.1 == Reg.CPR_PWRCTL || (within (Reg.CMP_CFG 0) 0x300 r.1 && s1.flag (CMP_CFG_AON ((r.1 - Reg.CMP_CFG 0) / 16)))) with
    clock := s.clock
    cmps := s.cmps.filter fun c => s1.flag (CMP_CFG_AON c.1) }
  cmpsBack s (whenS (s.clockOk 5) (clockGood 5) (t.modPerc fun p => { p with resets := s.perc.resets }))

/-- The last step of an entry: the state is taken, or the entry aborts; the pairs have 1 ms to reach WFI for SIMMER (R399, R400). -/
def powerEntry (s : State) : State :=
  match s.power.entering with
  | none => s
  | some q =>
    let s1 := s.modPower fun p => { p with entering := none }
    let a := entryAbort s q
    bif q == 1 && a != 0 && Nat.blt s.time (s.power.enterTb + 200000) then s
    else bif a != 0 then (s1.set CPR_PWRSTAT_ABORT a).pulse 247
    else
      let s2 := match q with
        | 1 => s1
        | 2 => pllsStop s1
        | 3 => enterSteep s1
        | _ => enterCellar s1
      (s2.set CPR_PWRSTAT_STATE q).modPower fun p => { p with warmTb := s.time, wakes := 0, exiting := false }

/-- TB's advance for a stay of `t` tk in WARM (R398): round(n × 6103.5156) tk for its n AONCLK periods. -/
def warmAdvance (t : Nat) : Nat := rndNat (t * 32768 / 200000000 * 61035156) 10000

/-- The exit's end point: RUN, WSRC, source 247 (R398, R399). PERC's part after STEEP and CELLAR stands in Startup.lean. -/
def powerExit (s : State) : State :=
  let q := s.get CPR_PWRSTAT_STATE
  bif q == 0 || !s.power.exiting then s
  else
    let s1 := ((s.set CPR_PWRSTAT_STATE 0).set CPR_PWRSTAT_WSRC s.power.wakes.toNat).modPower fun p =>
      { p with wakes := 0, exiting := false }
    let locked (u : State) : State := clockGood 2 (clockGood 1 (clockGood 0 u))
    let s2 := match q with
      | 1 => s1
      | 2 => { locked s1 with tb := s1.tb + BitVec.ofNat 64 (warmAdvance (s.time - s.power.warmTb)) }
      | _ => (locked (clockGood 4 (clockGood 3 s1))).modPower fun p => { p with angleReset := false, startStep := 3 }
    s2.pulse 247

/-- AON.TMR reaches zero: its count may have passed on an AONCLK that is 5 % fast (R394, R401). -/
def aonDue (s : State) : Bool := Nat.ble (s.get AON_TMR_MS * 20000000) ((s.time - s.power.tmrTb) * 105)

/-- AON.TMR reaches zero (R401). -/
def aonTimer (s : State) : State :=
  bif s.get AON_TMR_MS == 0 || !aonDue s then s else requestWake 3 (s.set AON_TMR_MS 0)

/-! ### Commands -/

/-- PWRCTL (R399). -/
def execPowerStateRequest (image : Word) (s : State) : Host.Outcome State Fault Refusal := done (powerRequest image.toNat s)

/-- The last entry step (R399). -/
def execPowerEntryComplete (s : State) : Host.Outcome State Fault Refusal := done (powerEntry s)

/-- A wake request (R401). -/
def execWakeRequest (src : Fin 5) (s : State) : Host.Outcome State Fault Refusal := done (requestWake src s)

/-- AON.TMR (R401). -/
def execAonTimerExpire (s : State) : Host.Outcome State Fault Refusal := done (aonTimer s)

/-- Power-on reset (R402). -/
def execPowerOnReset (s : State) : Host.Outcome State Fault Refusal := done (powerOnReset s)

/-- Undervoltage (R393). -/
def execUndervoltageReset (rail : Fin 4) (s : State) : Host.Outcome State Fault Refusal := done (undervoltage rail s)

/-- RESET_N (R402). -/
def execResetPin (s : State) : Host.Outcome State Fault Refusal := done (deviceReset 2 s)

/-- SWRST (R402). -/
def execSoftwareReset (s : State) : Host.Outcome State Fault Refusal := done (deviceReset 3 s)

/-- A debug reset, in OPEN or AUTH only (R402). -/
def execDebugReset (s : State) : Host.Outcome State Fault Refusal :=
  done (bif s.fuses.dbg == 0 || s.fuses.dbg == 2 then deviceReset 4 s else s)

/-- A PLL locks (R394). -/
def execPllLock (pll : Fin 3) (s : State) : Host.Outcome State Fault Refusal := done (pllLock pll s)

/-- A rail leaves its window (R393). -/
def execRailWindowViolation (rail : Fin 5) (s : State) : Host.Outcome State Fault Refusal :=
  done (s.set CPR_MONSTAT_RAIL (putBits (s.get CPR_MONSTAT_RAIL) rail 1 1))

/-- VSUP below 4.45 V (R393). -/
def execVsupLowWarning (s : State) : Host.Outcome State Fault Refusal := done (s.setb CPR_MONSTAT_VLOW true)

/-- VSUP current above LIM (R393). -/
def execCurrentLimit (s : State) : Host.Outcome State Fault Refusal := done (s.setb CPR_MONSTAT_ILIM true)

/-- PLLS (R395). -/
def execPllsLossOfLock (s : State) : Host.Outcome State Fault Refusal := done (pllsLost s)

/-- PLLT (R395). -/
def execPlltLossOfLock (s : State) : Host.Outcome State Fault Refusal := done (plltLost s)

/-- PLLA (R395). -/
def execPllaLossOfLock (s : State) : Host.Outcome State Fault Refusal := done (pllaLost s)

/-- The crystal (R395). -/
def execCrystalLoss (s : State) : Host.Outcome State Fault Refusal := done (crystalLost s)

/-- The end of holdover (R395). -/
def execCrystalHoldoverExpire (s : State) : Host.Outcome State Fault Refusal := done (holdoverEnd s)

/-- MCLK (R395). -/
def execMclkOutOfRange (s : State) : Host.Outcome State Fault Refusal := done (clockTrip 4 s)

/-- AONCLK (R395). -/
def execAonclkOutOfRange (s : State) : Host.Outcome State Fault Refusal := done (aonClockLost s)

/-- VSUP crosses a threshold (R424). -/
def execVsupRampThreshold (mv : BitVec 16) (s : State) : Host.Outcome State Fault Refusal := done (vsupRamp mv.toNat s)

/-- A clock is back (R395). -/
def execClockRestored (clk : Fin 6) (s : State) : Host.Outcome State Fault Refusal := done (clockRestored clk s)

end Sys2Proof.Machine
end

