-- ==== Sys2Proof/Machine/Trigger.lean ====
section
/-! DEFINITION. The events of timers and angles that trigger other blocks: the end of a period, compare events, ring starts of
timers, and the angle triggers of the housekeeping converter (R193, R197, R203, R212). -/

namespace Sys2Proof.Machine

open Fields

/-- The compare event of channel `x` of timer `t` (R197, R201): EVT, a TD trigger for channel 0, and the HADC. The event of a BREW that
makes the count 0 leaves the one at the period's end to come. -/
def gptCompare (t x : Nat) (s : State) : State :=
  bif gptCompareDue s t x then
    let g := s.gpt t
    let s1 := (s.setb (GPTt_CSTAT_EVT t x) true).putGpt t (g.putChan x { g.chan x with fired := !(g.chan x).zeroDue || (g.chan x).fired, zeroDue := false })
    hadcTriggerAll 2 (2 * t + x) (whenS (x == 0) (tdTrigger t) s1)
  else s

/-- The end of a period of timer `t`: a compare event of the same tick acts first (R193, R197). -/
def gptPeriod (t : Nat) (s : State) : State :=
  bif gptEndDue s t then hadcTriggerAll 1 t (gptEndPeriod (gptCompare t 1 (gptCompare t 0 s)) t) else s

/-- The ring starts of kind `k` that are due. -/
def ringDue (s : State) (k : Nat) : List RingStart := s.ring.starts.filter fun r => r.kind == k && Nat.ble r.tbs s.now

/-- The ring starts of kind `k` that are due leave the list. -/
def ringTake (k : Nat) (s : State) : State :=
  { s with ring := { s.ring with starts := s.ring.starts.filter fun r => !(r.kind == k && Nat.ble r.tbs s.now) } }

/-- TBS of a ring BREW: the timers of RBMSK start; a member of a running ring that holds no copy sets RBMISS (R203). -/
def ringBrewStart (s : State) : State :=
  bif !(ringDue s 0).isEmpty then gptBrewMask (s.rdn Reg.GPT_RBMSK) (ringTake 0 s)
  else whenS (s.flag RING_CTL_EN && !ringBrewPending s) (·.setb GPT_BSTAT_RBMISS true) s

/-- Sequence `q` waits from now on for the next crossing of its angle (R212). -/
def seqAim (q : Nat) (s : State) : State :=
  s.putSeq q { s.seqOf q with mark := (trackerAt s (s.get (HADC_SEQANG_TRK q)) s.now).travel }

/-- The sequences with an angle trigger whose tracker is not synchronised wait for a crossing after its synchronisation (R212). -/
def hadcAims (s : State) : State :=
  upTo 4 (fun q u => whenS (u.get (HADC_SEQCFG_TTYP q) == 4 && !synced (syncState u (u.get (HADC_SEQANG_TRK q)))) (seqAim q) u) s

/-- How far tracker `n` has moved, in phase units, since its angle last was `x`. -/
def pastBy (s : State) (n x : Nat) : Nat :=
  let m := phaseMod s n
  let p := (trackerAt s n s.now).phase
  let a := x * 2 ^ 24 % m
  bif s.flag (AT_SSTAT_DIR n) then (a + m - p % m) % m else (p + m - a) % m

/-- The published angle of a sequence's tracker reaches or passes ANG (R212). -/
def hadcAngle (q : Nat) (s : State) : State :=
  let n := s.get (HADC_SEQANG_TRK q)
  let cross : Int := (trackerAt s n s.now).travel - (pastBy s n (s.get (HADC_SEQANG_ANG q)) : Nat)
  bif s.get (HADC_SEQCFG_TTYP q) != 4 || s.flag (AT_PSTAT_HALT n) then s
  else bif !synced (syncState s n) then seqAim q s
  else if (s.seqOf q).mark < cross then hadcTrigger q (seqAim q s) else s

/-- The end of a timer's period (R193). -/
def execGptPeriodEnd (t : Fin 32) (s : State) : Host.Outcome State Fault Refusal := done (inAngle s (gptPeriod t))

/-- A compare event (R197). -/
def execGptCompareEvent (t : Fin 32) (x : Fin 2) (s : State) : Host.Outcome State Fault Refusal := done (inAngle s (gptCompare t x))

/-- TB reaches TBS of a ring BREW (R203). -/
def execRingBrewStart (s : State) : Host.Outcome State Fault Refusal := done (inAngle s ringBrewStart)

/-- An angle trigger (R212). -/
def execHadcAngleTrigger (q : Fin 4) (s : State) : Host.Outcome State Fault Refusal := done (inAngle s (hadcAngle q))

end Sys2Proof.Machine
end

