-- ==== Sys2Proof/Machine/Ring.lean ====
section
/-! DEFINITION. The carafe: links, frames, the discipline of TB, member states, digest and vote, takeover, handover, release and
bank split (R79 to R81, R370 to R390). -/

namespace Sys2Proof.Machine

open Fields

/-! ### Small parts -/

/-- Change the part of the state that the ring holds. -/
def State.modRing (s : State) (f : Ring → Ring) : State := { s with ring := f s.ring }

/-- This member's number. -/
def memberNo (s : State) : Nat := s.get RING_CFG_MEMB

/-- This member's OREL_N is asserted and honoured: VSUP is at 3.0 V or above (R392). -/
def orelSeen (s : State) : Bool := s.power.orel && Nat.ble 3000 s.power.vsup

/-- RING.STAT.STATE: 0 OFF, 1 LINKUP, 2 SYNCING, 3 STANDBY, 4 ACTIVE, 5 OBSERVER. -/
def ringState (s : State) : Nat := s.get RING_STAT_STATE

/-- OBS reads 1 on the DZ4624-F (R370). -/
def isObserver (s : State) : Bool := s.observer || s.flag RING_CFG_OBS

/-- What this member knows of member `k`. -/
def State.peer (s : State) (k : Nat) : Peer := findAt (fun _ => {}) k s.ring.peers

/-- Replace what this member knows of member `k`. -/
def State.putPeer (s : State) (k : Nat) (v : Peer) : State := s.modRing fun r => { r with peers := putAt k v r.peers }

/-- The members that a slot has been seen of. -/
def members (s : State) : List Nat := s.ring.peers.map (·.1)

/-- STAT.CHG (R377). -/
def ringChg (s : State) : State := s.setb RING_STAT_CHG true

/-- The member takes state `st`; on entering STANDBY it forgets which members have reported ACTIVE (R377). -/
def ringTake_ (st : Nat) (s : State) : State :=
  bif ringState s == st then s
  else
    whenS (st == 3) (fun u => u.modRing fun r =>
        { r with standbyFrames := 0, active := none, peers := r.peers.map fun p => (p.1, { p.2 with sawActive := false }) })
      (ringChg (s.set RING_STAT_STATE st))

/-- TBLK changes, and LINKF shows it (R376, R377). -/
def setLock (b : Bool) (s : State) : State :=
  bif s.flag RING_STAT_TBLK == b then s else (s.setb RING_STAT_TBLK b).setb RING_STAT_LINKF true

/-- The ring master changes (R388, R389). -/
def setMaster (k : Nat) (s : State) : State :=
  bif s.get RING_STAT_MASTER == k then s else ringChg (s.set RING_STAT_MASTER k)

/-- This member becomes ring master with the next boundary (R377, R388). -/
def becomeMaster (s : State) : State :=
  (setMaster (memberNo s) s).modRing fun r => { r with isMaster := true, startAt := s.now / 128 * 128 + 128 }

/-! ### DEGR, status, digest, votes (R380 to R382) -/

/-- DEGR: a shared channel cannot be driven (R380). -/
def ringDegr (s : State) : Bool :=
  someBelow 64 fun c => sharedChan s c &&
    (!outen s c || !ownerRuns s c ||
      (Nat.blt (s.get (SCH_CHCFG_CRL c)) 12 && s.get (CRL_STAT_STATE (s.get (SCH_CHCFG_CRL c))) == loopFault))

/-- STS of this member; DIG is valid while TBLK holds (R373). -/
def ownSts (s : State) : Nat :=
  (ringState s == 4).toNat + 2 * (isObserver s).toNat + 4 * s.perc.hbToggle.toNat + 8 * s.get KTL_STAT_SAFE +
    16 * (coasting s).toNat + 32 * s.get RING_STAT_TBLK + 64 * (ringDegr s).toNat + 128 * s.get RING_STAT_TBLK

/-- Whether digest record `a` comes before `b`: by TB, then by channel (R381). -/
def digBefore (a b : DigRec) : Bool := Nat.blt a.tb b.tb || (a.tb == b.tb && Nat.ble a.chan b.chan)

/-- Put a record in its place. -/
def digInsert (r : DigRec) : List DigRec → List DigRec
  | [] => [r]
  | x :: rest => bif digBefore r x then r :: x :: rest else x :: digInsert r rest

/-- The eight bytes of a digest record (R381). -/
def digBytes (r : DigRec) : List Byte :=
  [BitVec.ofNat 8 r.chan, BitVec.ofNat 8 (r.level.toNat + 2 * r.cut.toNat), 0, 0] ++ wordBytes (BitVec.ofNat 32 r.tb)

/-- DIG that this member writes into frame `b`: the records of frame `b` - 128 (R381). -/
def ownDig (s : State) (b : Nat) : Word :=
  let rs := s.ring.digs.filter fun r => sharedChan s r.chan && Nat.ble b (r.pass + 128) && Nat.blt r.pass b
  bif rs.isEmpty then 0 else crc32c ((rs.foldr digInsert []).flatMap digBytes)

/-- The slots received of frame `b`. -/
def slotsOf (s : State) (b : Nat) : List (Nat × RingSlot) :=
  match s.ring.got.find? fun g => g.b == b with | some g => g.slots | none => []

/-- The slot of member `k` received in frame `b`. -/
def slotOfMember (s : State) (b k : Nat) : Option RingSlot := ((slotsOf s b).find? fun p => p.1 == k).map (·.2)

/-- A vote of this member on member `k` in frame `b` (R373). -/
def voteOn (s : State) (b k : Nat) : Nat :=
  bif k == memberNo s then 3
  else match slotOfMember s (b - 256) k with
    | none => 0
    | some x => bif x.dig == ownDig s (b - 256) then 1 else 2

/-- Whether BRW of frame `b` carries the start `r` (R203, R373). -/
def brwFits (b : Nat) (r : RingStart) : Bool := r.own && Nat.blt b r.tbs && Nat.ble r.tbs (b + 512) && (r.tbs - b) % 128 == 0

/-- BRW of this member in frame `b` (R373, R386). -/
def ownBrw (s : State) (b : Nat) : Nat :=
  match s.ring.starts.find? (brwFits b) with
  | none => 0
  | some r => 128 + 32 * r.kind + 8 * r.target + (r.tbs - b) / 128

/-- The slot that this member writes into frame `b` (R373). -/
def ownSlot (s : State) (b : Nat) : RingSlot :=
  { dig := ownDig s b, sts := BitVec.ofNat 8 (ownSts s),
    vote := BitVec.ofNat 8 (voteOn s b 0 + 4 * voteOn s b 1 + 16 * voteOn s b 2 + 64 * voteOn s b 3),
    brw := BitVec.ofNat 8 (ownBrw s b) }

/-- A slot that its owner has not filled. -/
def emptySlot : RingSlot := { dig := 0, sts := 0, vote := 0, brw := 0 }

/-- The slot that this member has written into frame `b`; both copies of a frame carry the same one (R375). -/
def slotWritten (s : State) (b : Nat) : Option RingSlot := (s.ring.wrote.find? fun p => p.1 == b).map (·.2)

/-- The slots with this member's own written in, which it does from STANDBY on (R374, R377). -/
def fillSlot (s : State) (b : Nat) (slots : List RingSlot) : List RingSlot :=
  bif Nat.blt (ringState s) 3 then slots
  else (List.range 4).map fun k => bif k == memberNo s then (slotWritten s b).getD (ownSlot s b) else slots.getD k emptySlot

/-- The slot that this member writes into frame `b` is kept for the frame's other copy and its close (R375, R377). -/
def slotKeep (b : Nat) (s : State) : State :=
  bif Nat.blt (ringState s) 3 || (slotWritten s b).isSome then s
  else s.modRing fun r => { r with wrote := (b, ownSlot s b) :: r.wrote.take 7 }

/-- Slot `k` is filled by its owner (R375). -/
def filled (k : Nat) (x : RingSlot) : Bool := bitsAt x.vote.toNat (2 * k) 2 == 3

/-- The slots of a frame that are filled. -/
def filledSlots (slots : List RingSlot) : List (Nat × RingSlot) :=
  (List.range 4).filterMap fun k => match slots[k]? with
    | some x => bif filled k x then some (k, x) else none
    | none => none

/-- The lowest member among the slots that reports ACTIVE. -/
def lowestActive (xs : List (Nat × RingSlot)) : Option Nat := (xs.find? fun p => bitAt p.2.sts.toNat 0).map (·.1)

/-! ### Sending frames (R373, R374) -/

/-- STAT.LINK bit `k`: 0 E_IN, 1 W_IN, 2 E_OUT, 3 W_OUT. -/
def linkUp (s : State) (k : Nat) : Bool := bitAt (s.get RING_STAT_LINK) k

/-- A frame leaves on RING_W_OUT (`west`) or RING_E_OUT, where that link is up. -/
def sendFrame (west : Bool) (f : RingFrame) (s : State) : State :=
  bif west then whenS (linkUp s 3) (fun u => u.modRing fun r => { r with outW := some f }) s
  else whenS (linkUp s 2) (fun u => u.modRing fun r => { r with outE := some f }) s

/-- The published values `v` of tracker `n` as a frame carries them (R373). -/
def trkBlock (s : State) (v : Snap) (n : Nat) : TrkBlock :=
  { angle := BitVec.ofNat 24 v.angle, sync := BitVec.ofNat 3 v.sync, dir := v.dir, phv := s.flag (AT_SSTAT_PHV n),
    guarded := v.guarded, rate := BitVec.ofNat 32 v.rate, acc := BitVec.ofInt 16 (clampInt (-32768) 32767 v.acc) }

/-- The tracker block of the frame of boundary `b`: the values published in tk `b` - 1 (R373). -/
def blockOf (s : State) (b n : Nat) : TrkBlock :=
  bif s.ring.edgeTb == b then s.ring.edge.getD n (trkBlock s (snapOf s n) n) else trkBlock s (snapOf s n) n

/-- Frame boundary TB = `b` comes: the values published in the tk before it, in state `u`, are kept for its frame (R373). -/
def boundary (b : Nat) (u s : State) : State :=
  bif b % 128 == 0 then s.modRing fun r => { r with edgeTb := b, edge := (List.range 4).map fun n => trkBlock u (abusNow u n) n }
  else s

/-- One bit of the polynomial 0x1021 (R373). -/
def crc16Bit (c : BitVec 16) : BitVec 16 := bif c.getLsbD 15 then (c <<< (1 : Nat)) ^^^ 0x1021 else c <<< (1 : Nat)

/-- The frame's CRC-16: not reflected, initial value 0xFFFF (R373). -/
def crc16 (bs : List Byte) : BitVec 16 :=
  bs.foldl (fun c b => (List.range 8).foldl (fun x _ => crc16Bit x) (c ^^^ ((b.setWidth 16 : BitVec 16) <<< (8 : Nat)))) 0xFFFF

/-- A number as `n` bytes, least significant first. -/
def leBytes (n v : Nat) : List Byte := (List.range n).map fun i => BitVec.ofNat 8 (v / 256 ^ i)

/-- The ten bytes of a tracker in a frame (R373). -/
def trkBytes (x : TrkBlock) : List Byte :=
  leBytes 4 (x.angle.toNat + 2 ^ 24 * x.sync.toNat + 2 ^ 27 * x.dir.toNat + 2 ^ 28 * x.phv.toNat + 2 ^ 29 * x.guarded.toNat) ++
    leBytes 4 x.rate.toNat ++ leBytes 2 x.acc.toNat

/-- The seven bytes of a member's slot (R373). -/
def slotBytes (x : RingSlot) : List Byte := wordBytes x.dig ++ [x.sts, x.vote, x.brw]

/-- Bytes 1 to 77 of a frame (R373). -/
def frameBody (f : RingFrame) : List Byte :=
  leBytes 2 (f.dly.toNat + 2 ^ 12 * f.turn.toNat + 2 ^ 13 * f.orig.val + 2 ^ 15 * f.westbound.toNat) ++ leBytes 7 f.tbf.toNat ++
    f.trk.flatMap trkBytes ++ f.slots.flatMap slotBytes

/-- The 79 bytes that follow K28.5 in a frame: the body and the CRC (R373). -/
def frameBytes (f : RingFrame) : List Byte := frameBody f ++ leBytes 2 (crc16 (frameBody f)).toNat

/-- The ring master starts the frame of the boundary that has passed 8 tk ago or more, on both links (R374). -/
def frameStart (s : State) : State :=
  let b := (s.now - 8) / 128 * 128
  bif !s.flag RING_CTL_EN || !s.ring.isMaster || Nat.blt s.now 8 || Nat.blt b s.ring.startAt then s
  else
    let f (west : Bool) : RingFrame :=
      { westbound := west, orig := Fin.ofNat 4 (memberNo s), turn := false, dly := 0, tbf := BitVec.ofNat 56 (b / 128),
        trk := (List.range 4).map (blockOf s b), slots := fillSlot s b [emptySlot, emptySlot, emptySlot, emptySlot], crcOk := true,
        arrival := 32 * s.now }
    (sendFrame true (f true) (sendFrame false (f false) (slotKeep b s))).modRing fun r => { r with startAt := b + 128 }

/-- A frame goes on 24 tk after it arrived, with this member's slot and the delay added; where the ring ends here it turns back
(R374). -/
def forward (link : RingDir) (f : RingFrame) (s0 : State) : State :=
  let b := f.tbf.toNat * 128
  let s := slotKeep b s0
  let d := s.get (bif link == .east then RING_LDLY_EDLY else RING_LDLY_WDLY)
  let g := { f with slots := fillSlot s b f.slots, dly := f.dly + BitVec.ofNat 12 (d + 768), arrival := f.arrival + 768 }
  let out := bif f.westbound then 3 else 2
  let inOther := bif f.westbound then 1 else 0
  bif linkUp s out then sendFrame f.westbound g s
  else bif linkUp s inOther then s
  else
    let west := !f.westbound
    bif linkUp s (bif west then 3 else 2) then
      sendFrame west { g with westbound := west, turn := true } (s.tally RING_TALLY1_TURNCNT)
    else s

/-! ### Links (R372) -/

/-- The bit of STAT.LINK that shows a link. -/
def linkBit : Sys2Proof.RingLink → Nat
  | .eIn => 0
  | .wIn => 1
  | .eOut => 2
  | .wOut => 3

/-- A link is down: an inbound one no longer receives, an outbound one is no longer acknowledged (R372). -/
def linkDown (link : RingLink) (s : State) : State :=
  bif !linkUp s (linkBit link) then s
  else
    let s1 := (s.set RING_STAT_LINK (putBits (s.get RING_STAT_LINK) (linkBit link) 1 0)).setb RING_STAT_LINKF true
    s1.modRing fun r => match link with
      | .eIn => { r with badE := 0 }
      | .wIn => { r with badW := 0 }
      | _ => r

/-- The measured delay of a link goes into LDLY: half the round trip to the neighbour, which both links of a pair share (R372). -/
def linkDelay (link : RingLink) (delay : Nat) (s : State) : State :=
  s.set (bif link == .eIn || link == .eOut then RING_LDLY_EDLY else RING_LDLY_WDLY) delay

/-- A link has trained, and its delay is measured; the first inbound one takes LINKUP to SYNCING (R372, R377). -/
def linkTrained (link : RingLink) (delay : Nat) (s : State) : State :=
  bif !s.flag RING_CTL_EN then s
  else
    let s1 := (s.set RING_STAT_LINK (putBits (s.get RING_STAT_LINK) (linkBit link) 1 1)).setb RING_STAT_LINKF true
    let s2 := linkDelay link delay s1
    bif ringState s2 == 1 && Nat.blt (linkBit link) 2 then
      (ringTake_ 2 s2).modRing fun r => { r with noMaster := 0, heard := false, good := 0, bad := 0, closeAt := s.now / 128 * 128 }
    else s2

/-- A frame with a CRC or code error is discarded; the fourth in a row takes the link down (R372, R374). -/
def badFrame (link : RingDir) (s : State) : State :=
  let s1 := s.tally RING_TALLY0_CRCCNT
  let n := (bif link == .east then s1.ring.badE else s1.ring.badW) + 1
  bif Nat.ble 4 n then linkDown (bif link == .east then .eIn else .wIn) s1
  else s1.modRing fun r => bif link == .east then { r with badE := n } else { r with badW := n }

/-! ### Trackers (R79 to R81, R390) -/

/-- `b` agrees with the frame before it: the angle within 1024 au of where the rate carries it in 128 tk, modulo the cycle of length `l`,
or the revolution in which a SYNC360 frame gives its position (R62, R80). -/
def frameFollows (l : Nat) (a b : AdoptFrame) : Bool :=
  let m := (bif a.sync == 3 || b.sync == 3 then 2 ^ 23 else l) * 2 ^ 24
  let ahead := (a.angle * 2 ^ 24 : Nat) + dirStep a.dir * (a.rate * 128 : Nat)
  a.dir == b.dir && b.tb == a.tb + 128 && decide ((sdiff m ahead (b.angle * 2 ^ 24 : Nat)).natAbs ≤ 1024 * 2 ^ 24)

/-- The frame has a state that can be adopted (R80). -/
def usable (a : AdoptFrame) : Bool := synced a.sync

/-- The distance from entry `i` to `x` in the direction of rotation, modulo the span of the wheel. -/
def behindBy (s : State) (n : Nat) (w : Wheel) (rev : Bool) (x : Int) (i : Nat) : Nat :=
  (dirStep rev * (x - thetaC s n w i) % (w.span : Int)).toNat

/-- The last entry at or behind angle `x` (R80). -/
def entryBehind (s : State) (n : Nat) (w : Wheel) (rev : Bool) (x : Int) : Nat :=
  (List.range w.cnt).foldl (fun e i => bif Nat.blt (behindBy s n w rev x i) (behindBy s n w rev x e) then i else e) 0

/-- Tracker `n` adopts the position of frame `a` (R80, R94); a saturation of TCNT that lies behind stalls it no more (R76, R81). The last entry at or behind the angle is found among all
entries of the wheel, so that an uncorrectable one takes LOST (R44). -/
def adoptNow (n : Nat) (a : AdoptFrame) (s : State) : State :=
  bif wheelBad s (activeWheel s n) then toothEccLoss n s
  else
  let s1 := ((s.set (AT_RATE_RATE n) a.rate).setb (AT_SSTAT_DIR n) a.dir).setb (AT_SSTAT_PHV n) (a.sync == 4)
  let s2 := markChange n ((enterState n a.sync 0 s1).setb (AT_SSTAT_ADOPTED n) true) |>.set (AT_PSTAT_GRCNT n) 0
  let guarded := nextMode s2 n a.rate 0
  let w := activeWheel s2 n
  let m := phaseMod s2 n
  let ph := ((a.angle * 2 ^ 24 : Nat) + dirStep a.dir * (a.rate * (s.now - a.tb) : Nat)) % (m : Int)
  let x := ph / 2 ^ 24
  let e := entryBehind s2 n w a.dir x
  let past := behindBy s2 n w a.dir x e
  let g := gapAhead s2 n w a.dir e
  let g2 := gapAhead s2 n w a.dir (e + dirStep a.dir)
  let back := gapAhead s2 n w a.dir (e - dirStep a.dir)
  let p := satDiv (back * 2 ^ 24) a.rate
  let ts := s.now - satDiv (past * 2 ^ 24) a.rate
  let s3 := (s2.setb (AT_PSTAT_MODE n) guarded).set (AT_SSTAT_ENTRY n) e
  let k := s3.trk n
  let s4 := s3.putTrk n
    { k with phase := ph.toNat, phaseTb := s.now, catchup := none, togo := ((g - past) * 2 ^ 24 : Nat),
             haltAt := some ((g - past + bif guarded then 0 else g2) * 2 ^ 24), lastTs := ts, ratios := [], adopt := [], adoptLeft := 4,
             suspect := none, window := [], revCount := 0, lastValid := false, satPast := Nat.ble (k.lastPop + 0xFFFFFFFF) s.now }
  openSegment n e ts p (expectedPeriod p g back 0) true s4

/-- A frame of the master as tracker `n` watches it (R79, R80): three consistent ones are adopted; a candidate that the finder has
found in the same tk is discarded. -/
def adoptWatch (n b : Nat) (f : TrkBlock) (s : State) : State :=
  let st := syncState s n
  bif !(s.flag (AT_CTL_EN n) && s.flag (AT_SCFG_ADOPT n) && (finding st || (st == 1 && (s.trk n).candTb == some s.now))) then s.modTrk n fun k => { k with adopt := [] }
  else
    let a : AdoptFrame := { angle := f.angle.toNat, rate := f.rate.toNat, dir := f.dir, sync := f.sync.toNat, tb := b }
    let last := (s.trk n).adopt.filter fun x => x.tb != b
    let m := cycleLen s n
    bif !usable a then s.modTrk n fun k => { k with adopt := [] }
    else match last with
      | [x, y] =>
        bif !frameFollows m y a then s.modTrk n fun k => { k with adopt := [a] }
        else bif frameFollows m x y then adoptNow n a s
        else s.modTrk n fun k => { k with adopt := [y, a] }
      | [y] => s.modTrk n fun k => { k with adopt := bif frameFollows m y a then [y, a] else [a] }
      | _ => s.modTrk n fun k => { k with adopt := [a] }

/-- Tracker `n` follows the master in bank split (R390). -/
def followFrame (n b : Nat) (f : TrkBlock) (s0 : State) : State :=
  let s := bif (s0.ring.follows.any fun p => p.1 == n) then s0
    else s0.modRing fun r => { r with follows := putAt n (ownView s0 n) r.follows }
  let was := syncState s n
  let now_ := f.sync.toNat
  let rate := f.rate.toNat
  let s1 := trackerSync n s
  let turned := f.dir != s.flag (AT_SSTAT_DIR n)
  let s2 := whenS (was != now_ || turned) (·.setb (AT_SSTAT_CHG n) true) s1
  let s3 := (s2.set (AT_SSTAT_STATE n) now_).setb (AT_SSTAT_DIR n) f.dir |>.setb (AT_SSTAT_PHV n) f.phv
    |>.setb (AT_PSTAT_MODE n) f.guarded |>.set (AT_RATE_RATE n) rate |> showAcc n (signedOf 16 f.acc.toNat)
  let s4 := whenS (was == 4 && (now_ != 4 || turned)) (windowsLost n) s3
  let m := phaseMod s4 n
  let k := s4.trk n
  let aim := ((f.angle.toNat * 2 ^ 24 : Nat) + dirStep f.dir * (rate * (s.now - b) : Nat) : Int) % (m : Int)
  let ahead := dirStep f.dir * sdiff m k.phase aim
  bif finding was || finding now_ then
    s4.putTrk n { k with phase := aim.toNat, phaseTb := s.now, haltAt := none, catchup := none }
  else if 0 ≤ ahead then
    whenS (decide (0 < ahead)) (·.setb (AT_CFLT_JUMP n) true)
      (s4.putTrk n ({ k with haltAt := none, catchup := none }.shift f.dir m ahead.toNat))
  else s4.putTrk n { k with haltAt := none, catchup := some { lead := ahead, ts := s.now, rate := rate, factor := 1 } }

/-- Tracker `n` publishes its own tracking `v` again: a change of STATE or DIR sets CHG, and open pressure windows are discarded where
the tracker leaves SYNC720 or its direction turns (R82, R175, R390). -/
def publishOwn (n : Nat) (v : Follow) (s : State) : State :=
  let turned := v.dir != s.get (AT_SSTAT_DIR n)
  let lost := syncState s n == 4 && (v.state != 4 || turned)
  whenS lost (windowsLost n) (whenS (v.state != syncState s n || turned) (·.setb (AT_SSTAT_CHG n) true) (showView n v s))

/-- The trackers that follow publish their own tracking again (R390). -/
def unfollow (s : State) : State :=
  (s.ring.follows.foldl (fun u p => publishOwn p.1 p.2 u) s).modRing fun r => { r with follows := [] }

/-- The trackers take a frame of the master. -/
def trackersTake (b : Nat) (f : RingFrame) (s : State) : State :=
  upTo 4 (fun n u =>
    match f.trk[n]? with
    | none => u
    | some x =>
      bif u.flag RING_CFG_MODE && bitAt (u.get RING_CFG_FOLLOW) n then followFrame n b x u
      else ownTracking n (adoptWatch n b x) u) s

/-! ### The discipline of TB (R376) -/

/-- TBLK takes SYNCING to the state that this member is for (R377). -/
def afterSync (s : State) : State :=
  bif ringState s != 2 || !s.flag RING_STAT_TBLK then s
  else bif isObserver s then ringTake_ 5 s
  else bif s.flag RING_CFG_MODE then (ringTake_ 4 s).modRing fun r => { r with driveTb := s.now }
  else ringTake_ 3 s

/-- The error of a frame's arrival, in 1/32 tk (R376). -/
def tbError (link : RingDir) (f : RingFrame) (s : State) : Int :=
  let d := s.get (bif link == .east then RING_LDLY_EDLY else RING_LDLY_WDLY)
  (f.arrival : Int) - ((f.tbf.toNat * 128 + 8) * 32 + f.dly.toNat + d : Nat)

/-- A frame of the master disciplines TB: in SYNCING a step removes an error beyond 1 tk, else the phase is steered by at most
1/32 tk (R376). -/
def discipline (link : RingDir) (f : RingFrame) (s : State) : State :=
  let e := tbError link f s
  let s1 := s.seti RING_TBERR_ERR (clampInt (-32768) 32767 e)
  let near := decide (e.natAbs ≤ 32)
  let s2 := s1.modRing fun r =>
    bif near then { r with good := min 16 (r.good + 1), bad := 0 } else { r with good := 0, bad := min 4 (r.bad + 1) }
  bif !near && ringState s == 2 then
    let t := stepTb (-(rnd e 32)) (s2.setb RING_TBERR_STEP true)
    t.modRing fun r => { r with closeAt := f.tbf.toNat * 128 }
  else
    let s3 := s2.modRing fun r => { r with steer := r.steer - (bif decide (0 < e) then 1 else bif decide (e < 0) then (-1 : Int) else 0) }
    bif near && s3.ring.good == 16 then afterSync (setLock true s3)
    else bif !near && s3.ring.bad == 4 then setLock false s3 else s3

/-! ### Masters (R388, R389) -/

/-- Whether the master of the frames with ACTIVE slot `a` keeps the role against that with `b` (R389). -/
def keepsRole (a : Option Nat) (m : Nat) (b : Option Nat) (n : Nat) : Bool :=
  match a, b with
  | some _, none => true
  | none, some _ => false
  | some x, some y => Nat.blt x y || (x == y && Nat.blt m n)
  | none, none => Nat.blt m n

/-- The lower of two member numbers that may be absent. -/
def lowerOf (a b : Option Nat) : Option Nat :=
  match a, b with
  | some x, some y => some (min x y)
  | some x, none => some x
  | none, y => y

/-- The ACTIVE slot that the frames of the master this member knows carry. -/
def knownActive (s : State) : Option Nat :=
  bif s.ring.isMaster then lowerOf (bif ringState s == 4 then some (memberNo s) else none) s.ring.lastAct else s.ring.lastAct

/-- The member is in SYNCING again, to be stepped onto the master that keeps the role; an ACTIVE one first returns to STANDBY
(R389). -/
def resync (s : State) : State :=
  let s1 := setLock false (ringTake_ 2 (bif ringState s == 4 then ringTake_ 3 s else s))
  s1.modRing fun r => { r with good := 0, bad := 0 }

/-- A frame of the master that keeps the role since a merge, on a member that has not been near it yet: one that is not ACTIVE and whose
TBERR exceeds 1 tk goes back to SYNCING, to be stepped (R389). -/
def mergeCheck (far : Bool) (s : State) : State :=
  bif !s.ring.merged then s
  else bif !far then s.modRing fun r => { r with merged := false }
  else bif ringState s == 4 then s
  else resync (s.modRing fun r => { r with merged := false })

/-- A frame that another master started: true when this member takes it as its master's (R377, R389). -/
def mergeMaster (link : RingDir) (f : RingFrame) (s : State) : Bool × State :=
  let o : Nat := f.orig
  let act := lowestActive (filledSlots f.slots)
  let wins := !keepsRole (knownActive s) (s.get RING_STAT_MASTER) act o
  let check (u : State) : State := mergeCheck (decide (32 < (tbError link f u).natAbs)) u
  bif s.ring.isMaster then
    bif wins then (true, resync (setMaster o (s.modRing fun r => { r with isMaster := false }))) else (false, s)
  else bif s.get RING_STAT_MASTER == o then (true, check s)
  else bif ringState s == 2 then (true, setMaster o s)
  else bif wins || Nat.ble 3 s.ring.noMaster then (true, check ((setMaster o s).modRing fun r => { r with merged := true }))
  else (false, s)

/-! ### Receiving a frame (R374) -/

/-- The slots of a frame are kept until its close; the BRW of each is taken (R203, R375, R386). -/
def takeSlots (b : Nat) (xs : List (Nat × RingSlot)) (s : State) : State :=
  let old := slotsOf s b
  let all := old ++ xs.filter fun p => !old.any fun q => q.1 == p.1
  let s1 := s.modRing fun r =>
    { r with got := (r.got.filter fun g => g.b != b && Nat.blt b (g.b + 1024)) ++ [{ b := b, slots := all }] }
  xs.foldl (fun u p =>
    let v := p.2.brw.toNat
    let n := bitsAt v 0 3
    let kind := bitsAt v 5 2
    let tbs := b + 128 * n
    bif bitAt v 7 && p.1 != memberNo u && Nat.ble 1 n && Nat.ble n 4 && Nat.blt kind 3 && Nat.blt u.now tbs &&
        !(u.ring.starts.any fun r => r.kind == kind && r.tbs == tbs) then
      u.modRing fun r => { r with starts := r.starts ++ [{ kind := kind, target := bitsAt v 3 2, tbs := tbs, own := false, job := 0 }] }
    else u) s1

/-- A frame arrives (R374, R376, R389, R390). -/
def frameReceive (link : RingDir) (f : RingFrame) (s : State) : State :=
  bif !s.flag RING_CTL_EN || !linkUp s (bif link == .east then 0 else 1) || Nat.blt (ringState s) 2 then s
  else bif !f.crcOk then badFrame link s
  else
    let b := f.tbf.toNat * 128
    let s1 := s.modRing fun r => bif link == .east then { r with badE := 0 } else { r with badW := 0 }
    let xs := filledSlots f.slots
    bif f.orig == Fin.ofNat 4 (memberNo s) then
      bif s.ring.isMaster then
        (takeSlots b xs s1).modRing fun r => { r with lastAct := lowestActive (xs.filter fun p => p.1 != memberNo s) }
      else s1
    else
      let (mine, s2) := mergeMaster link f s1
      bif !mine then (bif s2.ring.isMaster then s2 else forward link f s2)
      else
        let again := s2.ring.framed == some (f.orig.val, b)
        let s3 := (takeSlots b xs s2).modRing fun r => { r with heard := true, lastAct := lowestActive xs, framed := some (f.orig.val, b) }
        let s4 := bif again then s3 else trackersTake b f (discipline link f s3)
        forward link f s4

/-! ### The close of a frame (R375, R377, R382, R383, R387) -/

/-- A valid slot of frame `b` whose DIG is valid, this member's own included. -/
def validDigs (s : State) (b : Nat) : List (Nat × Word) :=
  (((slotsOf s b).filter fun p => p.1 != memberNo s && bitAt p.2.sts.toNat 7).map fun p => (p.1, p.2.dig)) ++
    (bif Nat.ble 3 (ringState s) && s.flag RING_STAT_TBLK then [(memberNo s, ownDig s b)] else [])

/-- How many members hold the value `v`. -/
def holders (xs : List (Nat × Word)) (v : Word) : Nat := (xs.filter fun p => p.2 == v).length

/-- The majority of the digests (R382). -/
def majority (xs : List (Nat × Word)) : Option Word :=
  (xs.find? fun p => Nat.ble 2 (holders xs p.2) && xs.all fun q => q.2 == p.2 || Nat.blt (holders xs q.2) (holders xs p.2)).map (·.2)

/-- Member `k` at the close of frame `b`, of which it sent slot `x`; `third` says that a third member showed no data of it
(R373, R375, R382, R383, R387). -/
def peerClose (s : State) (b k : Nat) (x : RingSlot) (maj : Option Word) (third : Bool) (p : Peer) : Peer :=
  let sts := x.sts.toNat
  let out := bitAt sts 7 && (match maj with | some v => x.dig != v | none => false)
  let active := bitAt sts 0
  let agree := bif (members s).length == 2 then
      (match s.ring.active with
        | some a => (bif a == memberNo s then some (ownDig s b) else (slotOfMember s b a).map (·.dig)) == some x.dig
        | none => false)
    else maj == some x.dig
  { p with
    missed := 0
    sts := x.sts
    outvoted := bif out then p.outvoted + 1 else 0
    sinceOutvoted := bif out then 0 else min 16 (p.sinceOutvoted + 1)
    armed := active && (p.armed || !bitAt sts 6)
    degr := bif active && bitAt sts 6 && p.armed then p.degr + 1 else 0
    goodFrames := bif bitAt (s.get RING_OREL_ASSERT) k && bitAt sts 5 && agree then p.goodFrames + 1 else 0
    sawActive := p.sawActive || active
    hbtTb := bif bitAt sts 2 != bitAt p.sts.toNat 2 || !(members s).contains k then s.time else p.hbtTb
    noData := bif third then p.noData + 1 else 0 }

/-- A third member's slot in frame `b` shows no data of member `k` (R383). -/
def thirdSees (s : State) (b k : Nat) : Bool :=
  (slotsOf s b).any fun p => p.1 != k && p.1 != memberNo s && bitsAt p.2.vote.toNat (2 * k) 2 == 0

/-- One peer at the close of frame `b` (R375). -/
def closePeer (b k : Nat) (maj : Option Word) (s : State) : State :=
  bif k == memberNo s then s
  else
    let third := thirdSees s b k
    match slotOfMember s b k with
    | some x => s.putPeer k (peerClose s b k x maj third (s.peer k))
    | none =>
      let p := s.peer k
      bif (members s).contains k then
        (whenS (p.missed == 2) (fun u => u.setb RING_STAT_LOSTF true) (s.tally RING_TALLY0_MISSCNT)).putPeer k
          { p with missed := min 3 (p.missed + 1), goodFrames := 0, noData := bif third then p.noData + 1 else 0,
                   outvoted := 0, degr := 0, sinceOutvoted := min 16 (p.sinceOutvoted + 1) }
      else s

/-- This member's own entry at the close: what it has written into the frame, where it has. -/
def closeSelf (b : Nat) (maj : Option Word) (s : State) : State :=
  let me := memberNo s
  let p := s.peer me
  let out := s.flag RING_STAT_TBLK && (match maj with | some v => ownDig s b != v | none => false)
  bif Nat.blt (ringState s) 3 then s
  else s.putPeer me
    { p with missed := 0, sts := ((slotWritten s b).map (·.sts)).getD (BitVec.ofNat 8 (ownSts s)), outvoted := bif out then p.outvoted + 1 else 0,
             sinceOutvoted := bif out then 0 else min 16 (p.sinceOutvoted + 1), sawActive := p.sawActive || ringState s == 4 }

/-- Member `k` is seen: not lost. -/
def seen (s : State) (k : Nat) : Bool := Nat.blt (s.peer k).missed 3

/-- The votes of the frame (R382). -/
def closeVotes (xs : List (Nat × Word)) (s : State) : State :=
  let differ := match xs with | [] => false | p :: rest => rest.any fun q => q.2 != p.2
  whenS differ (fun u => (u.setb RING_STAT_MMF true).tally RING_TALLY1_MMCNT) s

/-- ROLE of member `k` (R377). -/
def roleOf (s : State) (k : Nat) : Nat :=
  bif !seen s k then 0
  else
    let sts := (s.peer k).sts.toNat
    bif bitAt sts 1 then 3 else bif bitAt sts 0 then 2 else 1

/-- SEEN, ROLES, ACTV and ACTMEM after the slots of frame `b` (R375, R377). -/
def closeRoles (b : Nat) (s : State) : State :=
  let me := memberNo s
  let inFrame (k : Nat) : Bool := bif k == me then Nat.ble 3 (ringState s) else (slotOfMember s b k).isSome
  let seenBits := (List.range 4).foldl (fun a k => a + (inFrame k).toNat * 2 ^ k) 0
  let roles := (List.range 4).foldl (fun a k => a + roleOf s k * 4 ^ k) 0
  let act := (List.range 4).find? fun k => inFrame k && bitAt (s.peer k).sts.toNat 0
  let s1 := whenS (seenBits != s.get RING_STAT_SEEN || roles != s.get RING_ROLES_ROLES) ringChg s
  let s2 := (s1.set RING_STAT_SEEN seenBits).set RING_ROLES_ROLES roles
  match act with
  | some a => ((s2.setb RING_STAT_ACTV true).set RING_STAT_ACTMEM a).modRing fun r => { r with active := some a }
  | none => (s2.setb RING_STAT_ACTV false).modRing fun r => { r with active := r.active.filter fun a => !inFrame a }

/-- Member `k` is eligible; this one is judged by its own state (R377). -/
def eligible (s : State) (k : Nat) : Bool :=
  let p := s.peer k
  bif k == memberNo s then
    ringState s == 3 && s.flag RING_STAT_TBLK && !ringDegr s && !orelSeen s && s.flag RING_CFG_TKEN && p.sinceOutvoted == 16
  else seen s k && bitAt p.sts.toNat 5 && !bitAt p.sts.toNat 0 && !bitAt p.sts.toNat 1 && !bitAt p.sts.toNat 6 && p.sinceOutvoted == 16

/-- This member is the lowest-numbered eligible one. -/
def lowestEligible (s : State) : Bool := eligible s (memberNo s) && !someBelow (memberNo s) (eligible s)

/-- A takeover condition holds for member `x` (R383). -/
def takeoverFor (s : State) (x : Nat) : Bool :=
  let p := s.peer x
  let lost := p.missed == 3 && (Nat.ble (members s).length 2 || Nat.ble 3 p.noData)
  x != memberNo s && (lost || Nat.ble (s.get RING_CFG_MVOTE) p.outvoted || Nat.ble 2 p.degr)

/-- The member last known ACTIVE, where a takeover condition holds for it (R383). -/
def takeoverHolds (s : State) : Option Nat := s.ring.active.filter (takeoverFor s)

/-- RING.OREL asserts or releases the outputs of the other members (R384, R387). -/
def orelPut (v : Nat) (s : State) : State :=
  let fresh := v &&& (15 ^^^ s.get RING_OREL_ASSERT)
  (s.set RING_OREL_ASSERT v).modRing fun r =>
    { r with peers := r.peers.map fun p => bif bitAt fresh p.1 then (p.1, { p.2 with goodFrames := 0 }) else p }

/-- The handovers whose TBS falls in the frame under way give way to a takeover (R385, R386). -/
def handoversLost (s : State) : State :=
  let b := s.now / 128 * 128
  let due (r : RingStart) : Bool := r.kind == 2 && Nat.ble b r.tbs && Nat.blt r.tbs (b + 128)
  (((s.ring.starts ++ s.ring.handing).filter due).foldl (fun u r => endJob r.job 0x0222 r.target u) s).modRing fun g =>
    { g with starts := g.starts.filter (fun r => !due r), handing := g.handing.filter fun r => !due r }

/-- The target of a handover drives: this member, once no takeover can fall in the frame of TBS, or another one of a ring that is off; or TB
has started anew (R264, R385, R386). -/
def handoversDone (s : State) : State :=
  let there (r : RingStart) : Bool :=
    ((r.target == memberNo s || Nat.blt (ringState s) 3) && Nat.ble (r.tbs + 128) s.now) || Nat.blt s.now r.tbs
  bif s.ring.handing.isEmpty then s
  else ((s.ring.handing.filter there).foldl (fun u r => endJob r.job 0 0 u) s).modRing fun g =>
    { g with handing := g.handing.filter fun r => !there r }

/-- Frame `b` shows whether the target of an earlier handover drives, or another member that has taken the lines from it (R264, R385). -/
def handoversSeen (b : Nat) (s : State) : State :=
  let shown (r : RingStart) : Bool := r.target != memberNo s && Nat.ble (r.tbs + 128) b
  let fit (r : RingStart) : Bool := !s.flag RING_STAT_ACTV || s.get RING_STAT_ACTMEM == r.target
  bif s.ring.handing.isEmpty then s
  else ((s.ring.handing.filter shown).foldl (fun u r => bif fit r then endJob r.job 0 0 u else endJob r.job 0x0222 r.target u) s).modRing fun g =>
    { g with handing := g.handing.filter fun r => !shown r }

/-- This member takes the shared lines from member `x`: ORELDx_N in 2 tk, the lines 8 tk later (R384). -/
def takeLines (x : Nat) (s : State) : State :=
  let s1 := orelPut (s.get RING_OREL_ASSERT ||| 2 ^ x) s
  let s2 := ((ringTake_ 4 s1).setb RING_STAT_TKOVR true).tally RING_TALLY1_TKCNT
  handoversLost (s2.modRing fun r => { r with driveTb := s.now + 10, taken := some x, active := some (memberNo s) })

/-- A member that a handover has made ACTIVE in the frame under way finds a takeover condition for the one before it: the takeover stands,
by this member or by a lower-numbered one (R385). -/
def handedCheck (s : State) : Option (Nat × Bool) :=
  match s.ring.handed with
  | some (tbs, some x) =>
    bif Nat.blt s.now (tbs + 128) && s.flag RING_CFG_TKEN && takeoverFor s x then some (x, !someBelow (memberNo s) (eligible s)) else none
  | _ => none

/-- The changes of state at the close of frame `b` in active/standby mode (R377): two members report ACTIVE in one frame where the slots
that both have written into it say so. -/
def closeState (b : Nat) (s0 : State) : State :=
  let s := whenS ((takeoverHolds s0).isSome && s0.flag RING_CFG_TKEN && !s0.flag RING_CFG_MODE) handoversLost s0
  let me := memberNo s
  bif ringState s == 3 then
    let s1 := s.modRing fun r => { r with standbyFrames := r.standbyFrames + 1 }
    let none_ := !(s1.ring.peers.any fun p => p.2.sawActive)
    bif s1.flag RING_CFG_MODE then s1
    else bif none_ && Nat.ble 3 s1.ring.standbyFrames && lowestEligible s1 then
      (ringTake_ 4 s1).modRing fun r => { r with driveTb := s.now, active := some me }
    else match takeoverHolds s1 with
      | some x => bif s1.flag RING_CFG_TKEN && lowestEligible s1 then takeLines x s1 else s1
      | none => s1
  else bif ringState s == 4 && !s.flag RING_CFG_MODE then
    let said := match slotWritten s b with | some x => bitAt x.sts.toNat 0 | none => false
    bif said && s.flag RING_STAT_ACTV && Nat.blt (s.get RING_STAT_ACTMEM) me then
      let s1 := ringTake_ 3 s
      match s1.ring.taken with
      | some x => (orelPut (putBits (s1.get RING_OREL_ASSERT) x 1 0) s1).modRing fun r => { r with taken := none }
      | none => s1
    else match handedCheck s with
      | some (x, mine) => bif mine then takeLines x s else ringTake_ 3 (handoversLost s)
      | none => s
  else s

/-- The release of rejoined members after 1024 good frames (R387). -/
def autoRelease (s : State) : State :=
  bif !s.flag RING_CFG_AUTOREL then s
  else upTo 4 (fun k u => whenS (bitAt (u.get RING_OREL_ASSERT) k && Nat.ble 1024 (u.peer k).goodFrames)
    (fun v => orelPut (putBits (v.get RING_OREL_ASSERT) k 1 0) v) u) s

/-- The ring master after a frame was closed without one of its frames: in SYNCING after 3 frames without one, later once its slots are
missed too (R375, R377, R388). Trackers that follow it publish their own tracking again (R390). -/
def closeMaster (s0 : State) : State :=
  let s := s0.modRing fun r => { r with noMaster := bif r.heard then 0 else r.noMaster + 1, heard := false }
  bif s.ring.isMaster then afterSync s
  else
    let n := s.ring.noMaster
    let lowest := !someBelow (memberNo s) (seen s)
    bif ringState s == 2 then
      let s1 := whenS (Nat.ble 3 n) unfollow s
      bif Nat.ble (bif s.flag RING_CFG_MSTR then 1 else 3) n && lowest then afterSync (setLock true (becomeMaster s1)) else s1
    else bif Nat.ble 3 ((ringState s)) && Nat.ble 3 n && !seen s (s.get RING_STAT_MASTER) then
      let s1 := unfollow s
      bif lowest then becomeMaster s1 else s1
    else s

/-- The close of frame `b` (R375). -/
def closeFrame (b : Nat) (s : State) : State :=
  let xs := validDigs s b
  let maj := majority xs
  let s1 := closeSelf b maj (upTo 4 (fun k u => closePeer b k maj u) s)
  let s2 := closeRoles b (closeVotes xs s1)
  let s3 := closeMaster (autoRelease (closeState b (handoversSeen b s2)))
  s3.modRing fun r => { r with closeAt := b + 128 }

/-- The oldest frame that is not closed is closed once 320 tk have passed since its boundary (R375). -/
def frameClose (s : State) : State :=
  let b := s.ring.closeAt
  bif !s.flag RING_CTL_EN || Nat.blt (ringState s) 2 || Nat.blt s.now (b + 320) then s else closeFrame b s

/-! ### Enable, handover, ring starts, OREL_N (R125, R377, R384, R386) -/

/-- RING.CTL.EN is set (R377). -/
def ringEnable (s : State) : State :=
  bif !s.counts.carafe || s.flag RING_CTL_EN then s
  else (ringTake_ 1 (s.setb RING_CTL_EN true)).modRing fun r =>
    { starts := r.starts, handing := r.handing, digs := r.digs, closeAt := s.now / 128 * 128 }

/-- RING.CTL.EN is cleared: refused while ACTIVE in active/standby mode (R377). -/
def ringDisable (s : State) : State :=
  bif !s.flag RING_CTL_EN then s
  else bif ringState s == 4 && !s.flag RING_CFG_MODE then s.setb RING_ERRINFO_PARAM true
  else
    let down (u : State) : State := linkDown .wOut (linkDown .eOut (linkDown .wIn (linkDown .eIn u)))
    let s1 := ringTake_ 0 (setLock false (down (unfollow (s.setb RING_CTL_EN false))))
    (((s1.set RING_STAT_SEEN 0).set RING_ROLES_ROLES 0).setb RING_STAT_ACTV false).modRing fun r =>
      { starts := r.starts, handing := r.handing, digs := r.digs }

/-- TBS of a handover (R385, R386). -/
def handover (s : State) : State :=
  (ringDue s 2).foldl (fun u r =>
    let ok := eligible u r.target && !(r.target == memberNo u && isObserver u)
    let v := u.modRing fun g => { g with handing := bif r.job == 0 then g.handing else g.handing ++ [r] }
    bif !ok then endJob r.job 0x0222 r.target u
    else bif r.target == memberNo v then
      (ringTake_ 4 v).modRing fun g => { g with driveTb := r.tbs + 8, active := some r.target, handed := some (r.tbs, v.ring.active) }
    else bif ringState v == 4 then (ringTake_ 3 v).modRing fun g => { g with active := some r.target }
    else v) (ringTake 2 s)

/-- TBS of a ring UBANK: UBREQ on the sequencers of UBMSK (R264, R386). -/
def ringUbank (s : State) : State :=
  bif (ringDue s 1).isEmpty then s
  else upTo 8 (fun n u => whenS (bitAt (u.get RING_UBMSK_ESQ) n) (esqUbreq n) u) (ringTake 1 s)

/-- A write of RING.OREL; the member's own bit is reserved (R387). -/
def orelWrite (v : Nat) (s : State) : State :=
  bif !s.counts.carafe then s
  else bif bitAt v (memberNo s) then s.setb RING_ERRINFO_PARAM true else orelPut v s

/-- OREL_N falls: every TO and gate pin is at high impedance, and an ACTIVE member returns to STANDBY (R125, R377). Below 3.0 V of VSUP it is
not honoured (R392). -/
def orelAssert (s : State) : State :=
  let s1 : State := { s with power := { s.power with orel := true } }
  bif Nat.blt s.power.vsup 3000 then s1 else
  let s2 := whenS (!s.power.orel) (fun u => u.setb RING_STAT_ORELF true) (s1.setb RING_STAT_OREL true)
  bif ringState s2 == 4 then ringTake_ 3 s2 else s2

/-- OREL_N rises (R125, R425). -/
def orelRelease (s : State) : State :=
  State.setb { s with power := { s.power with orel := false } } RING_STAT_OREL false

/-! ### The commands -/

/-- RING.CTL.EN set (R377). -/
def execRingEnable (s : State) : Host.Outcome State Fault Refusal := done (inAngle s ringEnable)

/-- RING.CTL.EN cleared (R377). -/
def execRingDisable (s : State) : Host.Outcome State Fault Refusal := done (inAngle s ringDisable)

/-- A link has trained (R372). -/
def execLinkTrained (link : RingLink) (delay : BitVec 12) (s : State) : Host.Outcome State Fault Refusal :=
  done (inAngle s (linkTrained link delay.toNat))

/-- A link is down (R372). -/
def execLinkDown (link : RingLink) (s : State) : Host.Outcome State Fault Refusal := done (inAngle s (linkDown link))

/-- The master starts a frame (R374). -/
def execRingFrameStart (s : State) : Host.Outcome State Fault Refusal := done (inAngle s frameStart)

/-- A frame arrives (R374). -/
def execRingFrameReceive (link : RingDir) (frame : RingFrame) (s : State) : Host.Outcome State Fault Refusal :=
  done (inAngle s (frameReceive link frame))

/-- A frame is closed (R375). -/
def execFrameClose (s : State) : Host.Outcome State Fault Refusal := done (inAngle s frameClose)

/-- TBS of a handover (R386). -/
def execHandoverAtTbs (s : State) : Host.Outcome State Fault Refusal := done (inAngle s handover)

/-- TBS of a ring UBANK (R386). -/
def execRingUbankStart (s : State) : Host.Outcome State Fault Refusal := done (inAngle s ringUbank)

/-- RING.OREL (R384). -/
def execOreldWrite (val : BitVec 4) (s : State) : Host.Outcome State Fault Refusal := done (inAngle s (orelWrite val.toNat))

/-- OREL_N falls (R125). -/
def execOrelNAssert (s : State) : Host.Outcome State Fault Refusal := done (orelAssert s)

/-- OREL_N rises (R425). -/
def execOrelNRelease (s : State) : Host.Outcome State Fault Refusal := done (orelRelease s)

end Sys2Proof.Machine
end

