-- ==== Sys2Proof/Machine/Write.lean ====
section
/-! DEFINITION. A write of a register or of a word of an angle-domain memory: its access codes, its reserved values, its
refusals and its effect (R11 to R18, R24, R40, R41, R46, R104, R131, R142, R162, R176, R195, R211, R302, R327, R328). -/

namespace Sys2Proof.Machine

open Fields

/-! ### Access codes and reserved values (R12, R13) -/

/-- The word that a write of `v` over `old` leaves by the access codes of the register alone. W1S fields other than the lock
bits act through their own operations and are left as they are. -/
def mergeWord (d : RegDesc) (locked : Bool) (old v : Nat) : Nat :=
  let take := d.rw ||| bif locked then 0 else d.rwl
  ((old &&& (0xFFFFFFFF ^^^ take)) ||| (v &&& take)) &&& (0xFFFFFFFF ^^^ (v &&& d.w1c))

/-- The description of the register at `a`; a word that no table describes takes no write. -/
def regAt (a : Nat) : RegDesc := (descAt a).getD ⟨a, [], 0, 0, 0, 0, 0, 0, 0⟩

/-- The lock bit of the register at `a` is set. -/
def lockedAt (s : State) (a : Nat) : Bool :=
  bif within 0x50008000 0x1000 a then s.flag (TI_CFG_LOCK ((a - 0x50008000) / 0x100))
  else bif a == Reg.KTL_CFG then s.flag KTL_CFG_LOCK else false

/-- The values that a field's description defines. -/
abbrev Legal := Fld × (Nat → Bool)

/-- The word with each field that holds an undefined value put back, and whether there was one (R13). -/
def keepReserved (legal : List Legal) (old new : Nat) : Nat × Bool :=
  legal.foldl (fun r c =>
    bif c.2 (bitsAt new c.1.lo c.1.width) then r
    else (putBits r.1 c.1.lo c.1.width (bitsAt old c.1.lo c.1.width), true)) (new, false)

/-- A write with no effect but the register's own: `refuse` sets the block's parameter flag. -/
def plainWrite (refuse : State → State) (legal : List Legal) (a v : Nat) (s : State) : State :=
  let old := s.rdn a
  let r := keepReserved legal old (mergeWord (regAt a) (lockedAt s a) old v)
  whenS r.2 refuse (s.wrn a r.1)

/-- The field of a word. -/
def inWord (f : Fld) (v : Nat) : Nat := bitsAt v f.lo f.width

/-- The write changes one of the fields. -/
def changes (s : State) (fs : List Fld) (v : Nat) : Bool := fs.any fun f => s.get f != inWord f v

/-- The write changes nothing but a one-bit field that it clears. -/
def onlyClears (s : State) (f : Fld) (v : Nat) : Bool :=
  let d := regAt f.reg
  s.flag f && inWord f v == 0 && putBits (s.rdn f.reg) f.lo 1 0 &&& d.rw == v &&& d.rw

/-- No field is limited. -/
def any : List Legal := []

/-! ### Trackers (R40, R41, R64, R70, R82, R86, R98, R101) -/

/-- The tracker refuses a write, or the write was reserved. -/
def atRefuse (n : Nat) (s : State) : State := s.setb (AT_ERRINFO_PARAM n) true

/-- SCTL is written: one bit acts, more than one are reserved. -/
def syncControl (n v : Nat) (s : State) : State :=
  match v % 16 with
  | 0 => s
  | 1 => trackerNone n s
  | 2 => syncDropNow n s
  | 4 => setPhase n false s
  | 8 => setPhase n true s
  | _ => atRefuse n s

/-- WCFG is written: its flags, CYCLE while the tracker is disabled, and SWREQ. -/
def wheelConfig (n v : Nat) (s : State) : State :=
  bif s.flag (AT_CTL_EN n) && changes s [AT_WCFG_CYCLE n] v then atRefuse n s
  else whenS (inWord (AT_WCFG_SWREQ n) v == 1) (switchRequest n) (plainWrite (atRefuse n) any (Reg.AT_WCFG n) v s)

/-- A wheel descriptor or nominal gap, of descriptor `d`, is written (R40). -/
def wheelDesc (n d a v : Nat) (s : State) : State :=
  let active := s.get (AT_WCFG_ACTSEL n) == d
  bif (active && s.flag (AT_CTL_EN n)) || (!active && s.flag (AT_WCFG_SWREQ n)) then atRefuse n s
  else
    let cnt : Fld := ⟨a, 16, 13⟩
    let isDesc := a == Reg.AT_WDESC0 n || a == Reg.AT_WDESC1 n
    plainWrite (atRefuse n) (bif isDesc then [(cnt, fun x => Nat.ble x 4096)] else any) a v s

/-- SCFG is written (R70, R82). -/
def syncConfig (n v : Nat) (s : State) : State :=
  let src := inWord (AT_SCFG_DIRSRC n) v
  let w := activeWheel s n
  bif (s.flag (AT_CTL_EN n) && changes s [AT_SCFG_DIRSRC n, AT_SCFG_DIRTRK n] v) ||
      (src == 2 && w.cnt != 0 && wheelSymmetric s n (s.get (AT_WCFG_ACTSEL n))) then atRefuse n s
  else
    let pos (f : Fld) : Legal := (f, (· != 0))
    plainWrite (atRefuse n) [pos (AT_SCFG_VREV n), pos (AT_SCFG_VMAX n), pos (AT_SCFG_RTOL n), pos (AT_SCFG_DREV n),
      pos (AT_SCFG_GAPMAX n), pos (AT_SCFG_IDXMAX n), (AT_SCFG_K n, fun x => Nat.ble 3 x && Nat.ble x 8)] (Reg.AT_SCFG n) v s

/-- CAMCFG is written (R70, R71). -/
def camConfig (n v : Nat) (s : State) : State :=
  bif s.flag (AT_CTL_EN n) && changes s [AT_CAMCFG_CAMSRC n] v then atRefuse n s
  else plainWrite (atRefuse n) [(AT_CAMCFG_CAMMAX n, (· != 0)), (AT_CAMCFG_CAMSRC n, fun x => Nat.ble x 4 && x != n + 1)]
    (Reg.AT_CAMCFG n) v s

/-- The tracker refuses the use of an unusable profile (R98). -/
def profRefuse (n : Nat) (s : State) : State := s.setb (AT_ERRINFO_PROF n) true

/-- PCFG or LCFG is written: a bit that uses the profile is not set while the profile is unusable (R98). -/
def profileConfig (n a v : Nat) (uses : List Fld) (legal : List Legal) (s : State) : State :=
  bif uses.any (fun f => inWord f v == 1 && !s.flag f) && !profileUsable s n (activeWheel s n) then profRefuse n s
  else plainWrite (atRefuse n) legal a v s

/-- The order of the plausibility limits (R86): BLANK < WLO < 0x1000 < WHI < 0x2000. -/
def windowOrder (blank wlo whi : Nat) : Bool := Nat.blt blank wlo && Nat.blt wlo 0x1000 && Nat.blt 0x1000 whi && Nat.blt whi 0x2000

/-- A write that breaks an order is reserved: the register keeps its value (R86). -/
def orderedWrite (n a v : Nat) (ok : Bool) (s : State) : State := bif ok then plainWrite (atRefuse n) any a v s else atRefuse n s

/-- LCFG is written: a write of CLRN restarts the accumulation of a learning average (R96). -/
def learnConfig (n v : Nat) (s : State) : State :=
  learnRestart n (profileConfig n (Reg.AT_LCFG n) v [AT_LCFG_PLRN n] [(AT_LCFG_CLRN n, (· != 3))] s)

/-- PSCFG is written: CYCLE mode needs every slot of the wheel in the store (R101). -/
def storeConfig (n v : Nat) (s : State) : State :=
  let w := activeWheel s n
  bif inWord (AT_PSCFG_MODE n) v == 1 && !s.flag (AT_PSCFG_MODE n) && Nat.blt 4096 (bif halfWheel s n then 2 * w.cnt else w.cnt) then
    atRefuse n s
  else plainWrite (atRefuse n) any (Reg.AT_PSCFG n) v s

/-- The words of the angle-domain memories that a write stores whole: profiles, LDM, programs, trace buffers,
microcode. -/
def storeWhole (a v : Nat) (s : State) : State := { (s.wrn a v) with ecc := s.ecc.filter (· != a) }

/-- A word of the profile table of tracker `n` is written: a CYL above 23 other than 0x1F is reserved and leaves that field (R13, R98,
R99). -/
def profileWrite (n a v : Nat) (s : State) : State :=
  let c := bitsAt v 0 5
  let cyl := Nat.blt c 24 || c == 31
  bif a % 8 == 0 then storeWhole a v (profileWritten n a s)
  else bif cyl then storeWhole a (v &&& 0x3F) (profileWritten n a s)
  else atRefuse n (storeWhole a (putBits (v &&& 0x3F) 0 5 (s.rdn a)) (profileWritten n a s))

/-- A register of tracker `n` is written. -/
def atWrite (n a v : Nat) (s : State) : State :=
  let plain := plainWrite (atRefuse n)
  bif a == Reg.AT_CTL n then (bif bitAt v 0 then trackerEnable n s else trackerDisable n s)
  else bif a == Reg.AT_SCTL n then syncControl n v s
  else bif a == Reg.AT_WCFG n then wheelConfig n v s
  else bif a == Reg.AT_WDESC0 n || a == Reg.AT_NGAP0 n then wheelDesc n 0 a v s
  else bif a == Reg.AT_WDESC1 n || a == Reg.AT_NGAP1 n then wheelDesc n 1 a v s
  else bif a == Reg.AT_SCFG n then syncConfig n v s
  else bif a == Reg.AT_CAMCFG n then camConfig n v s
  else bif a == Reg.AT_PCFG n then
    profileConfig n a v [AT_PCFG_ACCEN n, AT_PCFG_FFEN n] [(AT_PCFG_CATCHK n, fun x => Nat.ble 2 x && Nat.ble x 8)] s
  else bif a == Reg.AT_WIN0 n then
    orderedWrite n a v (windowOrder (s.get (AT_WIN2_BLANK n)) (inWord (AT_WIN0_WLO n) v) (inWord (AT_WIN0_WHI n) v)) s
  else bif a == Reg.AT_WIN1 n then
    orderedWrite n a v (Nat.blt (inWord (AT_WIN1_CLO n) v) 0x1000 && Nat.blt 0x1000 (inWord (AT_WIN1_CHI n) v)) s
  else bif a == Reg.AT_WIN2 n then orderedWrite n a v (Nat.blt (inWord (AT_WIN2_BLANK n) v) (s.get (AT_WIN0_WLO n))) s
  else bif a == Reg.AT_FF n then plain [(AT_FF_WAGE n, (· != 0))] a v s
  else bif a == Reg.AT_LCFG n then learnConfig n v s
  else bif a == Reg.AT_PSCFG n then storeConfig n v s
  else bif within (Reg.AT_WCYL n 0) 96 a then percWorkWrite n ((a - Reg.AT_WCYL n 0) / 4) (BitVec.ofNat 32 v) s
  else plain any a v s

/-- A bus write of CORR of entry `e`, before the word is written, restarts the accumulation of the tracker in whose active range it lies
(R42, R96, R97, R390). -/
def corrWritten (e : Nat) (s : State) : State :=
  upTo 4 (fun n u =>
    let w := activeWheel u n
    whenS (u.flag (AT_CTL_EN n) && Nat.ble w.base e && Nat.blt e (w.base + w.cnt)) (ownTracking n (corrTouched n)) u) s

/-- A word of the tooth table is written (R41, R42): whether the write ends in a bus error, and the state. -/
def toothWrite (e : Nat) (word1 : Bool) (v : Nat) (s : State) : Bool × State :=
  let a := toothAddr e + 4 * word1.toNat
  let clean (t : State) : State := { t with ecc := t.ecc.filter (· != a) }
  bif !entryInUse s e then (false, clean (s.wrn a (bif word1 then v else v &&& 0x0FFFFFFF)))
  else bif !word1 then (true, s)
  else
    let old := s.rdn a
    (bitsAt v 0 16 != bitsAt old 0 16, clean ((corrWritten e s).wrn a (putBits old 16 16 (bitsAt v 16 16))))

/-! ### Timed inputs (R13, R46, R47) -/

/-- MODE of VR input `n` changes: the comparator that it takes resolves against THR, and the one that it lets go is left with its last
thresholds (R52, R54, R220). -/
def inputMode (n old : Nat) (s : State) : State :=
  let m := s.get (TI_CFG_MODE n)
  bif Nat.ble 4 n || m == old then s
  else bif m == 1 then cmpResolve n (s.putCmp n { s.cmp n with kept := none })
  else whenS (old == 1) (fun u => u.putCmp n { u.cmp n with kept := some (u.get (TI_VRSTAT_THR n)) }) s

/-- CFG of input `n` is written. DEDUCED: a refused write sets ERRINFO.PARAM of the tracker that the DEST written names, since the
refusal of a second input is for that tracker's sake (R46, log 69). -/
def inputConfig (n v : Nat) (s : State) : State :=
  let a := Reg.TI_CFG n
  let old := s.rdn a
  let keep (t : State) : State := (inputRefuse t n).wrn a old
  let m := inWord (TI_CFG_MODE n) v
  bif s.flag (TI_CFG_LOCK n) then s
  else
    let en := s.flag (TI_CFG_EN n)
    let legal : List Legal := [(TI_CFG_POL n, (· != 3)), (TI_CFG_MODE n, fun x => Nat.ble x 4), (TI_CFG_DEST n, fun x => Nat.ble x 4),
      (TI_CFG_QX n, (· != 3))]
    let r := keepReserved legal old (mergeWord (regAt a) false old v)
    let s1 := whenS r.2 (·.setb (TI_STAT_PARAM n) true) (s.wrn a (putBits r.1 0 1 en.toNat))
    let toQuad := m == 2 && s.get (TI_CFG_MODE n) != 2
    bif en && changes s [TI_CFG_MODE n, TI_CFG_POL n, TI_CFG_QX n, TI_CFG_IDXSRC n, TI_CFG_DEST n] r.1 then keep s1
    else bif (m == 1 && Nat.ble 4 n) || (toQuad && (n % 2 == 1 || s.get (TI_CFG_MODE (n + 1)) != 4)) then keep s1
    else bif bitAt v 0 && !en && inputRefused s1 n then keep s1
    else
      let s2 := inputMode n (s.get (TI_CFG_MODE n)) s1
      let s3 := bif bitAt v 0 then inputEnable s2 n else inputDisable s2 n
      whenS (bitAt v 31) (·.setb (TI_CFG_LOCK n) true) s3

/-- A register of input or capture queue `n` is written: what was sampled before stays judged by the settings that it was sampled under,
in `n` and in the channel B that uses its filter (R48, R57). -/
def inputWrite (n a v : Nat) (s0 : State) : State :=
  let s := filterSync (n + 1) (filterSync n s0)
  bif a == Reg.TI_CFG n then inputConfig n v s else plainWrite (·.setb (TI_STAT_PARAM n) true) any a v s

/-! ### Scheduling (R110, R121, R123, R125, R127) -/

/-- SCH refuses a write. -/
def schRefuse (s : State) : State := s.setb SCH_ERRINFO_PARAM true

/-- CHCFG of channel `c` is written. -/
def chanConfig (c v : Nat) (s : State) : State :=
  bif (outen s c || !(s.unit c).edges.isEmpty) && changes s [SCH_CHCFG_TRK c, SCH_CHCFG_CRL c, SCH_CHCFG_SAFE c] v then schRefuse s
  else plainWrite schRefuse [(SCH_CHCFG_SAFE c, (· != 3)), (SCH_CHCFG_CRL c, fun x => Nat.blt x 12 || x == 15),
    (SCH_CHCFG_MAXPC c, fun x => Nat.ble x 64)] (Reg.SCH_CHCFG c) v s

/-- The fields of word `i` of a descriptor whose description leaves values undefined, and the bits marked "—" (R13, R103). -/
def eventLegal (i a : Nat) : List Legal :=
  match i with
  | 0 => [(⟨a, 28, 2⟩, (· != 3)), (⟨a, 26, 2⟩, (· != 3))]
  | 1 => [(⟨a, 24, 3⟩, (· == 0))]
  | 2 => []
  | _ => [(⟨a, 30, 2⟩, (· == 0)), (⟨a, 24, 6⟩, fun x => Nat.ble x 32), (⟨a, 20, 4⟩, fun x => Nat.ble x 11 || x == 15),
      (⟨a, 13, 7⟩, (· == 0)), (⟨a, 8, 5⟩, fun x => Nat.ble x 23), (⟨a, 6, 2⟩, (· == 0))]

/-- A word of the event table is written by PERC or the FCP, one word at a time: a field given a reserved value, and a bit marked "—",
keep what they hold, and the descriptor that results passes the envelope check (R13, R17, R123). -/
def eventWrite (a v : Nat) (s : State) : State :=
  let b := Nat.ble 0x50064000 a
  let e := (a - 0x50060000) % 0x4000 / 16
  let i := a / 4 % 4
  let base := eventAddr b e
  let kept := keepReserved (eventLegal i a) (s.rdn a) v
  let w (k : Nat) : Nat := bif k == i then kept.1 else s.rdn (base + 4 * k)
  let r := envDescriptor s b e (w 0) (w 1) (w 2) (w 3)
  bif r.1 == 0 || r.1 == 0x0310 then
    let s1 := ((((holdWords (wordAddrs base 4) s).wrn base r.2.1).wrn (base + 4) r.2.2.1).wrn (base + 8) r.2.2.2.1).wrn (base + 12) r.2.2.2.2
    whenS kept.2 schRefuse { s1 with ecc := s1.ecc.filter (· != a) }
  else schRefuse s

/-- A word of the trim table is written by PERC or the FCP: the trim that results passes the envelope check (R17, R123). -/
def trimTableWrite (a v : Nat) (s : State) : State :=
  let e := (a - 0x50068000) / 8
  let second := bitAt a 2
  let at_ := bif second then atrimOf s e else signedOf 24 v
  let dt := bif second then signedOf 16 v else dtrimOf s e
  let r := envTrim s e at_ dt
  bif r.1 == 0x0305 then schRefuse s
  else
    let s1 := putDtrim e r.2.2 (putAtrim e r.2.1 s)
    { s1 with ecc := s1.ecc.filter (· != a) }

/-- A register of SCH is written. -/
def schWrite (a v : Nat) (s : State) : State :=
  bif a == Reg.SCH_BCTL then bctlWrite v s
  else bif a == Reg.SCH_OUTENL then outenWrite false v s
  else bif a == Reg.SCH_OUTENH then outenWrite true v s
  else bif within 0x5006A0A0 32 a && a % 8 == 0 then plainWrite schRefuse [(⟨a, 0, 32⟩, fun x => Nat.ble 128 x)] a v s
  else bif within 0x5006A800 0x800 a && a % 32 == 0 then chanConfig ((a - 0x5006A800) / 32) v s
  else plainWrite schRefuse any a v s

/-! ### Sequencers (R131, R132, R142 to R147) -/

/-- CTL of sequencer `n` is written; with a STEST that is not allowed, the whole write is refused (R147). -/
def esqControl (n v : Nat) (s : State) : State :=
  bif bitAt v 2 && (s.get (ESQ_STAT_STATE n) != 0 || s.flag (ESQ_OWN_VALID n)) then esqRefuse n s
  else whenS (bitAt v 1) (esqUbreq n) ((fun t => bif bitAt v 0 then esqRun n t else esqStop n t)
    (whenS (bitAt v 2) (esqTestStart n) (whenS (bitAt v 3) (esqFclr n) s)))

/-- EVRNG of sequencer `n` is written; that the range passes event 1023 stops RUN, and not this write (R132). -/
def rangeWrite (n v : Nat) (s : State) : State :=
  bif esqRunning s n then esqRefuse n s
  else plainWrite (esqRefuse n) [(ESQ_EVRNG_CNT n, fun x => Nat.ble x 128)] (Reg.ESQ_EVRNG n) v s

/-- A register of sequencer `n` is written. -/
def esqWrite (n a v : Nat) (s : State) : State :=
  bif a == Reg.ESQ_CTL n then esqControl n v s
  else bif a == Reg.ESQ_CFG n then
    bif s.flag (ESQ_CTL_RUN n) && changes s [ESQ_CFG_CTRK n, ESQ_CFG_SBANK n] v then esqRefuse n s
    else plainWrite (esqRefuse n) [(ESQ_CFG_COASTMAX n, (· != 0)), (ESQ_CFG_PMMAX n, (· != 0))] a v s
  else bif a == Reg.ESQ_OWN n then ownWrite n v s
  else bif a == Reg.ESQ_EVRNG n then rangeWrite n v s
  else plainWrite (esqRefuse n) any a v s

/-! ### Current shaping (R151, R162, R167, R169, R171) -/

/-- The engine refuses a write. -/
def cseRefuse (n : Nat) (s : State) : State := s.setb (CSE_ERRINFO_PARAM n) true

/-- RCFG of engine `n` is written (R167). -/
def ringConfig (n v : Nat) (s : State) : State :=
  let z := inWord (CSE_RCFG_RSZ n) v
  let old := s.get (CSE_RCFG_RSZ n)
  bif !(z == 0 || (Nat.ble 4 z && Nat.ble z 10)) || (old != 0 && z != 0 && z != old) then cseRefuse n s
  else bif old != 0 && z == old then s
  else ((s.set (CSE_RCFG_RSZ n) z).set (CSE_RWIDX_WIDX n) 0).set (CSE_RRIDX_RIDX n) 0

/-- A register of engine `n` is written. -/
def cseWrite (n a v : Nat) (s : State) : State :=
  bif a == Reg.CSE_CTL n then whenS (bitAt v 0) (programRequest n) s
  else bif a == Reg.CSE_RBASE n then
    bif s.get (CSE_RCFG_RSZ n) != 0 then cseRefuse n s else plainWrite (cseRefuse n) any a v s
  else bif a == Reg.CSE_RCFG n then ringConfig n v s
  else plainWrite (cseRefuse n) any a v s

/-- A register of loop `k` is written. -/
def crlWrite (k a v : Nat) (s : State) : State :=
  let refuse := cseRefuse (k / 6)
  bif a == Reg.CRL_CFG k then
    bif s.flag (CRL_CFG_EN k) && changes s [CRL_CFG_TOPO k, CRL_CFG_DT k, CRL_CFG_FREACT k] v then refuse s
    else
      let s1 := plainWrite refuse [(CRL_CFG_DT k, fun x => Nat.ble 2 x)] a (putBits v 0 1 (s.get (CRL_CFG_EN k))) s
      bif bitAt v 0 then loopEnable k s1 else loopDisable k s1
  else bif a == Reg.CRL_CTL k then
    let s1 := whenS (bitAt v 0) (loopFclr k) s
    bif bitAt v 1 then (crlCalRequest k s1).2 else s1
  else plainWrite refuse any a v s

/-! ### Cylinder pressure (R176, R179, R182, R186) -/

/-- A register of the pressure converters is written. -/
def padcWrite (a v : Nat) (s : State) : State :=
  let legal : List Legal := [(PADC_CFG_SDIV, fun x => Nat.ble 1 x && Nat.ble x 20), (PADC_CFG_NHIST, fun x => Nat.ble 1 x && Nat.ble x 8),
    (PADC_CFG_N, fun x => Nat.ble 16 x && Nat.ble x 4096)]
  let held := s.flag PADC_CFG_EN || s.flag CAE_CTL_RUN
  bif a == Reg.PADC_CFG then
    bif onlyClears s PADC_CFG_EN v then padcDisable s
    else bif s.flag PADC_CFG_EN then padcRefuse s
    else bif s.flag CAE_CTL_RUN && changes s [PADC_CFG_TRK, PADC_CFG_SDIV, PADC_CFG_NHIST, PADC_CFG_N] v then padcRefuse s
    else
      let s1 := plainWrite padcRefuse legal a (putBits v 31 1 0) s
      bif !bitAt v 31 then s1
      else
        let s2 := padcEnable s1
        bif s2.flag PADC_CFG_EN then s2 else s2.wrn a (s.rdn a)
  else bif a == Reg.PADC_WOFS then bif held then padcRefuse s else plainWrite padcRefuse any a v s
  else bif within (Reg.PADC_CYL 0) 96 a then
    bif held then padcRefuse s else plainWrite padcRefuse [(⟨a, 0, 14⟩, fun x => Nat.blt x (padcM s))] a v s
  else bif a == Reg.PADC_CAL then
    upTo 4 (fun k u => bif bitAt v k then (padcCalRequest k u).2 else u) (plainWrite padcRefuse any a v s)
  else plainWrite padcRefuse any a v s

/-- A register of the combustion analysis engine is written. -/
def caeWrite (a v : Nat) (s : State) : State :=
  bif a == Reg.CAE_CTL then
    whenS (bitAt v 1) kernelRequest ((fun t => bif bitAt v 0 then caeRun t else caeStop t) (whenS (bitAt v 2) caeFclr s))
  else bif within Reg.CAE_BORE 16 a then bif s.flag CAE_CTL_RUN then caeRefuse s else plainWrite caeRefuse any a v s
  else
    let s1 := plainWrite caeRefuse any a v s
    bif a == Reg.CAE_PHCFG then upTo 24 phaseFollow s1
    else bif within (Reg.CAE_CYLW0 0) (24 * 16) a && a % 16 == 4 then phaseFollow ((a - Reg.CAE_CYLW0 0) / 16) s1
    else s1

/-! ### Timers (R193 to R204) -/

/-- A register of timer `t` is written. -/
def gptWrite (t a v : Nat) (s : State) : State :=
  let run := s.flag (GPTt_CTL_RUN t)
  let w := BitVec.ofNat 32 v
  let plain := plainWrite (gptRefuse · t)
  bif a == Reg.GPTt_CTL t then
    bif run && changes s [GPTt_CTL_MODE t, GPTt_CTL_PSC t] v then gptRefuse s t
    else
      let s1 := plain [(GPTt_CTL_MODE t, fun x => Nat.ble x 1)] a (putBits v 0 1 run.toNat) s
      bif bitAt v 0 then (bif run then s1 else gptRun s1 t) else bif run then gptStop s1 t else s1
  else bif a == Reg.GPTt_CNT t then bif run then gptRefuse s t else s.wr a w
  else bif a == Reg.GPTt_PER t then gptWriteShadow s t .per w
  else bif a == Reg.GPTt_CMP t 0 then gptWriteShadow s t .cmp0 w
  else bif a == Reg.GPTt_CMP t 1 then gptWriteShadow s t .cmp1 w
  else bif a == Reg.GPTt_CCFG t 0 || a == Reg.GPTt_CCFG t 1 then
    bif run then gptRefuse s t
    else
      let width := bitsAt v 0 2 == 3
      plain [(⟨a, 14, 2⟩, fun x => x != 3 && !(width && x == 2))] a v s
  else plain any a v s

/-- A common register of the timers is written (R202, R204). -/
def brewWrite (a v : Nat) (s : State) : State :=
  let refuse := (·.setb GPT_ERRINFO_PARAM true : State → State)
  bif a == Reg.GPT_BREW then gptBrewWrite (BitVec.ofNat 32 v) s
  else plainWrite refuse any a v s

/-! ### Housekeeping converter and comparators (R209 to R225) -/

/-- The housekeeping converter refuses a write. -/
def hadcRefuse (s : State) : State := s.setb HADC_ERRINFO_PARAM true

/-- Entry `j` lies in the range of an enabled sequence. -/
def entryHeld (s : State) (j : Nat) : Bool :=
  someBelow 4 fun q => s.flag (HADC_SEQCFG_EN q) && Nat.ble (s.get (HADC_SEQCFG_START q)) j && Nat.ble j (s.get (HADC_SEQCFG_END q))

/-- The trigger source that TSEL names is absent, for the trigger type (R212). -/
def triggerAbsent (s : State) (ty sel : Nat) : Bool := bif ty == 3 then !s.hasChan sel else ty == 1 && Nat.ble 32 sel

/-- Setting EN of sequence `q` with entries `st` to `en` is refused (R211). -/
def seqRefused (s : State) (q st en : Nat) : Bool :=
  Nat.blt en st || someBelow 4 fun p => p != q && s.flag (HADC_SEQCFG_EN p) &&
    Nat.ble st (s.get (HADC_SEQCFG_END p)) && Nat.ble (s.get (HADC_SEQCFG_START p)) en

/-- SEQCFG of sequence `q` is written. -/
def seqConfig (q v : Nat) (s : State) : State :=
  let a := Reg.HADC_SEQCFG q
  bif onlyClears s (HADC_SEQCFG_EN q) v then seqStop q (s.setb (HADC_SEQCFG_EN q) false)
  else bif s.flag (HADC_SEQCFG_EN q) then hadcRefuse s
  else bif bitAt v 31 && seqRefused s q (inWord (HADC_SEQCFG_START q) v) (inWord (HADC_SEQCFG_END q) v) then hadcRefuse s
  else
    let ty := inWord (HADC_SEQCFG_TTYP q) v
    seqAim q (plainWrite hadcRefuse [(HADC_SEQCFG_TSEL q, fun x => !triggerAbsent s ty x), (HADC_SEQCFG_TTYP q, fun x => Nat.ble x 4),
      (HADC_SEQCFG_TEDGE q, (· != 3))] a v s)

/-- A register of the housekeeping converter is written. -/
def hadcWrite (a v : Nat) (s : State) : State :=
  let q := (a - 0x40050040) / 16
  bif a == Reg.HADC_CTL then
    let s1 := bif bitAt v 0 then s.setb HADC_CTL_EN true else hadcDisable s
    whenS (bitAt v 1) hadcCalReq s1
  else bif a == Reg.HADC_SWTRG then hadcSoft (bitsAt v 0 4) (hadcStop (bitsAt v 4 4) s)
  else bif within 0x40050040 64 a && a % 16 == 0 then seqConfig q v s
  else bif within 0x40050040 64 a && a % 16 != 12 then
    bif s.flag (HADC_SEQCFG_EN q) then hadcRefuse s
    else
      let s1 := plainWrite hadcRefuse any a v s
      bif a % 16 == 8 then seqAim q s1 else s1
  else bif within (Reg.HADC_ENT 0) 128 a then
    let j := (a - Reg.HADC_ENT 0) / 4
    let ch := inWord (HADC_ENT_CH j) v
    let pair := inWord (HADC_ENT_DIFF j) v == 0 || (ch % 2 == 0 && Nat.ble ch 22)
    let keep (f : Fld) (w : Nat) : Nat := putBits w f.lo f.width (s.get f)
    let v1 := bif pair then v else keep (HADC_ENT_CH j) (keep (HADC_ENT_DIFF j) v)
    bif entryHeld s j then hadcRefuse s
    else whenS (!pair) hadcRefuse (plainWrite hadcRefuse [(HADC_ENT_RPT j, fun x => Nat.ble x 4)] a v1 s)
  else plainWrite hadcRefuse any a v s

/-- The comparator block refuses a write. -/
def cmpRefuse (s : State) : State := s.setb CMP_ERRINFO_PARAM true

/-- A register of the comparators is written. -/
def cmpWrite (a v : Nat) (s : State) : State :=
  let n := (a - 0x40060000) / 16
  bif Nat.blt n 48 then
    bif a % 16 == 0 then
      let s1 := plainWrite cmpRefuse [(CMP_CFG_EDGE n, (· != 3)), (CMP_CFG_AON n, fun x => x == 0 || !(Nat.ble 4 n && Nat.ble n 27))] a
        (putBits v 0 1 (s.get (CMP_CFG_EN n))) s
      whenS (changes s [CMP_CFG_HYS n] v) (fun u => regulated n (cmpResolve n u))
        (bif bitAt v 0 then cmpEnable n (s1.cmp n).input s1 else s1.setb (CMP_CFG_EN n) false)
    else bif a % 16 == 4 then cmpThrWrite n (BitVec.ofNat 32 v) s
    else plainWrite cmpRefuse any a v s
  else bif within 0x40060400 80 a && a % 8 == 0 then
    let w := (a - 0x40060400) / 8
    bif changes s [CMP_WCFG_SRC w] v && (s.flag (CMP_CFG_EN (28 + 2 * w)) || s.flag (CMP_CFG_EN (29 + 2 * w))) then cmpRefuse s
    else windowUpdate (28 + 2 * w) false (plainWrite cmpRefuse [(CMP_WCFG_SRC w, fun x => Nat.ble x 23)] a v s)
  else plainWrite cmpRefuse any a v s

/-! ### Pairs, power, interrupts (R277 to R293, R392 to R409) -/

/-- PAIRCTL of pair `p` is written by PERC. -/
def pairControl (p v : Nat) (s : State) : State :=
  let s1 := whenS (bitAt v 0) (pairPowerOn p) s
  let hbt := inWord (CPR_PAIRCTL_HBT p) v
  let s2 := whenS (hbt != 0) (·.set (CPR_PAIRCTL_HBT p) hbt) s1
  let s3 := bif pairState s2 p == 1 then s2.setb (CPR_PAIRCTL_SPLIT p) (bitAt v 2) else s2
  let s4 := bif s2.flag (CPR_PAIRCTL_SPLIT p) && !s3.flag (CPR_PAIRCTL_SPLIT p) then retarget p s3 else s3
  let s5 := bif bitAt v 1 then (bif s4.flag (CPR_PAIRCTL_RUN p) then s4 else pairRun p s4)
    else bif s4.flag (CPR_PAIRCTL_RUN p) then pairRunClear p s4 else s4
  let role := inWord (CPR_PAIRCTL_ROLE p) v
  let s6 := whenS (Nat.blt role 3) (pairRole p role) s5
  let s7 := whenS (bitAt v 3) (pairTest p) s6
  bif !bitAt v 0 && s7.flag (CPR_PAIRCTL_PWR p) then pairPowerOff p s7 else s7

/-- PAIRCTL of pair `p` is written by master `mid`: PERC alone writes it, but for ROLE, which a core of the pair writes (R277, R279). -/
def pairctlWrite (mid p v : Nat) (s : State) : State :=
  let role := inWord (CPR_PAIRCTL_ROLE p) v
  bif mid == 15 then pairControl p v s
  else whenS (Nat.blt mid 4 && mid / 2 == p && Nat.blt role 3) (pairRole p role) s

/-- A register of CPR is written by master `mid`. -/
def cprWrite (mid a v : Nat) (s : State) : State :=
  let plain := plainWrite id
  bif a == Reg.CPR_PAIRCTL 0 then pairctlWrite mid 0 v s
  else bif a == Reg.CPR_PAIRCTL 1 then pairctlWrite mid 1 v s
  else bif a == Reg.CPR_PAIRHB 0 then pairHeartbeat 0 s
  else bif a == Reg.CPR_PAIRHB 1 then pairHeartbeat 1 s
  else bif a == Reg.CPR_DPXCTL then
    plain [(CPR_DPXCTL_CKSZ, fun x => Nat.ble 1 x && Nat.ble x 64)] a (bif mid == 15 then v else putBits v 0 1 (s.get CPR_DPXCTL_EN)) s
  else bif a == Reg.CPR_DPXSTAT then
    let p := bif Nat.blt mid 4 then mid / 2 else s.get CPR_DPXSTAT_ACT
    whenS (bitAt v 2) (takeoverAck p) (plain any a v s)
  else bif a == Reg.CPR_CKCOMMIT then checkpointCommit (v % 65536) s
  else bif a == Reg.CPR_CKACK then checkpointAck (v % 65536) s
  else bif a == Reg.CPR_DPXCKB0 || a == Reg.CPR_DPXCKB1 then
    bif v % 4096 == 0 && (sramBank v).isSome then plain any a v s else s
  else bif a == Reg.CPR_SWRST then bif v % 65536 == 0xA5A5 then deviceReset 3 s else s
  else bif a == Reg.CPR_PWRCTL then powerRequest v s
  else plain any a v s

/-- A register of the interrupt controller is written. -/
def irqWrite (a v : Nat) (s : State) : State :=
  let w := BitVec.ofNat 32 v
  let k := a / 4 % 8
  bif within (Reg.IRQC_SRCCFG 0) 1024 a then sourceConfig ((a - 0x40000000) / 4) w s
  else bif within (Reg.IRQC_ENSET 0) 32 a then irqEnable k w s
  else bif within (Reg.IRQC_ENCLR 0) 32 a then irqDisable k w s
  else bif within (Reg.IRQC_PNDSET 0) 32 a then irqSetPending k w s
  else bif within (Reg.IRQC_PNDCLR 0) 32 a then irqClearPending k w s
  else plainWrite (·.setb IRQC_ERRINFO_PARAM true) any a v s

/-! ### Memories, tables, locks, DMA, queues (R297 to R334) -/

/-- A register of the memory controller is written. -/
def memcWrite (a v : Nat) (s : State) : State :=
  bif within (Reg.MEMC_BANKCTL 0) 192 a && a % 16 == 0 then
    let b := (a - Reg.MEMC_BANKCTL 0) / 16
    let s1 := (bankOffline b (bitAt v 0) s).setb (MEMC_BANKCTL_SCRUB b) (bitAt v 4)
    whenS (bitAt v 8) (bistStart b) s1
  else plainWrite memcRefuse (bif a == Reg.MEMC_SCRUB then [(MEMC_SCRUB_SDIV, fun x => Nat.ble 16 x)] else any) a v s

/-- A register of the access tables is written. -/
def actWrite (a v : Nat) (s : State) : State :=
  bif a == Reg.ACT_CTL then whenS (bitAt v 1) actSwitch s
  else bif a == Reg.ACT_REVOKEL || a == Reg.ACT_REVOKEH then
    let base := bif a == Reg.ACT_REVOKEL then 0 else 32
    upTo 32 (fun i u => whenS (bitAt v i && !bitAt (s.rdn a) i) (midRevoke (base + i)) u) (s.wrn a v)
  else bif Nat.ble (Reg.ACT_RGN0 0 0) a && Nat.blt (a % 0x1000) 0xC00 && a % 0x20 == 0 then
    let old := s.rdn a
    let z := bif Nat.ble 12 (bitsAt v 7 5) then bitsAt v 7 5 else bitsAt old 7 5
    let base := bif (v / 4096 * 4096) % 2 ^ z == 0 then v / 4096 else old / 4096
    s.wrn a (base * 4096 + z * 128 + v % 2)
  else bif Nat.ble (Reg.ACT_RGN0 0 0) a && within 0xC40 64 (a % 0x1000) then
    plainWrite id [(⟨a, 16, 6⟩, fun x => Nat.ble 48 x), (⟨a, 24, 2⟩, fun x => Nat.ble x 2)] a v s
  else plainWrite id any a v s

/-- A register of the arbiters is written. -/
def arbWrite (a v : Nat) (s : State) : State :=
  bif a == Reg.ARB_CFG then plainWrite id [(ARB_CFG_REFILL, fun x => Nat.ble 2 x && Nat.ble x 64)] a v s
  else s.wrn a (v &&& 0x77777777)

/-- A register of the lock block is written by master `mid`. -/
def lkbWrite (mid a v : Nat) (s : State) : State :=
  bif within (Reg.LKB_REL 0) 256 a then lockRelease mid ((a - Reg.LKB_REL 0) / 4) s
  else plainWrite (·.setb LKB_ERRINFO_PARAM true) (bif a == Reg.LKB_TMO then [(LKB_TMO_TMO, (· != 0))] else any) a v s

/-- A register of DMA channel `n` is written (R319, R327). -/
def dmaWrite (n a v : Nat) (s : State) : State :=
  let refuse := (·.setb (DMA_STAT_PARAM n) true : State → State)
  bif a == Reg.DMA_CTL n then
    let s1 := whenS (bitAt v 6) (dmaClrerr n) (whenS (bitAt v 7) (dmaRst n) s)
    let s2 := (s1.setb (DMA_CTL_EIE n) (bitAt v 5)).setb (DMA_CTL_DIE n) (bitAt v 4)
    let s3 := bif s2.flag (DMA_CTL_EN n) == bitAt v 0 then s2 else dmaEnable n (bitAt v 0) s2
    whenS (bitAt v 1) (dmaKick n) s3
  else bif a == Reg.DMA_RBASE n || a == Reg.DMA_RCFG n then
    bif dmaState s n != dmaIdle then refuse s
    else plainWrite refuse (bif a == Reg.DMA_RCFG n then [(DMA_RCFG_RSZ n, fun x => Nat.ble 1 x && Nat.ble x 10)] else any) a v s
  else plainWrite refuse any a v s

/-- A register of queue `q` is written by master `mid`. -/
def queueWrite (mid q a v : Nat) (s : State) : State :=
  let refuse (t : State) : State := (t.setb QM_ERRINFO_PARAM true).set QM_ERRINFO_QNUM q
  bif a == Reg.Q_PUSH q then queuePush mid q (BitVec.ofNat 32 v) s
  else bif a == Reg.Q_GRANT q then queueGrant mid q (v % 2 ^ 15) s
  else bif a == Reg.Q_CFG q then
    bif onlyClears s (Q_CFG_EN q) v then queueDisable q s
    else bif s.flag (Q_CFG_EN q) then refuse s
    else
      let s1 := plainWrite refuse [(Q_CFG_DSH q, fun x => Nat.ble 2 x && Nat.ble x 14)] a (putBits v 31 1 0) s
      bif !bitAt v 31 then s1
      else
        let s2 := queueEnable q s1
        bif s2.flag (Q_CFG_EN q) then s2 else s2.wrn a (s.rdn a)
  else bif a == Reg.Q_CFG3 q && s.flag (Q_CFG_EN q) then refuse s
  else plainWrite refuse any a v s

/-! ### PERC, ring, ports (R349, R371, R411, R418) -/

/-- AON.TMR starts to count `ms` milliseconds down; 0 stops it (R401). -/
def timerLoad (ms : Nat) (s : State) : State :=
  State.set { s with power := { s.power with tmrTb := s.time } } AON_TMR_MS ms

/-- A register of the always-on domain is written by master `mid`. -/
def aonWrite (mid a v : Nat) (s : State) : State :=
  bif a == Reg.KTL_HB then bif mid == 15 then kettleBeat s else s
  else bif a == Reg.KTL_CFG then
    let s1 := plainWrite id [(KTL_CFG_HBT, fun x => Nat.ble 10 x && Nat.ble x 1000)] a v s
    whenS (bitAt v 31) (·.setb KTL_CFG_LOCK true) s1
  else bif a == Reg.AON_TMR then timerLoad (v % 2 ^ 24) s
  else bif a == Reg.PST_STATE then plainWrite id [(PST_STATE_MODE, fun x => Nat.ble x 2)] a v s
  else bif a == Reg.PST_LINC then lossIncrement (v % 16) s
  else plainWrite id any a v s

/-- A register of the ring is written. -/
def ringWrite (a v : Nat) (s : State) : State :=
  let refuse := (·.setb RING_ERRINFO_PARAM true : State → State)
  let en := s.flag RING_CTL_EN
  bif a == Reg.RING_CTL then (bif bitAt v 0 then ringEnable s else ringDisable s)
  else bif en && (a == Reg.RING_CFG || a == Reg.RING_DMSKL || a == Reg.RING_DMSKH) then refuse s
  else bif a == Reg.RING_CFG then plainWrite refuse [(RING_CFG_MVOTE, (· != 0))] a v s
  else bif a == Reg.RING_OREL then orelWrite (v % 16) s
  else plainWrite refuse any a v s

/-! ### Any register or memory word -/

/-- The block at a word address is absent, the address is a VR register of an input that has no front end (TI4 to TI15, R56), or it is
an offset of AT1 to AT3 without a register (R45): it reads zero and takes no write (R2 to R4). -/
def absentAt (s : State) (a : Nat) : Bool :=
  bif Nat.blt a 0x40000000 then within 0x14000000 0x100000 a && !s.hasCae ||
    (match tcmWindow a with | some n => !s.hasCore n | none => false)
  else bif within 0x40000600 0x50 a then (let t := (a - 0x40000600) / 16; t != 4 && !s.hasCore t)
  else bif within 0x40060000 0x300 a then !cmpPresent s ((a - 0x40060000) / 16)
  else bif within 0x40070000 0x1000 a || within 0x500A0000 0x1000 a then !s.hasCae
  else bif within 0x40080110 16 a || within 0x40080140 0x18 a then !s.hasCore 2
  else bif within 0x400A0000 0x50000 a then
    (let k := bif Nat.blt a 0x400B0000 then (a - 0x400A0000) / 0x1000
       else bif Nat.blt a 0x400D0000 then 2 + (a - 0x400B0000) / 0x10000
       else bif Nat.blt a 0x400E0000 then 4 + (a - 0x400D0000) / 0x1000
       else 14 + (a - 0x400E8000) / 0x1000
     !hasPort s k)
  else bif within 0x50008400 0xC00 a then within 0x10 12 (a % 0x100)
  else bif within 0x50010000 0x30000 a then trackerVoid a
  else bif within 0x5006A800 0x800 a then !s.hasChan ((a - 0x5006A800) / 32)
  else bif within 0x50070000 0x8000 a then !s.hasEsq ((a - 0x50070000) / 0x1000)
  else bif within 0x50090000 0x2000 a then !s.hasCse ((a - 0x50090000) / 0x1000)
  else bif within 0x50098000 0xC00 a then !s.hasLoop ((a - 0x50098000) / 0x100)
  else bif within 0x5009A000 0x6000 a then !s.hasLoop ((a - 0x5009A000) / 0x800)
  else bif within 0x500C0000 0x1000 a then !s.counts.carafe
  else bif within 0x500D0000 0x20000 a then !s.hasEsq ((a - 0x500D0000) / 0x4000)
  else false

/-- A write of the word at `a` is refused with a bus error, cause 5 (R142, R162, R180, R181, R302). -/
def writeHeld (s : State) (mid a : Nat) : Bool :=
  bif within 0x500D0000 0x20000 a then
    let n := (a - 0x500D0000) / 0x4000
    s.flag (ESQ_CTL_UBREQ n) || (esqRunning s n && s.get (ESQ_STAT_UBANK n) == a / 0x2000 % 2)
  else bif within 0x50070000 0x8000 a && Nat.ble 0x400 (a % 0x1000) then s.get (ESQ_STAT_STATE ((a - 0x50070000) / 0x1000)) != 0
  else bif within 0x50090000 0x2000 a && Nat.ble 0x400 (a % 0x1000) then
    let n := (a - 0x50090000) / 0x1000
    s.flag (CSE_CTL_PBREQ n) || s.get (CSE_STAT_PBANK n) == (a % 0x1000 - 0x400) / 0x600
  else bif within 0x40091000 0x2000 a then s.get ACT_CTL_SEL == (a - 0x40091000) / 0x1000
  else bif within 0x140E0000 0x8000 a then recordHeld s mid a
  else within 0x140F0000 0x10000 a

/-- A write of the word `v` at `a` by master `mid`, once the access is allowed: the register's or memory's own effect. -/
def regWrite (mid a v : Nat) (s : State) : State :=
  bif Nat.blt a 0x40010000 then irqWrite a v s
  else bif Nat.blt a 0x40020000 then lkbWrite mid a v s
  else bif Nat.blt a 0x40020800 then queueWrite mid ((a - 0x40020000) / 64) a v s
  else bif Nat.blt a 0x40030000 then plainWrite id any a v s
  else bif Nat.blt a 0x40040000 then dmaWrite ((a - 0x40030000) / 64) a v s
  else bif within 0x40043000 0x100 a then brewWrite a v s
  else bif Nat.blt a 0x40050000 then gptWrite ((a - 0x40040000) / 0x4000 * 8 + a % 0x4000 / 0x80) a v s
  else bif Nat.blt a 0x40060000 then hadcWrite a v s
  else bif Nat.blt a 0x40070000 then cmpWrite a v s
  else bif Nat.blt a 0x40080000 then padcWrite a v s
  else bif Nat.blt a 0x40090000 then cprWrite mid a v s
  else bif Nat.blt a 0x40098000 then actWrite a v s
  else bif Nat.blt a 0x4009C000 then memcWrite a v s
  else bif Nat.blt a 0x400A0000 then arbWrite a v s
  else bif Nat.blt a 0x400E0000 then plainWrite id any a v s
  else bif Nat.blt a 0x400F8000 then plainWrite id [(⟨a, 0, 8⟩, fun x => !(a % 0x1000 == 0xF0C && x == 255))] a v s
  else bif Nat.blt a 0x50000000 then s
  else bif within 0x50008000 0x1000 a then inputWrite ((a - 0x50008000) / 0x100) a v s
  else bif Nat.blt a 0x50040000 then
    let n := (a - 0x50000000) / 0x10000
    bif Nat.ble 0x4000 (a % 0x10000) then profileWrite n a v s
    else ownTracking n (atWrite n a v) s
  else bif Nat.blt a 0x50060000 then s
  else bif Nat.blt a 0x50068000 then eventWrite a v s
  else bif Nat.blt a 0x5006A000 then trimTableWrite a v s
  else bif Nat.blt a 0x50070000 then (let t := schWrite a v s; { t with ecc := t.ecc.filter (· != a) })
  else bif Nat.blt a 0x50080000 then
    bif Nat.ble 0x400 (a % 0x1000) then storeWhole a v s else esqWrite ((a - 0x50070000) / 0x1000) a v s
  else bif Nat.blt a 0x50098000 then
    bif Nat.ble 0x400 (a % 0x1000) then storeWhole a v s else cseWrite ((a - 0x50090000) / 0x1000) a v s
  else bif Nat.blt a 0x5009A000 then crlWrite ((a - 0x50098000) / 0x100) a v s
  else bif Nat.blt a 0x500A0000 then storeWhole a v s
  else bif Nat.blt a 0x500C0000 then caeWrite a v s
  else bif Nat.blt a 0x500D0000 then ringWrite a v s
  else bif Nat.blt a 0x70000000 then storeWhole a v s
  else aonWrite mid a v s

/-- The address lies in a block that the angle domain's reset holds, while it is held. -/
def angleHeld (s : State) (a : Nat) : Bool := angleAddr a && !s.angleRuns

/-- An allowed write of the word `v` at the register or angle-memory address `a`: the cause of its bus error, if it ends in
one, and the state (R2, R18, R24, R41, R142, R162, R302). -/
def wordWrite (mid a v : Nat) (s : State) : Option Nat × State :=
  bif absentAt s a || angleHeld s a then (none, s)
  else bif within 0x50040000 0x10000 a then
    let r := toothWrite ((a - 0x50040000) / 8) (bitAt a 2) v s
    (bif r.1 then some 5 else none, r.2)
  else bif writeHeld s mid a then (some 5, s)
  else bif flagOnly mid a && flagRegister a then (none, s.wrn a (s.rdn a &&& (0xFFFFFFFF ^^^ (v &&& (regAt a).w1c))))
  else (none, regWrite mid a v s)

/-! ### Byte memories -/

/-- The bytes of the word that an access of `n` bytes writes. -/
def valueBytes (n : Nat) (v : Word) : List Byte := (wordBytes v).take n

/-- Write `n` bytes of `v` at the byte memory address `a`: a partial write meets the word, and leaves an uncorrectable one as it is
(R276, R296); a TCM in lockstep keeps its checker's copy alike (R275). -/
def byteWrite (a n : Nat) (v : Word) (s : State) : Option Nat × State :=
  let w := a / 4 * 4
  bif wordBad s a && n != 4 then (some 3, mirrorMeet a (meetWord a s))
  else
    let t := s.putBytes a (valueBytes n v)
    let t1 := match mirrorOf s a with | some b => t.putBytes b (valueBytes n v) | none => t
    let stale (x : Nat) : Bool := x == w || mirrorOf s w == some x
    (none, bif n == 4 then { t1 with ecc := t1.ecc.filter fun x => !stale x, soft := t1.soft.filter fun x => !stale x }
      else mirrorMeet a (meetWord a t1))

/-- A bus write of master `mid`: whether it succeeded, and the state with its record and its source when it did not (R11, R295,
R296, R301). -/
def busWrite (mid addr : Nat) (size : AccSize) (v : Word) (s : State) : Bool × State :=
  let a := busAddr mid addr
  let end_ (r : Option Nat × State) : Bool × State := match r.1 with
    | none => (true, r.2)
    | some c => (false, recordError mid a c true r.2)
  match judge s mid a size true with
  | .denied => (false, recordViolation mid a true s)
  | .error c => (false, recordError mid a c true s)
  | .silent => (false, s)
  | .pass =>
    match placeOf mid a with
    | .bytes =>
      bif absentAt s a then (true, s)
      else bif writeHeld s mid a then end_ (some 5, s)
      else end_ (byteWrite a (AccSize.bytes size) v s)
    | _ => end_ (wordWrite mid a v.toNat s)

/-! ### The commands -/

/-- A bus write (R11 to R18, R295 to R301). -/
def execRegisterWrite (mid : Fin 64) (addr : Word) (size : AccSize) (val : Word) (s : State) : Host.Outcome State Fault Refusal :=
  done (busWrite mid addr.toNat size val s).2

/-- A bus write of a word of a tooth table entry (R41). -/
def execToothEntryWrite (mid : Fin 64) (entry : Fin 8192) (word1 : Bool) (val : Word) (s : State) : Host.Outcome State Fault Refusal :=
  done (busWrite mid (toothAddr entry + 4 * word1.toNat) .word val s).2

/-- A bus write of a work value (R100). -/
def execWcylWrite (mid : Fin 64) (n : Fin 4) (c : Fin 24) (work : Word) (s : State) : Host.Outcome State Fault Refusal :=
  done (busWrite mid (Reg.AT_WCYL n c) .word work s).2

end Sys2Proof.Machine
end

