-- ==== Sys2Proof/Machine/Bus.lean ====
section
/-! DEFINITION. A bus read: the registers whose value is computed when they are read, the reads that have an effect, the errors of
the memories, and the commands that read (R12, R15, R35, R60, R199, R215, R275, R276, R295, R296, R301, R346). -/

namespace Sys2Proof.Machine

open Fields

/-! ### Holding copies (R15) -/

/-- The holding copy of `a` for master `mid`, used up by the read, or else the live value. -/
def readHeld (mid a : Nat) (live : Word) (s : State) : Word × State :=
  match findAt (fun _ => none) (holdKey mid a) s.hold with
  | some v => (v, { s with hold := dropAt (holdKey mid a) s.hold })
  | none => (live, s)

/-! ### Registers -/

/-- A number as a register word. -/
def asWord (v : Nat) : Word := BitVec.ofNat 32 v

/-- A read by the access codes alone: the value, and the RC fields cleared. -/
def plainRead (a : Nat) (s : State) : Word × State :=
  let rc := (regAt a).rc
  (s.rd a, bif rc == 0 then s else s.wrn a (s.rdn a &&& (0xFFFFFFFF ^^^ rc)))

/-- A read whose value replaces fields of the stored word. -/
def viewRead (a : Nat) (fs : List (Fld × Nat)) (s : State) : Word × State :=
  let r := plainRead a s
  (asWord (fs.foldl (fun w f => putBits w f.1.lo f.1.width f.2) r.1.toNat), r.2)

/-- The tooth-period counter (R76). -/
def toothCount (s : State) (n : Nat) : Nat :=
  let k := s.trk n
  bif k.edgeSeen && s.flag (AT_CTL_EN n) then min 0xFFFFFFFF (s.now - k.lastPop) else 0

/-- A read of a register of tracker `n` (R15, R35, R76). -/
def atRead (mid n a : Nat) (s : State) : Word × State :=
  let ph := (trackerAt s n s.now).phase
  bif a == Reg.AT_ANG n then (asWord (ph / 2 ^ 24), s)
  else bif a == Reg.AT_PHASEL n then (asWord ph, putHold mid (Reg.AT_PHASEH n) (asWord (ph / 2 ^ 32)) s)
  else bif a == Reg.AT_PHASEH n then readHeld mid a (asWord (ph / 2 ^ 32)) s
  else bif a == Reg.AT_TCNT n then (asWord (toothCount s n), s)
  else plainRead a s

/-- A read of a register of capture queue `n` (R60). -/
def capRegRead (mid n a : Nat) (s : State) : Word × State :=
  let r := capRead s n
  bif a == Reg.CAP_TSL n then (r.1, putHold mid (Reg.CAP_INFO n) r.2.2.1 (putHold mid (Reg.CAP_TSH n) r.2.1 r.2.2.2))
  else bif a == Reg.CAP_TSH n then readHeld mid a r.2.1 s
  else bif a == Reg.CAP_INFO n then readHeld mid a r.2.2.1 s
  else bif a == Reg.CAP_STAT n then viewRead a [(CAP_STAT_CNT n, (s.inp n).queue.length)] s
  else plainRead a s

/-- A read of a register of the lock block (R310, R314). -/
def lkbRead (mid a : Nat) (s : State) : Word × State :=
  let l := a / 4 % 64
  bif Nat.blt a 0x40010100 then (let r := lockAcquire mid l s; (lockWord r.2 l r.1, r.2))
  else bif Nat.blt a 0x40010200 then (let r := lockTry mid l s; (lockWord r.2 l r.1, r.2))
  else bif Nat.blt a 0x40010300 then (0, s)
  else bif Nat.blt a 0x40010400 then
    let k := s.lock l
    (asWord (k.owner.isSome.toNat * 2 ^ 31 + k.broken.toNat * 2 ^ 30 + k.owner.getD 0 * 2 ^ 24 + k.waiters.length * 2 ^ 16), s)
  else bif within 0x40010500 256 a then
    let w := (s.wait l).lock
    viewRead a [(LKB_WSTAT_WV l, w.isSome.toNat), (LKB_WSTAT_LOCK l, w.getD 0)] s
  else plainRead a s

/-- A read of a register of queue `q` (R329). -/
def queueRead (mid q a : Nat) (s : State) : Word × State :=
  let v := s.queue q
  bif a == Reg.Q_POP q then queuePop mid q s
  else bif a == Reg.Q_POPSTAT q then readHeld mid a (asWord v.items.length) s
  else bif a == Reg.Q_CREDIT q then
    (asWord (bif queueCredit s q then v.rsv * 2 ^ 16 + v.cred else queueDepth s q - v.items.length), s)
  else bif a == Reg.Q_STAT q then viewRead a [(Q_STAT_CNT q, v.items.length)] s
  else plainRead a s

/-- A read of a register of timer `t` (R193, R199). -/
def gptRead (t a : Nat) (s : State) : Word × State :=
  bif a == Reg.GPTt_CNT t && s.flag (GPTt_CTL_RUN t) then (asWord (gptCount s t), s)
  else bif a == Reg.GPTt_CAP t 0 then gptCapPop s t 0
  else bif a == Reg.GPTt_CAP t 1 then gptCapPop s t 1
  else bif a == Reg.GPTt_CSTAT t 0 then viewRead a [(GPTt_CSTAT_CNT t 0, (s.gpt t).ch0.queue.length)] s
  else bif a == Reg.GPTt_CSTAT t 1 then viewRead a [(GPTt_CSTAT_CNT t 1, (s.gpt t).ch1.queue.length)] s
  else plainRead a s

/-- What AON.TMR still has to count, at the nominal rate of AONCLK; it reads 0 from its expiry on (R401; DEDUCED, log entry 58). -/
def aonLeft (s : State) : Nat :=
  let ms := s.get AON_TMR_MS
  ms - min (ms - 1) ((s.time - s.power.tmrTb) / 200000)

/-- A read of a register of CPR, the debug block or the always-on domain (R1, R280, R351, R369, R403). -/
def topRead (a : Nat) (s : State) : Word × State :=
  let sec := s.clock / 200000000
  bif a == Reg.CPR_PARTID then viewRead a [(CPR_PARTID_STEP, s.fuses.step.toNat), (CPR_PARTID_VAR, s.fuses.variant.toNat)] s
  else bif a == Reg.CPR_SVC then (asWord (coasting s).toNat, s)
  else bif a == Reg.DBG_STAT then
    viewRead a [(DBG_STAT_ARBCNT, s.fuses.arbcnt.toNat), (DBG_STAT_REVK, s.fuses.revk.toNat), (DBG_STAT_STATE, s.fuses.dbg.toNat)] s
  else bif a == Reg.AON_SEC then (asWord sec, s)
  else bif a == Reg.AON_TMR then (asWord (aonLeft s), s)
  else bif a == Reg.KTL_STAT then viewRead a [(KTL_STAT_NRST10, (s.perc.resets.filter fun r => Nat.blt sec (r + 600)).length)] s
  else plainRead a s

/-- A read of the register at `a` by master `mid`: its value, and the state after the read's effect. -/
def regRead (mid a : Nat) (s : State) : Word × State :=
  bif within 0x40000420 32 a || within 0x40000460 32 a then (s.rd (a - 0x20), s)
  else bif within 0x40000600 0x50 a && a % 16 == 4 then (asWord (targetStatus s ((a - 0x40000600) / 16)), s)
  else bif Nat.blt a 0x40010000 then plainRead a s
  else bif Nat.blt a 0x40020000 then lkbRead mid a s
  else bif Nat.blt a 0x40020800 then queueRead mid ((a - 0x40020000) / 64) a s
  else bif within 0x40030000 0x400 a && a % 64 == Reg.DMA_STAT 0 % 64 then
    let n := (a - 0x40030000) / 64
    viewRead a [(DMA_STAT_QWAIT n, (dmaWaits s n).toNat)] s
  else bif Nat.blt a 0x40040000 then plainRead a s
  else bif within 0x40043000 0x100 a then plainRead a s
  else bif Nat.blt a 0x40050000 then gptRead ((a - 0x40040000) / 0x4000 * 8 + a % 0x4000 / 0x80) a s
  else bif within 0x40060000 0x300 a && a % 16 == 8 then
    let n := (a - 0x40060000) / 16
    viewRead a [(CMP_STAT_OWNED n, (cmpOwned s n && s.angleRuns).toNat)] s
  else bif Nat.blt a 0x40080000 then plainRead a s
  else bif Nat.blt a 0x40090000 then topRead a s
  else bif Nat.blt a 0x400F8000 then plainRead a s
  else bif Nat.blt a 0x50000000 then topRead a s
  else bif within 0x50008000 0x1000 a && Nat.ble 0x40 (a % 0x100) then capRegRead mid ((a - 0x50008000) / 0x100) a s
  else bif within 0x50008000 0x1000 a then plainRead a s
  else bif Nat.blt a 0x50040000 then atRead mid ((a - 0x50000000) / 0x10000) a s
  else bif within 0x5006A800 0x800 a && a % 32 == 0x14 then
    (schWord s a, (plainRead a s).2)
  else bif within 0x50098000 0xC00 a && a % 0x100 == 8 then
    let k := (a - 0x50098000) / 0x100
    viewRead a [(CRL_STAT_IDL k, (loopRested s k).toNat)] s
  else bif a == Reg.RING_CFG then viewRead a [(RING_CFG_OBS, (isObserver s).toNat)] s
  else bif a == Reg.RING_STAT then viewRead a [(RING_STAT_DEGR, (ringDegr s).toNat), (RING_STAT_OREL, (orelSeen s).toNat)] s
  else bif Nat.blt a 0x70010000 then plainRead a s
  else bif mid == 15 && (a == Reg.PST_LOSS0 || a == Reg.PST_LOSS1) then (s.rd a, s)
  else topRead a s

/-- A bus read of a word of the angle domain that holds an uncorrectable error reports it (R44, R98, R103, R105, R142, R158). -/
def wordReport (a : Nat) (s : State) : State :=
  bif !s.ecc.contains a then s
  else
    let t := s.pulse 253
    bif within 0x50000000 0x40000 a then t.setb (AT_ERRINFO_ECCP ((a - 0x50000000) / 0x10000)) true
    else bif within 0x50060000 0xB000 a then t.setb SCH_ERRINFO_ECC true
    else bif within 0x50090000 0x2000 a then t.setb (CSE_ERRINFO_ECC ((a - 0x50090000) / 0x1000)) true
    else t

/-- An allowed read of the word at the register or angle-memory address `a`. -/
def wordRead (mid a : Nat) (s : State) : Word × State :=
  bif absentAt s a then (0, s)
  else bif angleMemory a then (s.rd a, wordReport a s)
  else regRead mid a (bif within 0x5006A000 0x1000 a then wordReport a s else s)

/-! ### Byte memories -/

/-- The bytes of an access as a word, the rest zero. -/
def bytesWord (bs : List Byte) : Word := BitVec.ofNat 32 (bs.foldr (fun b acc => acc * 256 + b.toNat) 0)

/-- An allowed read of `n` bytes of a byte memory: the value, whether it meets an uncorrectable error, and the state. -/
def byteRead (a n : Nat) (s : State) : Word × Bool × State :=
  bif absentAt s a || checkerTcm s a || within 0x140F0000 0x10000 a then (0, false, s)
  else (bytesWord (s.bytes a n), wordBad s a, meetWord a s)

/-- The response of a read that ends in an error. -/
def respondError (m : Nat) (data : Word) (s : State) : State := { s with resp := { mid := m, data := data, err := true } }

/-- A bus read of master `mid`: its value unless it ends in an error, and the state with the response, the record and the source
(R11, R295, R296, R301). A debug read with side-effect inhibit set has no effect on a register (R12, R310). -/
def busRead (mid addr : Nat) (size : AccSize) (s : State) : Option Word × State :=
  let a := busAddr mid addr
  match judge s mid a size false with
  | .denied => (none, respondError mid 0 (recordViolation mid a false s))
  | .error c => (none, respondError mid 0 (recordError mid a c false s))
  | .silent => (none, s)
  | .pass =>
    match placeOf mid a with
    | .bytes =>
      let r := byteRead a (AccSize.bytes size) s
      bif r.2.1 then (none, respondError mid r.1 (recordError mid a 3 false r.2.2)) else (some r.1, respond mid r.1 r.2.2)
    | _ =>
      let r := wordRead mid a s
      (some r.1, respond mid r.1 (bif mid == 20 && s.power.inhibit then s else r.2))

/-- The words that the SECDED code of the word at `w` covers: the two of a tooth table entry (R44) or a profile slot (R98), else that
word (R103, R142, R158, R276, R296). DEDUCED: a slot's code covers its 64 bits as an entry's does (log 69). -/
def eccWords (w : Nat) : List Nat :=
  bif within 0x50040000 0x10000 w || (within 0x50000000 0x40000 w && within 0x4000 0x4000 (w % 0x10000)) then [w / 8 * 8, w / 8 * 8 + 4]
  else [w]

/-- An error arises in a protected word (R44, R296). -/
def bitError (a : Nat) (uncorrectable : Bool) (s : State) : State :=
  let w := a / 4 * 4
  bif uncorrectable then { s with ecc := s.ecc ++ (eccWords w).filter fun x => !s.ecc.contains x }
  else bif ((sramBank w).isSome || (tcmWindow w).isSome) && !s.soft.contains w then { s with soft := s.soft ++ [w] }
  else s

/-- An error arises in a protected word (R44, R276, R296, R329); in a cache line or an item that is not there nothing changes. -/
def errorAt (site : ErrorSite) (uncorrectable : Bool) (s : State) : State :=
  match site with
  | .memory a => bitError a.toNat uncorrectable s
  | .item q i => itemError q i uncorrectable s
  | .icache n a =>
    let w := a.toNat / 4 * 4
    whenS ((s.core n).ilines.contains (w / 64)) (·.modCore n fun c => { c with ibad := w :: c.ibad.filter (· != w) }) s
  | .dcache n a =>
    let w := a.toNat / 4 * 4
    whenS (findAt (fun _ => none) (w / 64) (s.core n).dlines).isSome (·.modCore n fun c =>
      bif uncorrectable then { c with dbad := w :: c.dbad.filter (· != w) } else { c with dsoft := w :: c.dsoft.filter (· != w) }) s

/-! ### The commands -/

/-- A read of a register with an RC field (R12). -/
def execRcFieldRead (mid : Fin 64) (addr : Word) (s : State) : Host.Outcome State Fault Refusal :=
  done (busRead mid addr.toNat .word s).2

/-- A read of the low word of a 64-bit register (R15). -/
def execLowWordRead (mid : Fin 64) (addr : Word) (s : State) : Host.Outcome State Fault Refusal :=
  done (busRead mid addr.toNat .word s).2

/-- A read of TSL of a capture queue (R60). -/
def execCapTslRead (mid : Fin 64) (n : Fin 16) (s : State) : Host.Outcome State Fault Refusal :=
  done (busRead mid (Reg.CAP_TSL n) .word s).2

/-- A read of CAP of a timer channel (R199). -/
def execGptCaptureRead (mid : Fin 64) (t : Fin 32) (x : Fin 2) (s : State) : Host.Outcome State Fault Refusal :=
  done (busRead mid (Reg.GPTt_CAP t x) .word s).2

/-- A read of RES of an entry of the housekeeping converter (R215). -/
def execResRead (mid : Fin 64) (j : Fin 32) (s : State) : Host.Outcome State Fault Refusal :=
  done (busRead mid (Reg.HADC_RES j) .word s).2

/-- A read that ends in an error: it is unmapped, misaligned, denied, of an offline bank or meets an uncorrectable word (R295, R296,
R301). -/
def execFailedReadAccess (mid : Fin 64) (addr : Word) (size : AccSize) (s : State) : Host.Outcome State Fault Refusal :=
  done (busRead mid addr.toNat size s).2

/-- A read of ACQ: an attempt on the lock (R310). -/
def execLockAcquire (mid lock : Fin 64) (s : State) : Host.Outcome State Fault Refusal := done (busRead mid (Reg.LKB_ACQ lock) .word s).2

/-- A read of TRY (R310). -/
def execLockTry (mid lock : Fin 64) (s : State) : Host.Outcome State Fault Refusal := done (busRead mid (Reg.LKB_TRY lock) .word s).2

/-- A write of REL (R311). -/
def execLockRelease (mid lock : Fin 64) (s : State) : Host.Outcome State Fault Refusal :=
  done (busWrite mid (Reg.LKB_REL lock) .word 0 s).2

/-- A push: a write of PUSH (R329). -/
def execQueuePush (mid : Fin 64) (q : Fin 32) (val : Word) (s : State) : Host.Outcome State Fault Refusal :=
  done (busWrite mid (Reg.Q_PUSH q) .word val s).2

/-- A pop: a read of POP (R329). -/
def execQueuePop (mid : Fin 64) (q : Fin 32) (s : State) : Host.Outcome State Fault Refusal :=
  done (busRead mid (Reg.Q_POP q) .word s).2

/-- A grant: a write of GRANT (R330). -/
def execQueueGrant (mid : Fin 64) (q : Fin 32) (k : BitVec 15) (s : State) : Host.Outcome State Fault Refusal :=
  done (busWrite mid (Reg.Q_GRANT q) .word (k.setWidth 32) s).2

/-- An error arises in a protected memory word (R44, R276, R296, R329). -/
def execMemoryBitError (addr : ErrorSite) (uncorrectable : Bool) (s : State) : Host.Outcome State Fault Refusal :=
  done (errorAt addr uncorrectable s)

end Sys2Proof.Machine
end

