-- ==== Sys2Proof/Machine/Gnorum.lean ====
section
/-! DEFINITION. What every opcode shares: the properties that the opcode tables give each opcode, the checks that the fast command
path makes of every request, images of registers, and the reply (R226 to R235, R240, R248 to R254, R304). -/

namespace Sys2Proof

/-- Parameter word `i` as a number. -/
def Req.word (r : Req) (i : Nat) : Nat := (r.params.getD i 0).toNat

/-- UNIT as a number. -/
def Req.u (r : Req) : Nat := r.unit.toNat

/-- Parameter words from `i` on as images of the registers `as`. -/
def Req.images (r : Req) (i : Nat) (as : List Nat) : List (Nat × Nat) := (as.zipIdx i).map fun p => (p.1, r.word p.2)

end Sys2Proof

namespace Sys2Proof.Machine

open Fields

/-! ### Answers -/

/-- What follows once the reply has left: the request's session is closed (R264), or PERC restarts (R255). -/
inductive After where
  | nothing
  | closeSession
  | restart
  deriving DecidableEq, Repr

/-- What an opcode answers: STATUS, DETAIL and the words from reply word 1 on (R228). -/
structure Ans where
  status : Nat
  detail : Nat := 0
  words : List Word := []
  after : After := .nothing
  deriving DecidableEq, Repr

/-- STATUS OK with words. -/
def okWith (ws : List Word) (s : State) : Ans × State := ({ status := 0, words := ws }, s)

/-- Another status: nothing of the request is applied. -/
def failWith (st : Nat) (s : State) : Ans × State := ({ status := st }, s)

/-- A status of the classes that fail a request: 0x0310 reports a clamped write (R123, R247). -/
def failed (st : Nat) : Bool := Nat.ble 256 st && st != 0x0310

/-! ### The opcode tables (R229 to R231, R248 to R251) -/

/-- FAST is allowed (R230). -/
def opcFast (o : Nat) : Bool := (Nat.ble 0x20 o && Nat.ble o 0x27) || o == 0x40

/-- ATCOMMIT is allowed: the fast opcodes that write the event or trim table (R231). -/
def opcStaged (o : Nat) : Bool := o == 0x20 || o == 0x21 || o == 0x22 || o == 0x23 || o == 0x25

/-- The opcode is listed (R249, R255 to R266). -/
def opcListed (o : Nat) : Bool :=
  Nat.ble o 0x06 || (Nat.ble 0x10 o && Nat.ble o 0x1B) || (Nat.ble 0x20 o && Nat.ble o 0x35) || (Nat.ble 0x38 o && Nat.ble o 0x3B) ||
  (Nat.ble 0x40 o && Nat.ble o 0x46) || (Nat.ble 0x50 o && Nat.ble o 0x55) || (Nat.ble 0x58 o && Nat.ble o 0x5B) ||
  o == 0x60 || o == 0x61 || (Nat.ble 0x68 o && Nat.ble o 0x6A) || (Nat.ble 0x70 o && Nat.ble o 0x74) ||
  (Nat.ble 0x80 o && Nat.ble o 0x85) || (Nat.ble 0x90 o && Nat.ble o 0x94) || (Nat.ble 0xA0 o && Nat.ble o 0xA5) ||
  (Nat.ble 0xB0 o && Nat.ble o 0xB7)

/-- The opcodes that only read: those without the W mark (R251). -/
def opcReads (o : Nat) : Bool :=
  [0x00, 0x01, 0x02, 0x03, 0x05, 0x18, 0x19, 0x1B, 0x26, 0x27, 0x34, 0x3B, 0x45, 0x51, 0x54, 0x59, 0x5B, 0x61, 0x6A, 0x70, 0x72, 0x74,
   0x91, 0xA0, 0xA2, 0xA4].contains o

/-- The opcode changes state: the W mark (R251). -/
def opcWrites (o : Nat) : Bool := opcListed o && !opcReads o

/-- The opcode is answered in ROM safe mode: the Safe mark (R251, R351). -/
def opcSafe (o : Nat) : Bool := o == 0x00 || o == 0x01 || o == 0x02 || o == 0x05 || o == 0x70 || o == 0x72 || o == 0x74

/-- The opcode acts on a block of the angle domain (R407). -/
def opcAngle (o : Nat) : Bool :=
  (Nat.ble 0x10 o && Nat.ble o 0x3F) || o == 0x40 || o == 0x44 || (Nat.ble 0x68 o && Nat.ble o 0x6F) || o == 0xB0 || o == 0xB3 || o == 0xB7

/-- The family belongs to those that a standby pair may not write (R29). -/
def opcStandby (o : Nat) : Bool :=
  (Nat.ble 0x10 o && Nat.ble o 0x57) || (Nat.ble 0x60 o && Nat.ble o 0x6F) || (Nat.ble 0x90 o && Nat.ble o 0x9F) || Nat.ble 0xB0 o

/-- LEN is the one that the opcode's parameter column gives (R249). -/
def lenOk (r : Req) : Bool :=
  let n := r.len.toNat
  let k (lo w : Nat) : Nat := bitsAt (r.word 0) lo w
  match r.opc.toNat with
  | 0x03 => n == 2
  | 0x04 => n == 3
  | 0x05 => n == 1
  | 0x06 => n == 1
  | 0x10 => n == 11
  | 0x11 => n == 1
  | 0x12 => n == 1 + 2 * k 16 13
  | 0x13 => n == 2
  | 0x15 => n == 1
  | 0x16 => n == 1 + (k 16 9 + 1) / 2
  | 0x17 => n == 1 + 2 * k 16 7
  | 0x19 => n == 1
  | 0x1A => n == 5
  | 0x20 => n == 5
  | 0x21 => n == 1
  | 0x22 => n == 3
  | 0x23 => n == 3
  | 0x24 => n == 1
  | 0x25 => n == 1 + 5 * k 0 4
  | 0x26 => n == 1
  | 0x28 => n == 5
  | 0x29 => n == 1
  | 0x2A => n == 1
  | 0x2B => n == 1 || n == 25
  | 0x2C => n == 2
  | 0x2D => n == 3
  | 0x2E => n == 1
  | 0x30 => n == 3
  | 0x31 => n == 1
  | 0x32 => n == 33
  | 0x35 => n == 2
  | 0x38 => n == 6
  | 0x39 => n == 1
  | 0x3A => n == 1
  | 0x40 => n == 2
  | 0x41 => Nat.ble 2 n
  | 0x42 => n == 3
  | 0x43 => n == 1
  | 0x44 => n == 26
  | 0x45 => n == 1
  | 0x50 =>
    let f := bitsAt (r.word 0) (HADC_SEQCFG_START 0).lo (HADC_SEQCFG_START 0).width
    let t := bitsAt (r.word 0) (HADC_SEQCFG_END 0).lo (HADC_SEQCFG_END 0).width
    n == 3 + (t + 1 - f)
  | 0x51 => n == 1
  | 0x52 => n == 1
  | 0x53 => n == 2 || (n == 3 && Nat.ble 28 r.u && r.u % 2 == 0)
  | 0x54 => n == 1
  | 0x55 => n == 1
  | 0x58 => n == 3
  | 0x5A => n == 1
  | 0x60 => n == 4
  | 0x68 => n == 2
  | 0x69 => n == 2
  | 0x70 => n == 2
  | 0x71 => n == 3
  | 0x73 => n == 1
  | 0x80 => n == 2
  | 0x81 => Nat.ble 2 n
  | 0x84 => n == 1
  | 0x90 => n == 1
  | 0x92 => n == 1
  | 0x93 => n == 1
  | 0x94 => n == 1
  | 0xA0 => n == 5
  | 0xA3 => n == 16
  | 0xA5 => n == 1
  | 0xB5 => n == 1
  | 0xB7 => n == 2
  | _ => n == 0

/-- UNIT of an update names an instance of the component that is present: 0, 0x0104, 0x0105 or 0x0501 (R2, R262, R364). -/
def compUnit (s : State) (comp unit : Nat) : Nat :=
  let one (n : Nat) (here : Bool) : Nat := bif !Nat.blt unit n then 0x0104 else bif here then 0 else 0x0501
  match comp with
  | 0 => one 1 true
  | 1 => one 2 (hasPair s unit)
  | 2 => one 1 s.hasCae
  | 3 => one 8 (s.hasEsq unit)
  | 4 => one 2 (s.hasCse unit)
  | 5 => one 4 true
  | 6 => one 8 (bif unit == 4 then s.hasCae else bif unit == 6 then s.hasCse 1 else true)
  | 7 => one 1 true
  | 8 => one 1 true
  | _ => 0x0105

/-- UNIT names a block that is present and in range: 0, 0x0104 or 0x0501 (R2, R3, R240, R247). What UNIT of an update names depends on
the component; with a component that there is not, the parameter check follows. -/
def unitStatus (s : State) (r : Req) : Nat :=
  let u := r.u
  let o := r.opc.toNat
  let unit (n : Nat) (here : Bool) : Nat := bif !Nat.blt u n then 0x0104 else bif here then 0 else 0x0501
  let one (here : Bool) : Nat := bif !here then 0x0501 else bif u == 0 then 0 else 0x0104
  bif o == 0x06 then unit 3 (u == 2 || hasPair s u)
  else bif o == 0x1A || o == 0x1B then unit 16 true
  else bif (Nat.ble 0x10 o && Nat.ble o 0x19) || o == 0x2B || o == 0x2C || o == 0x40 || o == 0xB7 then unit 4 true
  else bif o == 0x27 || o == 0x28 then unit 64 (s.hasChan u)
  else bif (Nat.ble 0x2D o && Nat.ble o 0x2F) || o == 0xB3 then unit 8 (s.hasEsq u)
  else bif o == 0x30 || o == 0x31 || o == 0x34 || o == 0xB0 then unit 12 (s.hasLoop u)
  else bif o == 0x32 || o == 0x33 || o == 0x35 then unit 2 (s.hasCse u)
  else bif o == 0x38 || o == 0x3B then unit 32 true
  else bif o == 0x3A || (Nat.ble 0x90 o && Nat.ble o 0x94) then one s.counts.carafe
  else bif o == 0x42 then bif s.hasCae then unit s.counts.maxCyl true else 0x0501
  else bif Nat.ble 0x41 o && Nat.ble o 0x46 then one s.hasCae
  else bif o == 0x50 then unit 4 true
  else bif o == 0x53 || o == 0x54 then unit 48 (cmpPresent s u)
  else bif o == 0x58 || o == 0x59 then unit 32 true
  else bif o == 0x5A || o == 0x5B then unit 16 true
  else bif o == 0x68 then one (!s.observer)
  else bif o == 0x80 || o == 0x84 then (let st := compUnit s (r.word 0 % 256) u; bif st == 0x0105 then 0 else st)
  else bif o == 0xB1 then bif s.hasCae then unit 4 true else 0x0501
  else bif o == 0xB4 then unit 2 (hasPair s u)
  else bif o == 0xB5 || o == 0xB6 then unit 12 true
  else one true

/-! ### Requesters (R238, R304) -/

/-- MID of internal requester `b` (R238). -/
def boxMid (b : Nat) : Nat := [0, 2, 4, 1, 3].getD b 0

/-- The profile word of port `k` in the active access bank (R304). -/
def portProfile (s : State) (k : Nat) : Nat :=
  let b := s.get ACT_CTL_SEL
  s.rdn (Reg.ACT_PPROF b (bitsAt (s.rdn (Reg.ACT_PORTMAP b (k / 8))) (4 * (k % 8)) 4))

/-- Security level of a requester (R234, R304): internal requesters carry no tag. -/
def secLevel (s : State) (x : Source) : Nat := match portOf x with | none => 0 | some k => bitsAt (portProfile s k) 24 2

/-- The MID under which ACT judges a requester (R255, R304). -/
def reqMid (s : State) (x : Source) : Nat :=
  match x with
  | .mailbox b => boxMid b.val
  | _ => bitsAt (portProfile s ((portOf x).getD 0)) 16 6

/-- Opcode families that a requester may use (R304). -/
def familyMask (s : State) (x : Source) : Nat :=
  match x with
  | .mailbox b => s.get (ACT_IMASK_FMASK (s.get ACT_CTL_SEL) (boxMid b.val))
  | _ => bitsAt (portProfile s ((portOf x).getD 0)) 0 12

/-- A requester of the standby pair, or of one that a takeover has put out of its role (R29, R282). -/
def fromStandby (s : State) (x : Source) : Bool :=
  match x with
  | .mailbox b => let p := boxMid b.val / 2; b.val != 2 && (pairState s p == 4 || (s.pair p).barred)
  | _ => false

/-- An internal requester. -/
def internal : Source → Bool
  | .mailbox _ => true
  | _ => false

/-! ### Checks 2 to 5 (R234, R235, R240) -/

/-- What the checks of the fast command path give. -/
inductive Front where
  | pass
  /-- the last SEQ again with the same tag: the stored reply is sent once more (R235) -/
  | again
  | fail (status : Nat)
  deriving DecidableEq, Repr

/-- The request's SEQ and tag are accepted: they and the epoch are kept (R235). -/
def seqAccept (r : Req) (x : Session) (epoch : Word) (s : State) : State :=
  s.putSession r.sess.toNat (some { x with epoch := epoch, lastSeq := some r.seq, lastTag := r.tag, lastReply := none })

/-- Check 2: tag and session (R234, R235, R265). -/
def tagCheck (r : Req) (s : State) : Front × State :=
  let o := r.opc.toNat
  let lvl := secLevel s r.src
  bif r.sess == 0 then
    bif (o != 0xA0 && (lvl == 2 || (lvl == 1 && opcWrites o))) || o == 0xA5 || o == 0xA1 then (.fail 0x0801, s) else (.pass, s)
  else bif internal r.src then (.fail 0x0802, s)
  else match s.session r.sess.toNat with
    | none => (.fail 0x0802, s)
    | some x =>
      let hdr := headerWords r.opc r.flg r.seq r.len.toNat r.unit r.sess
      let ok (e : Word) : Bool := r.tag == some (tagFor x e hdr r.params)
      match x.lastSeq with
      | none => bif ok x.epoch then (.pass, seqAccept r x x.epoch s) else (.fail 0x0801, s)
      | some q =>
        let d := (r.seq - q).toNat
        let e := bif Nat.blt r.seq.toNat q.toNat then x.epoch + 1 else x.epoch
        bif d == 0 then bif r.tag == x.lastTag then (.again, s) else bif ok x.epoch then (.fail 0x0803, s) else (.fail 0x0801, s)
        else bif Nat.ble d 32767 then bif ok e then (.pass, seqAccept r x e s) else (.fail 0x0801, s)
        else bif ok x.epoch then (.fail 0x0803, s) else (.fail 0x0801, s)

/-- Check 3: OPC, LEN and flags (R229 to R231, R249). -/
def headerStatus (r : Req) : Nat :=
  let o := r.opc.toNat
  let f := r.flg.toNat
  bif !opcListed o then 0x0101
  else bif Nat.blt 250 r.len.toNat || !lenOk r then 0x0102
  else bif bitsAt f 4 3 != 0 || (bitAt f 0 && !opcFast o) || (bitAt f 2 && !opcStaged o) then 0x0103
  else 0

/-- Checks 3 to 5 (R29, R240, R304). -/
def headStatus (s : State) (r : Req) : Nat :=
  let o := r.opc.toNat
  let h := headerStatus r
  bif h != 0 then h
  else bif !bitAt (familyMask s r.src) (o / 16) then 0x0401
  else bif fromStandby s r.src && opcWrites o && opcStandby o then 0x0403
  else unitStatus s r

/-- The access tables in force are the ROM's fallback, and `o` is none of the opcodes that R368 lets a requester reach under it. -/
def fallbackRefuses (s : State) (o : Nat) : Bool :=
  s.update.fallback && !s.flag ACT_CTL_SEL && opcListed o && !([0x00, 0x01, 0x02, 0x03, 0x05, 0x06].contains o)

/-- Checks 2 to 5 of a request (R240); under the fallback bank every opcode but a few gives 0x0401, tagged or not (R368). -/
def frontCheck (r : Req) (s : State) : Front × State :=
  bif fallbackRefuses s r.opc.toNat then (let h := headerStatus r; (.fail (bif h == 0 then 0x0401 else h), s))
  else match tagCheck r s with
  | (.pass, t) => let h := headStatus t r; (bif h == 0 then .pass else .fail h, t)
  | x => x

/-! ### Replies (R228, R229, R235) -/

/-- The reply to a request is sent, unless it is asked for none and the status is of class 0x00; a session keeps the reply to the request
whose SEQ and tag it accepted last. -/
def replyTo (r : Req) (a : Ans) (s : State) : State :=
  let rep : Reply :=
    { src := r.src, opc := r.opc, seq := r.seq, unit := r.unit, sess := r.sess, status := BitVec.ofNat 16 a.status,
      detail := BitVec.ofNat 16 a.detail, words := a.words, tag := none }
  let quiet := bitAt r.flg.toNat 1 && Nat.blt a.status 256
  let s1 := bif quiet then s else sendReply rep s
  bif r.sess == 0 || internal r.src then s1
  else bif a.after == .closeSession then s1.putSession r.sess.toNat none
  else match s1.session r.sess.toNat with
    | some x => bif x.lastSeq == some r.seq && x.lastTag == r.tag then
        s1.putSession r.sess.toNat (some { x with lastReply := bif quiet then none else some rep }) else s1
    | none => s1

/-- The stored reply is sent once more (R235). -/
def answerAgain (r : Req) (s : State) : State :=
  match (s.session r.sess.toNat).bind (·.lastReply) with
  | some rep => sendReply rep s
  | none => s

/-! ### Registers in requests (R253, R254) -/

/-- The value of a register as a read opcode returns it: no effect of the read takes place (R254). -/
def peek (s : State) (a : Nat) : Word := (wordRead 15 a s).1

/-- What the read of the word at `a` by the command path does to the memory it lies in: an error of it is met as by any read (R9, R296). -/
def readMeet (a : Nat) (s : State) : State :=
  match placeOf 15 a with
  | .bytes => let t := (byteRead a 4 s).2.2; bif wordBad s a then recordError 15 a 3 false t else t
  | _ => bif angleMemory a then wordReport a s else s

/-- The words at these addresses are read. -/
def readsMeet (as : List Nat) (s : State) : State := as.foldl (fun u a => readMeet a u) s

/-- The values of registers. -/
def peeks (s : State) (as : List Nat) : List Word := as.map (peek s)

/-- The replies of OUTEN_SET that wait and satisfy `f` are sent, with the bits as they stand (R261). -/
def lateReplies (f : Req → Bool) (s : State) : State :=
  (s.gnorum.late.filter f).foldl (fun u r => replyTo r { status := 0, words := peeks u [Reg.SCH_OUTENL, Reg.SCH_OUTENH] } u)
    { s with gnorum := { s.gnorum with late := s.gnorum.late.filter fun r => !f r } }

/-- A request is answered, after those of the same requester before it (R244). The reply of OUTEN_SET waits for the end of its tk, in
which a fault reaction may still clear a bit that it has set (R261). -/
def answer (r : Req) (a : Ans) (s : State) : State :=
  bif r.opc == 0x68 && a.status == 0 then { s with gnorum := { s.gnorum with late := s.gnorum.late ++ [r] } }
  else replyTo r a (lateReplies (fun x => x.src == r.src) s)

/-- Where the block that holds the register at `a` reports a refused write: a register and the bits of it (R13). -/
def refusalBits (a : Nat) : Nat × Nat :=
  bif Nat.blt a 0x40010000 then (Reg.IRQC_ERRINFO, 1)
  else bif Nat.blt a 0x40020000 then (Reg.LKB_ERRINFO, 1)
  else bif Nat.blt a 0x40030000 then (Reg.QM_ERRINFO, 0xF9)
  else bif Nat.blt a 0x40040000 then (Reg.DMA_STAT ((a - 0x40030000) / 64), 2 ^ 29)
  else bif Nat.blt a 0x40050000 then (Reg.GPT_ERRINFO, 0x3F)
  else bif Nat.blt a 0x40060000 then (Reg.HADC_ERRINFO, 1)
  else bif Nat.blt a 0x40070000 then (Reg.CMP_ERRINFO, 1)
  else bif Nat.blt a 0x40080000 then (Reg.PADC_ERRINFO, 1)
  else bif Nat.blt a 0x50000000 then (Reg.MEMC_ERRINFO, 1)
  else bif within 0x50008000 0x1000 a then (Reg.TI_STAT ((a - 0x50008000) / 0x100), 4)
  else bif Nat.blt a 0x50040000 then (Reg.AT_ERRINFO ((a - 0x50000000) / 0x10000), 9)
  else bif Nat.blt a 0x50070000 then (Reg.SCH_ERRINFO, 1)
  else bif Nat.blt a 0x50080000 then (Reg.ESQ_ERRINFO ((a - 0x50070000) / 0x1000), 1)
  else bif Nat.blt a 0x50098000 then (Reg.CSE_ERRINFO ((a - 0x50090000) / 0x1000), 1)
  else bif Nat.blt a 0x500A0000 then (Reg.CSE_ERRINFO ((a - 0x50098000) / 0x600), 1)
  else bif Nat.blt a 0x500C0000 then (Reg.CAE_ERRINFO, 1)
  else (Reg.RING_ERRINFO, 1)

/-- A write of the word `v` at the register or angle-memory address `a` by the command path: whether the block refuses it, and the
state with the block's report of it. -/
def imageWrite (a v : Nat) (s : State) : Bool × State :=
  let f := refusalBits a
  let old := s.rdn f.1 &&& f.2
  let keep (t : State) : State := t.wrn f.1 (t.rdn f.1 ||| old)
  match wordWrite 15 a v (s.wrn f.1 (s.rdn f.1 &&& (0xFFFFFFFF ^^^ f.2))) with
  | (some _, t) => (true, keep t)
  | (none, t) => (t.rdn f.1 &&& f.2 != 0, bif t.rdn f.1 &&& f.2 == 0 then keep t else t)

/-- The report of a refused write of the register at `a` in state `t` reaches `s`, of which nothing else changes. -/
def keepReport (a : Nat) (t s : State) : State :=
  let f := refusalBits a
  s.wrn f.1 ((s.rdn f.1 &&& (0xFFFFFFFF ^^^ f.2)) ||| (t.rdn f.1 &&& f.2))

/-- Images are written in order from parameter word `i`; the first that is refused gives its index, and nothing but the block's
report is applied (R253). -/
def writeImages (base : State) : Nat → List (Nat × Nat) → State → Sum (Nat × State) State
  | _, [], s => .inr s
  | i, (a, v) :: rest, s =>
    match imageWrite a v s with
    | (true, t) => .inl (i, keepReport a t base)
    | (false, t) => writeImages base (i + 1) rest t

/-- An opcode that writes images and answers with registers: `st` gives the status of a refusal by the index of the refused word
(R253). -/
def imageOpAt (st : Nat → Nat) (i : Nat) (imgs : List (Nat × Nat)) (reply : List Nat) (s : State) : Ans × State :=
  match writeImages s i imgs s with
  | .inl k => ({ status := st k.1, detail := k.1 }, k.2)
  | .inr t => okWith (peeks t reply) t

/-- The same with one status for every refusal. -/
def imageOp (st i : Nat) (imgs : List (Nat × Nat)) (reply : List Nat) (s : State) : Ans × State := imageOpAt (fun _ => st) i imgs reply s

/-- An opcode that answers with registers and angle memory: an uncorrectable error in one of them fails the request, and is reported
(R9, R247, R254). -/
def readOp (as : List Nat) (s : State) : Ans × State :=
  bif as.any fun a => angleMemory a && wordBad s a then failWith 0x0601 (readsMeet as s) else okWith (peeks s as) s

/-! ### Jobs (R252) -/

/-- A long-running opcode starts: `go` takes the job's number and sets the work going; with all jobs in use nothing starts. -/
def startLong (r : Req) (go : Nat → State → State) (s : State) : Ans × State :=
  match freeJob s with
  | none => failWith 0x0504 s
  | some j => ({ status := 1, detail := j }, go j (startJob j r.src r.opc r.u s))

end Sys2Proof.Machine
end

