-- ==== Sys2Proof/Machine/Kettle.lean ====
section
/-! DEFINITION. The Kettle's reset of PERC (R246, R252, R312, R349 to R351, R363, R366). -/

namespace Sys2Proof.Machine

open Fields

/-- AON seconds (R403). -/
def aonSec (s : State) : Nat := s.clock / 200000000

/-- Every job that runs ends with 0x0207, and nothing that goes on in hardware names it any more (R252). -/
def jobsAbandon (s : State) : State :=
  let s1 := upTo 16 (fun j u => endJob j 0x0207 0 u) s
  let s2 := upTo 4 (fun n u => u.modTrk n fun k => { k with switchJob := 0, gen := k.gen.map fun g => { g with job := 0 } }) s1
  let s3 := upTo 8 (fun n u => u.modEsq n fun q => { q with ubankJob := 0, testJob := 0 }) s2
  let s4 := upTo 2 (fun n u => (u.putCse n { job := 0 }).modPair n fun x => { x with testJob := 0 }) s3
  { s4 with bankJob := 0, copyJob := 0, bistJob := [], cae := { s4.cae with kbankJob := 0 },
            ring := { s4.ring with starts := s4.ring.starts.map fun r => { r with job := 0 } } }

/-- The slow requests that were queued are answered 0x0207 (R246). -/
def slowAbandon (s : State) : State :=
  s.gnorum.slow.foldl (fun u r => answer r { status := 0x0207 } u) { s with gnorum := { s.gnorum with slow := [] } }

/-- PERC's interrupt target returns to its reset state: its core, its vector base, and the sources that it was serving (R350). -/
def percCoreReset (s0 : State) : State :=
  let s := s0.wrn (Reg.IRQC_VTBASE 4) 0
  ((s.core 4).stack.foldl (fun u x => bif x.interrupt then sourceIdle x.source u else u) s).putCore 4 {}

/-- The slot key of a component and unit (R358). -/
def slotKey (comp unit : Nat) (b : Bool) : Nat := (comp * 256 + unit) * 2 + b.toNat

/-- A slot (R358). -/
def State.slot (s : State) (comp unit : Nat) (b : Bool) : Slot := findAt (fun _ => {}) (slotKey comp unit b) s.update.slots

/-- Replace a slot. A new slot state is a change of the directory, whose generation counts (R358). -/
def State.putSlot (s : State) (comp unit : Nat) (b : Bool) (v : Slot) : State :=
  { s with update := { s.update with
      slots := storeAt (fun _ => {}) (slotKey comp unit b) v s.update.slots,
      generation := bif (s.slot comp unit b).st == v.st then s.update.generation else s.update.generation + 1 } }

/-- Which slot of a component and unit the directory gives as active. -/
def activeSlot (s : State) (comp unit : Nat) : Bool := findAt (fun _ => false) (comp * 256 + unit) s.update.activeB

/-- The directory gives the other slot as active; its generation counts (R358). -/
def putActive (comp unit : Nat) (b : Bool) (s : State) : State :=
  { s with update := { s.update with activeB := storeAt (fun _ => false) (comp * 256 + unit) b s.update.activeB,
                                     generation := s.update.generation + 1 } }

/-- A reset during TRIAL: the ROM starts the slot before, and PERC has a record to write (R363). What state the slot in trial takes the
spec does not say: it is taken as VERIFIED (log entry 40). -/
def trialRevert (s : State) : State :=
  bif s.perc.trialTb.isNone then s
  else
    let b := activeSlot s 0 0
    let s1 := (s.putSlot 0 0 b { s.slot 0 0 b with st := .verified }).putSlot 0 0 (!b) { s.slot 0 0 (!b) with st := .active }
    (putActive 0 0 (!b) s1).modPerc fun p => { p with trialTb := none, reverted := true }

/-- The Kettle resets PERC alone, with the cause `c` for LCAUSE (R350, R351). -/
def kettleReset (c : Nat) (s : State) : State :=
  let sec := aonSec s
  let recent := s.perc.resets.filter fun r => Nat.blt sec (r + 600)
  let third := s.flag KTL_STAT_SAFE || Nat.ble 2 recent.length
  let s1 := (((s.wr (Reg.KTL_HIST 2) (s.rd (Reg.KTL_HIST 1))).wr (Reg.KTL_HIST 1) (s.rd (Reg.KTL_HIST 0))).wrn (Reg.KTL_HIST 0) sec).tally
    KTL_RCNT_RCNT
  let s2 := ((s1.set KTL_STAT_LCAUSE c).setb KTL_STAT_WARN false).setb KTL_STAT_SAFE third
  let s3 := trialRevert (percCoreReset (locksBreak 15 (slowAbandon (jobsAbandon (s2.set PST_STATE_MODE (bif third then 2 else 1))))))
  { s3 with
    gnorum := { s3.gnorum with staging := {} }
    update := s3.update.interrupt
    perc := { s3.perc with running := false, restarted := true, hbTb := s.time, resets := sec :: recent } }

/-- PERC takes a Kettle reset for an uncorrectable error that was met in its memory, where it has a clock (R350). -/
def memoryTrap (s : State) : State :=
  bif !s.perc.memBad then s
  else whenS (Nat.blt (s.get CPR_PWRSTAT_STATE) 3) (kettleReset 3) { s with perc := { s.perc with memBad := false } }

/-- The code of a cause (KTL.STAT.LCAUSE). -/
def causeCode : KettleCause → Nat
  | .heartbeat => 1
  | .command => 2
  | .trap => 3

/-- A reset is due: at the full count for a missing heartbeat, at once for the others; while PERC has a clock (R349, R350, R397). -/
def kettleDue (s : State) (c : KettleCause) : Bool :=
  Nat.blt (s.get CPR_PWRSTAT_STATE) 3 && match c with
    | .heartbeat => kettlePast s (kettleCount s)
    | _ => true

/-- A Kettle reset (R350). -/
def execKettleReset (cause : KettleCause) (s : State) : Host.Outcome State Fault Refusal :=
  done (whenS (kettleDue s cause) (kettleReset (causeCode cause)) s)

end Sys2Proof.Machine
end

