-- ==== Sys2Proof/Machine/OpSystem.lean ====
section
/-! DEFINITION. The system opcodes (R255). -/

namespace Sys2Proof.Machine

open Fields

/-- PING: TB at execution. -/
def opPing (_ : Req) (s : State) : Ans × State := okWith [s.tb.extractLsb' 0 32, s.tb.extractLsb' 32 32] s

/-- The bytes of an image word (R356). -/
def Slot.word (x : Slot) (i : Nat) : Word :=
  let b (k : Nat) : Byte := x.bytes.getD (4 * i + k) 0
  wordOfBytes (b 0) (b 1) (b 2) (b 3)

/-- VERSION of the image in use of a component and unit (R356); what is reported with no image the spec does not say: a free value. -/
def imageVersion (comp unit : Nat) (s : State) : Word × State :=
  let x := s.slot comp unit (activeSlot s comp unit)
  bif Nat.blt x.bytes.length 192 then s.drawWord else (x.word 2, s)

/-- INFO. The spec gives no source of the ROM version: a free value. -/
def opInfo (_ : Req) (s : State) : Ans × State :=
  let rom := s.drawWord
  let perc := imageVersion 0 0 rom.2
  let a := imageVersion 1 0 perc.2
  let b := imageVersion 1 1 a.2
  okWith [peek s Reg.CPR_PARTID, rom.1, perc.1, a.1, b.1, asWord s.fuses.dbg.toNat] b.2

/-- The low half-word is `a`, the high one `b`. -/
def halves (a b : Nat) : Word := asWord (a % 65536 + b % 65536 * 65536)

/-- The published state of tracker `n`, SSTAT[31:16]. -/
def trackerHalf (s : State) (n : Nat) : Nat := s.rdn (Reg.AT_SSTAT n) / 65536

/-- STATUS. Word 3 shows one bit for each pair in service, pair A in bit 1 (DEDUCED, log entry 41). -/
def opStatus (_ : Req) (s : State) : Ans × State :=
  let pairs := s.get CPR_DPXSTAT_ACT + 2 * (pairInService s 0).toNat + 4 * (pairInService s 1).toNat + 8 * (coasting s).toNat
  let kettle := (s.flag KTL_STAT_SAFE).toNat + 256 * bitsAt (peek s Reg.KTL_STAT).toNat 24 8
  okWith [halves (trackerHalf s 0) (trackerHalf s 1), halves (trackerHalf s 2) (trackerHalf s 3), asWord pairs, asWord kettle,
    s.rd Reg.SCH_OUTENL, s.rd Reg.SCH_OUTENH] s

/-- The word at `a` as master `mid` may read it, without an effect of the read: a status, and the value (R254, R255, R296). -/
def readWord (s : State) (mid a : Nat) : Sum Nat Word :=
  match judge s mid a .word false with
  | .pass =>
    match placeOf mid a with
    | .bytes => bif wordBad s a then .inl 0x0601 else .inr (byteRead a 4 s).1
    | _ => bif angleMemory a && wordBad s a then .inl 0x0601 else .inr (peek s a)
  | _ => .inl 0x0402

/-- The words at consecutive addresses, or the first status and its index. -/
def peekWords (s : State) (mid : Nat) : List Nat → Nat → Sum (Nat × Nat) (List Word)
  | [], _ => .inr []
  | a :: rest, i =>
    match readWord s mid a with
    | .inl st => .inl (st, i)
    | .inr w => match peekWords s mid rest (i + 1) with
      | .inl e => .inl e
      | .inr ws => .inr (w :: ws)

/-- REG_READ, judged by ACT under the requester's MID. The words are read in order, up to the first that cannot be (R255, R296). -/
def opRegRead (r : Req) (s : State) : Ans × State :=
  let n := r.word 1
  bif !(Nat.ble 1 n && Nat.ble n 64) then failWith 0x0105 s
  else
    let as := wordAddrs (busAddr (reqMid s r.src) (r.word 0)) n
    match peekWords s (reqMid s r.src) as 0 with
    | .inl (st, i) => failWith st (readsMeet (as.take (bif st == 0x0601 then i + 1 else i)) s)
    | .inr ws => okWith ws (readsMeet as s)

/-- ACT lets the requester write the word at `a`, and PERC may make the write (R17, R255, R299, R300). -/
def mayWrite (s : State) (mid a : Nat) : Bool :=
  regionGrants s mid a true && !revoked s mid && !readOnlyRange a &&
    match judge s 15 a .word true with
    | .pass => true
    | _ => false

/-- A requester that ACT grants no write of a flag register still clears its flags: PERC makes the write, and only W1C fields act (R18). -/
def mayClear (s : State) (a : Nat) : Bool :=
  flagRegister a && match judge s 15 a .word true with
    | .pass => true
    | _ => false

/-- The value that a masked write puts to a register: its RW fields outside the mask as they are, every other bit zero. -/
def maskedValue (s : State) (a v m : Nat) : Nat :=
  let keep := bif placeOf 15 a == .bytes || angleMemory a then 0xFFFFFFFF else (regAt a).rw ||| (regAt a).rwl
  ((readWord s 15 a).elim (fun _ => 0) (·.toNat) &&& keep &&& (0xFFFFFFFF ^^^ m)) ||| (v &&& m)

/-- A block without a report of its own refused the write of `v` at `a` between `s` and `t`: the checkpoint was not committed (R281), or a
field did not take its value (R13, R255). -/
def silentRefusal (a v : Nat) (s t : State) : Bool :=
  let d := regAt a
  let pair := a == Reg.CPR_PAIRCTL 0 || a == Reg.CPR_PAIRCTL 1
  let m := bif pair then 0xFF0007 else d.rw ||| d.rwl
  bif absentAt s a then false
  else bif a == Reg.CPR_CKCOMMIT then t.get CPR_DPXSTAT_CKSEQ == s.get CPR_DPXSTAT_CKSEQ
  else bif within 0x40080000 0x18000 a || within 0x4009C000 0x64000 a || within 0x70010000 0x10000 a then t.rdn a &&& m != v &&& m
  else false

/-- REG_WRITE: PERC makes it as a bus write. A masked write reads the word first; one in memory that holds an uncorrectable error then fails
(R247, R296). -/
def opRegWrite (r : Req) (s : State) : Ans × State :=
  let mid := reqMid s r.src
  let a := busAddr mid (r.word 0)
  bif !mayWrite s mid a then
    bif !mayClear s a then failWith 0x0402 s
    else
      let t := (wordWrite mid a (r.word 1 &&& r.word 2) s).2
      okWith [(readWord t 15 a).elim (fun _ => 0) id] t
  else
    let v := maskedValue s a (r.word 1) (r.word 2)
    let bytes := placeOf 15 a == .bytes
    let part := (bytes || angleMemory a) && r.word 2 != 0xFFFFFFFF
    let s1 := whenS part (readMeet a) s
    bif part && wordBad s a then failWith 0x0601 s1
    else
      let w := bif bytes then (let w := busWrite 15 a .word (asWord v) s1; (!w.1, w.2)) else imageWrite a v s1
      bif w.1 || (!bytes && silentRefusal a v s1 w.2) then failWith 0x0105 w.2
      else okWith [(readWord w.2 15 a).elim (fun _ => 0) id] w.2

/-- The code of a job's state (R255). -/
def jobCode : JobState → Nat
  | .free => 0
  | .running => 1
  | .ended => 2

/-- JOB_QUERY: the final status frees the slot (R252). In the tk in which its job ends it still reports it running (R268). -/
def opJobQuery (r : Req) (s : State) : Ans × State :=
  let j := r.word 0 % 16
  let x := s.job j
  bif x.st == .free then okWith [0, 0] s
  else bif x.owner != r.src then failWith 0x0105 s
  else
    let going := x.st == .running || x.endTb == s.time
    let w := asWord ((bif going then 1 else jobCode x.st) + x.opc.toNat * 65536)
    bif going then okWith [w, 0] s else okWith [w, x.detail ++ x.status] (s.putJob j {})

/-- Pair `p` is reset: a standby takes over from an active pair, then RUN is cleared and set (R30, R255, R279). -/
def pairRestart (p : Nat) (s : State) : State :=
  let s1 := whenS (takesOver s p) (takeOver (1 - p)) s
  bif pairState s1 p == 0 then s1 else pairRun p (pairRunClear p s1)

/-- RESET_UNIT. -/
def opResetUnit (r : Req) (s : State) : Ans × State :=
  let u := r.u
  bif u == 2 then ({ status := 0, after := .restart }, s)
  else bif pairInService s u && !pairInService s (1 - u) && !bitAt (r.word 0) 0 then failWith 0x0218 s
  else okWith [] (pairRestart u s)

end Sys2Proof.Machine
end

