-- ==== Sys2Proof/Machine/OpTracker.lean ====
section
/-! DEFINITION. The opcodes of trackers, wheels and timed inputs (R256, R266: TRK_GEN stands in OpTest.lean). -/

namespace Sys2Proof.Machine

open Fields

/-- TRK_CFG. The images are checked as parameters before the state of the tracker (R240). -/
def opTrkCfg (r : Req) (s : State) : Ans × State :=
  let n := r.u
  let as := [Reg.AT_SCFG n, Reg.AT_CAMCFG n, Reg.AT_PCFG n, Reg.AT_GSPD n, Reg.AT_WIN0 n, Reg.AT_WIN1 n, Reg.AT_WIN2 n, Reg.AT_RVOFS n,
    Reg.AT_LCFG n, Reg.AT_FF n, Reg.AT_WREF n]
  let on := s.flag (AT_CTL_EN n)
  let dir := on && changes s [AT_SCFG_DIRSRC n, AT_SCFG_DIRTRK n] (r.word 0)
  let cam := on && changes s [AT_CAMCFG_CAMSRC n] (r.word 1)
  let imgs := r.images 0 as
  match writeImages s 0 imgs (s.setb (AT_CTL_EN n) false) with
  | .inl k => ({ status := 0x0105, detail := k.1 }, k.2)
  | .inr _ => imageOpAt (fun i => bif (i == 0 && dir) || (i == 1 && cam) then 0x0210 else 0x0105) 0 imgs as s

/-- Why the use of descriptor `d` of tracker `n` is refused: a status, or 0 (R37, R40, R72). -/
def wheelRefusal (s : State) (n d : Nat) : Nat :=
  bif (wheelOf s n d).cnt == 0 then 0x0122
  else bif s.get (AT_SCFG_DIRSRC n) == 2 && wheelSymmetric s n d then 0x0105
  else bif rangeRefused s n d then 0x0121
  else 0

/-- A change of wheel that R40 or R72 rejects: the request fails, and the tracker's ERRINFO shows it. -/
def wheelFail (n status : Nat) (s : State) : Ans × State := failWith status (s.setb (AT_ERRINFO_PARAM n) true)

/-- TRK_EN. -/
def opTrkEn (r : Req) (s : State) : Ans × State :=
  let n := r.u
  let on := bitAt (r.word 0) 0
  let bad := bif on && !s.flag (AT_CTL_EN n) then wheelRefusal s n (s.get (AT_WCFG_ACTSEL n)) else 0
  bif bad != 0 then wheelFail n bad s
  else
    let t := ownTracking n (bif on then trackerEnable n else trackerDisable n) s
    okWith [peek t (Reg.AT_SSTAT n)] t

/-- The staging buffer is held by a requester other than `x` (R256). -/
def stagingHeld (s : State) (x : Source) : Bool :=
  match s.gnorum.staging.owner with
  | some o => o != x && Nat.blt s.time (s.gnorum.staging.lastTb + 200000000)
  | none => false

/-- Change the staging buffer. -/
def State.modStaging (s : State) (f : Staging → Staging) : State := { s with gnorum := { s.gnorum with staging := f s.gnorum.staging } }

/-- WHEEL_STAGE. -/
def opWheelStage (r : Req) (s : State) : Ans × State :=
  let first := bitsAt (r.word 0) 0 12
  let k := bitsAt (r.word 0) 16 13
  bif !(Nat.ble 1 k && Nat.ble k 124 && Nat.ble (first + k) 4096) then failWith 0x0105 s
  else bif stagingHeld s r.src then failWith 0x0206 s
  else okWith [] (s.modStaging fun g =>
    { owner := some r.src, lastTb := s.time,
      words := (List.range (2 * k)).foldl (fun l i => putAt (2 * first + i) (r.params.getD (1 + i) 0) l) g.words })

/-- Entry `i` of the staging buffer. -/
def stagedEntry (s : State) (i : Nat) : Word × Word :=
  (findAt (fun _ => 0) (2 * i) s.gnorum.staging.words, findAt (fun _ => 0) (2 * i + 1) s.gnorum.staging.words)

/-- The range of a wheel that is to be written conflicts with one in use (R40, R41): `own` says whether the tracker's own active range
counts too. -/
def loadConflict (s : State) (n : Nat) (w : Wheel) (own : Bool) : Bool :=
  Nat.blt 8192 (w.base + w.cnt) || (own && s.flag (AT_CTL_EN n) && (activeWheel s n).overlaps w) ||
    someBelow 4 fun m => m != n && (rangesInUse s m).any w.overlaps

/-- Entries are written to the tooth table from `base`. -/
def writeEntries (base : Nat) (es : List (Word × Word)) (s : State) : State :=
  es.zipIdx.foldl (fun u x =>
    let a := toothAddr (base + x.2)
    { ((u.wrn a (x.1.1.toNat &&& 0x0FFFFFFF)).wr (a + 4) x.1.2) with ecc := u.ecc.filter fun e => e != a && e != a + 4 }) s

/-- A checked wheel is written, with descriptor `d` of tracker `n` and its nominal gap (R256). -/
def putWheel (n d w0 ngap : Nat) (es : List (Word × Word)) (s : State) : Ans × State :=
  let desc := bif d == 0 then Reg.AT_WDESC0 n else Reg.AT_WDESC1 n
  let gap := bif d == 0 then Reg.AT_NGAP0 n else Reg.AT_NGAP1 n
  let image := putBits w0 30 1 0
  match imageOp 0x0105 0 [(desc, image), (gap, ngap)] [] (writeEntries (bitsAt w0 0 13) es s) with
  | (a, t) => (a, bif a.status == 0 then t else s)

/-- WHEEL_LOAD: it ends the hold of the staging buffer. -/
def opWheelLoad (r : Req) (s0 : State) : Ans × State :=
  let n := r.u
  let w0 := r.word 0
  let pend := bitAt w0 30
  let d := bif pend then 1 - s0.get (AT_WCFG_ACTSEL n) else s0.get (AT_WCFG_ACTSEL n)
  let w : Wheel := { base := bitsAt w0 0 13, cnt := bitsAt w0 16 13, span720 := bitAt w0 31, ngap := r.word 1 }
  let es := (List.range w.cnt).map (stagedEntry s0)
  let s := s0.modStaging fun g => { g with owner := none }
  bif stagingHeld s0 r.src then failWith 0x0206 s0
  else match checkWheel w.span720 (s.flag (AT_WCFG_CYCLE n)) es with
    | some i => ({ status := 0x0120, detail := i }, s)
    | none =>
      bif loadConflict s n w pend then failWith 0x0121 s
      else bif bif pend then s.flag (AT_WCFG_SWREQ n) else s.flag (AT_CTL_EN n) then wheelFail n 0x0210 s
      else putWheel n d w0 (r.word 1) es s

/-- WHEEL_SWITCH. -/
def opWheelSwitch (r : Req) (s : State) : Ans × State :=
  let n := r.u
  let bad := wheelRefusal s n (1 - s.get (AT_WCFG_ACTSEL n))
  bif bad != 0 then wheelFail n bad s
  else bif s.flag (AT_WCFG_SWREQ n) then failWith 0x0206 s
  else startLong r (fun j u => ownTracking n (fun v => switchRequest n (v.modTrk n fun k => { k with switchJob := j })) u) s

/-- SYNC_CTL. -/
def opSyncCtl (r : Req) (s : State) : Ans × State :=
  let n := r.u
  let v := r.word 0
  bif !(v == 1 || v == 2 || v == 4 || v == 8) then failWith 0x0105 s
  else bif Nat.ble 4 v && syncState s n != 3 then failWith 0x0201 s
  else imageOp 0x0105 0 [(Reg.AT_SCTL n, v)] [Reg.AT_SSTAT n] s

/-- CORR_LOAD. -/
def opCorrLoad (r : Req) (s : State) : Ans × State :=
  let n := r.u
  let first := bitsAt (r.word 0) 0 12
  let k := bitsAt (r.word 0) 16 9
  let w := activeWheel s n
  bif !(Nat.ble 1 k && Nat.ble k 496 && Nat.ble (first + k) w.cnt) then failWith 0x0105 s
  else
    let one (i : Nat) (u : State) : State :=
      let e := w.base + first + i
      let c := bitsAt (r.word (1 + i / 2)) (16 * (i % 2)) 16
      bif Nat.blt e 8192 then (toothWrite e true (c * 65536 + u.rdn (toothAddr e + 4) % 65536) u).2 else u
    okWith [] (learnRestart n (upTo k one s))

/-- PROF_LOAD: a slot that names a cylinder which the variant lacks fails as one with a reserved CYL does (R3). -/
def opProfLoad (r : Req) (s : State) : Ans × State :=
  let n := r.u
  let first := bitsAt (r.word 0) 0 11
  let k := bitsAt (r.word 0) 16 7
  bif !(Nat.ble 1 k && Nat.ble k 124 && Nat.ble (first + k) 2048) then failWith 0x0105 s
  else
    let imgs := r.images 1 (wordAddrs (0x50000000 + n * 0x10000 + 0x4000 + 8 * first) (2 * k))
    match imgs.findIdx? fun x => x.1 % 8 == 4 && Nat.ble s.counts.maxCyl (x.2 % 32) && Nat.blt (x.2 % 32) 24 with
    | none => imageOp 0x0105 1 imgs [] s
    | some i => match imageOp 0x0105 1 (imgs.take i) [] s with
      | (a, t) => bif a.status == 0 then ({ status := 0x0105, detail := 1 + i }, s) else (a, t)

/-- TRK_READ. -/
def opTrkRead (r : Req) (s : State) : Ans × State :=
  let n := r.u
  okWith (peeks s [Reg.AT_ANG n, Reg.AT_RATE n, Reg.AT_ACC n, Reg.AT_SSTAT n, Reg.AT_SFLT n, Reg.AT_PSTAT n, Reg.AT_TPER n, Reg.AT_PEXP n,
    Reg.AT_CFLT n, Reg.AT_WVAL n]) s

/-- PSTORE_READ. -/
def opPstoreRead (r : Req) (s : State) : Ans × State :=
  let first := bitsAt (r.word 0) 0 12
  let k := bitsAt (r.word 0) 16 8
  bif !(Nat.ble 1 k && Nat.ble k 248 && Nat.ble (first + k) 4096) then failWith 0x0105 s
  else readOp (wordAddrs (0x50050000 + r.u * 0x4000 + 4 * first) k) s

/-- Registers of TI_CFG. -/
def inputRegs (n : Nat) : List Nat := [Reg.TI_CFG n, Reg.TI_FLT n, Reg.TI_DWCFG n, Reg.TI_VRCFG n, Reg.TI_VRTO n]

/-- The report of a refused write of CFG in state `t` reaches `s`: PARAM of the input, and of the tracker that DEST names (R46, R253). -/
def reportInput (n d : Nat) (t s : State) : State :=
  whenS (Nat.ble 1 d && Nat.ble d 4) (·.setb (AT_ERRINFO_PARAM (d - 1)) true) (keepReport (Reg.TI_CFG n) t s)

/-- TI_CFG: CFG, which can set EN and LOCK, is written after the others. -/
def opTiCfg (r : Req) (s : State) : Ans × State :=
  let n := r.u
  let imgs := r.images 0 (inputRegs n)
  let held := s.flag (TI_CFG_LOCK n)
  match imgs.findIdx? fun x => held && (s.rdn x.1 ^^^ x.2) &&& (regAt x.1).rwl != 0 with
  | some i => ({ status := 0x0124, detail := i }, s)
  | none => match writeImages s 1 (imgs.drop 1) s with
    | .inl k => ({ status := 0x0105, detail := k.1 }, k.2)
    | .inr t => match imageOp 0x0105 0 (imgs.take 1) (inputRegs n) t with
      | (a, u) => (a, bif a.status == 0 then u else reportInput n (inWord (TI_CFG_DEST n) (r.word 0)) u s)

/-- TI_READ. -/
def opTiRead (r : Req) (s : State) : Ans × State :=
  let n := r.u
  okWith (peeks s [Reg.TI_STAT n, Reg.TI_VRSTAT n, Reg.CAP_STAT n]) s

/-- The staging buffer is let go when 1 s passes with no staging write (R256). -/
def stagingTimeout (s : State) : State :=
  bif s.gnorum.staging.owner.isSome && Nat.ble (s.gnorum.staging.lastTb + 200000000) s.time then s.modStaging fun g => { g with owner := none }
  else s

/-- 1 s without a staging write (R256). -/
def execStagingBufferTimeout (s : State) : Host.Outcome State Fault Refusal := done (byPerc s stagingTimeout)

end Sys2Proof.Machine
end

