-- ==== Sys2Proof/Machine/OpEvent.lean ====
section
/-! DEFINITION. The opcodes of events, banks and sequencers (R257, R268). -/

namespace Sys2Proof.Machine

open Fields

/-! ### Descriptors -/

/-- The bank that BANK of a request names, for a descriptor of channel `c` (R257). -/
def bankOf (s : State) (sel c : Nat) : Bool :=
  let act := bitAt (s.get SCH_BSTAT_ACT) (chanTrk s c)
  match sel with
  | 0 => act
  | 1 => !act
  | 2 => false
  | _ => true

/-- Event and bank that word `w` of a request names; the channel is that of the event's descriptor in bank A (log entry 20). -/
def eventNamed (s : State) (w : Nat) : Nat × Bool :=
  let e := bitsAt w 0 10
  (e, bankOf s (bitsAt w 30 2) (eventChanA s e))

/-- A whole descriptor replaces another between two passes (R104). -/
def putDesc (b : Bool) (e w0 w1 w2 w3 : Nat) (s : State) : State :=
  let a := eventAddr b e
  let t := ((((holdWords (wordAddrs a 4) s).wrn a w0).wrn (a + 4) w1).wrn (a + 8) w2).wrn (a + 12) w3
  { t with ecc := t.ecc.filter fun x => !within a 16 x }

/-- A checked descriptor write: its status, and the state (R123). -/
def descWrite (b : Bool) (e w0 w1 w2 w3 : Nat) (s : State) : Nat × State :=
  match envDescriptor s b e w0 w1 w2 w3 with
  | (st, v0, v1, v2, v3) => bif failed st then (st, s) else (st, putDesc b e v0 v1 v2 v3 s)

/-- EVT_WRITE of the five parameter words from `i`: status, bank, event, and the state. A reserved value fails, and so does a channel
that the variant lacks, and a cylinder at or above the variant's count (R3; DEDUCED, log entry 42). -/
def groupWrite (r : Req) (i : Nat) (s : State) : Nat × Bool × Nat × State :=
  let e := bitsAt (r.word i) 0 10
  let d := descOf (r.word (i + 1)) (r.word (i + 2)) (r.word (i + 3)) (r.word (i + 4)) 0 0
  let b := bankOf s (bitsAt (r.word i) 30 2) d.ch
  bif d.reserved || !s.hasChan d.ch || Nat.ble s.counts.maxCyl d.cyl then (0x0105, b, e, s)
  else
    let x := descWrite b e (r.word (i + 1)) (r.word (i + 2)) (r.word (i + 3)) (r.word (i + 4)) s
    (x.1, b, e, x.2)

/-- EVT_WRITE. -/
def opEvtWrite (r : Req) (s : State) : Ans × State :=
  match groupWrite r 0 s with
  | (st, b, e, t) => bif failed st then failWith st s else ({ status := st, words := peeks t (wordAddrs (eventAddr b e) 4) }, t)

/-- EVT_EN: setting EN is a descriptor write, clearing it is not checked (R123). -/
def opEvtEn (r : Req) (s : State) : Ans × State :=
  let x := eventNamed s (r.word 0)
  let a := eventAddr x.2 x.1
  let w0 := putBits (s.rdn a) 25 1 (bitsAt (r.word 0) 16 1)
  match descWrite x.2 x.1 w0 (s.rdn (a + 4)) (s.rdn (a + 8)) (s.rdn (a + 12)) s with
  | (st, t) =>
    bif eventBad s x.2 x.1 then failWith 0x0601 s
    else bif failed st then failWith st s
    else ({ status := st, words := [peek t a] }, t)

/-- A checked trim write of event `e`, answered with the trim entry (R123). It stands over a write that a loop made in the same tk: `s`
is the state with that write taken back, `s0` the one that a refusal leaves (R166). -/
def trimEntryWrite (e : Nat) (at_ dt : Int) (s s0 : State) : Ans × State :=
  match envTrim s e at_ dt with
  | (st, a, d) =>
    bif failed st then failWith st s0
    else
      let u := trimStands e (putDtrim e d (putAtrim e a s))
      let t := { u with ecc := u.ecc.filter fun x => !within (trimAddr e) 8 x }
      ({ status := st, words := peeks t (wordAddrs (trimAddr e) 2) }, t)

/-- TRIM_WRITE. -/
def opTrimWrite (r : Req) (s0 : State) : Ans × State :=
  let w := r.word 0
  let e := bitsAt w 0 10
  let s := trimsBack e s0
  trimEntryWrite e (bif bitAt w 31 then signedOf 24 (r.word 1) else atrimOf s e) (bif bitAt w 30 then signedOf 16 (r.word 2) else dtrimOf s e) s s0

/-- TRIM_ADD: each sum saturates at the limits of its field before the check. -/
def opTrimAdd (r : Req) (s0 : State) : Ans × State :=
  let w := r.word 0
  let e := bitsAt w 0 10
  let s := trimsBack e s0
  let at_ := atrimOf s e + (bif bitAt w 31 then signedOf 24 (r.word 1) else 0)
  let dt := dtrimOf s e + (bif bitAt w 30 then signedOf 16 (r.word 2) else 0)
  bif s.ecc.any fun x => within (trimAddr e) 8 x then failWith 0x0601 s0
  else trimEntryWrite e (clampInt (-8388608) 8388607 at_) (clampInt (-32768) 32767 dt) s s0

/-- Why a fire command for event `e` is refused: a status, or 0 (R105, R107). -/
def fireRefusal (s : State) (e : Nat) : Nat :=
  let b := eventBank s e
  let d := eventDesc s b e
  bif eventBad s b e then 0x0601
  else bif d.mode != 3 || d.trig != 32 then 0x0105
  else bif !d.en then 0x0211
  else bif descInvalid s d ((ownerOf s d.ch).bind (groupOf s)) then 0x0105
  else bif !ownerRuns s d.ch then 0x0211
  else bif occLive s e then 0x0213
  else 0

/-- EVT_FIRE: the trigger is the tk in which the request completes. -/
def opEvtFire (r : Req) (s : State) : Ans × State :=
  let e := bitsAt (r.word 0) 0 10
  let st := fireRefusal s e
  bif st != 0 then failWith st s else okWith [s.tb.extractLsb' 0 32, s.tb.extractLsb' 32 32] (tdStart e s.now s)

/-- Groups `i` to `k - 1` in order: their statuses, and the state. -/
def writeGroups (r : Req) (k : Nat) (s : State) : List Nat × State :=
  (List.range k).foldl (fun p i => match groupWrite r (1 + 5 * i) p.2 with | (st, _, _, t) => (p.1 ++ [st], t)) ([], s)

/-- EVT_WRITE_N. -/
def opEvtWriteN (r : Req) (s : State) : Ans × State :=
  let k := bitsAt (r.word 0) 0 4
  bif !(Nat.ble 1 k && Nat.ble k 8) then failWith 0x0105 s
  else
    let x := writeGroups r k s
    let bad := x.1.filter failed
    let ws := x.1.map asWord
    bif bad.isEmpty then ({ status := bif x.1.contains 0x0310 then 0x0310 else 0, words := ws }, x.2)
    else ({ status := bad.foldl min 0xFFFF, detail := x.1.findIdx failed, words := ws }, s)

/-- EVT_READ. -/
def opEvtRead (r : Req) (s : State) : Ans × State :=
  let x := eventNamed s (r.word 0)
  readOp (wordAddrs (eventAddr x.2 x.1) 4 ++ wordAddrs (trimAddr x.1) 2) s

/-! ### Channels and banks -/

/-- Envelope registers of channel `c`. -/
def envRegs (c : Nat) : List Nat := [Reg.SCH_CHCFG c, Reg.SCH_MAXDUR c, Reg.SCH_WIDTH c, Reg.SCH_WLO c, Reg.SCH_WHI c]

/-- CH_READ. -/
def opChRead (r : Req) (s : State) : Ans × State := okWith (peeks s (envRegs r.u ++ [Reg.SCH_CHSTAT r.u])) s

/-- ENV_WRITE. The images are checked as parameters before the state of the channel (R240). -/
def opEnvWrite (r : Req) (s : State) : Ans × State :=
  let c := r.u
  let imgs := r.images 0 (envRegs c)
  match writeImages s 0 imgs ((outenClear c s).modUnit c fun x => { x with edges := [] }) with
  | .inl k => ({ status := 0x0105, detail := k.1 }, k.2)
  | .inr _ => imageOp 0x0212 0 imgs (envRegs c) s

/-- BANK_SWITCH. -/
def opBankSwitch (r : Req) (s : State) : Ans × State :=
  let v := r.word 0
  bif !bitAt v 31 || bitAt v 30 then failWith 0x0105 s
  else bif switchRefused s (bitsAt v 0 4) then failWith 0x0214 (bankRefuse s)
  else startLong r (fun j u => bctlWrite v { u with bankJob := j }) s

/-- A copy over bank `b` would hit the active bank of an enabled tracker with no switch pending (R121). -/
def copyHits (s : State) (b : Bool) : Bool :=
  someBelow 4 fun n => s.flag (AT_CTL_EN n) && bitAt (s.get SCH_BSTAT_ACT) n == b && !bitAt (s.get SCH_BSTAT_PEND) n

/-- BANK_COPY. -/
def opBankCopy (r : Req) (s : State) : Ans × State :=
  let src := bitAt (r.word 0) 4
  bif copyHits s (!src) then failWith 0x0209 s
  else bif s.flag SCH_BSTAT_COPYBUSY then failWith 0x0214 (bankRefuse s)
  else startLong r (fun j u => bankCopyStart { (u.setb SCH_BCTL_SRC src) with copyJob := j }) s

/-- BANK_ANG. -/
def opBankAng (r : Req) (s : State) : Ans × State :=
  let crefs := bif r.len == 1 then [] else (List.range 24).map Reg.SCH_CREF
  imageOp 0x0105 0 (r.images 0 (Reg.SCH_BANG r.u :: crefs)) [] s

/-- HORIZON. -/
def opHorizon (r : Req) (s : State) : Ans × State := imageOp 0x0105 0 (r.images 0 [Reg.SCH_HT r.u, Reg.SCH_HA r.u]) [] s

/-! ### Sequencers -/

/-- ESQ_ASSIGN. -/
def opEsqAssign (r : Req) (s : State) : Ans × State :=
  let n := r.u
  let as := [Reg.ESQ_OWN n, Reg.ESQ_EVRNG n, Reg.ESQ_CFG n]
  imageOp (bif esqRunning s n then 0x0210 else 0x0105) 0 (r.images 0 as) as s

/-- ESQ_CTL: FCLR acts before RUN. -/
def opEsqCtl (r : Req) (s : State) : Ans × State :=
  let n := r.u
  let v := r.word 0 &&& 9
  let fault := s.get (ESQ_STAT_STATE n) == 2 && !bitAt v 3
  imageOp (bif fault then 0x021A else 0x0105) 0 [(Reg.ESQ_CTL n, v)] [Reg.ESQ_STAT n, Reg.ESQ_FLT n] s

/-- ESQ_UBANK. A switch already asked for holds the sequencer: BUSY. -/
def opEsqUbank (r : Req) (s : State) : Ans × State :=
  let n := r.u
  bif !esqRunning s n then failWith 0x0211 s
  else bif s.flag (ESQ_CTL_UBREQ n) then failWith 0x0206 s
  else startLong r (fun j u => esqUbreq n (u.modEsq n fun q => { q with ubankJob := j })) s

end Sys2Proof.Machine
end

