-- ==== Sys2Proof/Machine/OpShape.lean ====
section
/-! DEFINITION. The opcodes of current shaping and of the timers (R258). -/

namespace Sys2Proof.Machine

open Fields

/-- CRL_CFG. -/
def opCrlCfg (r : Req) (s : State) : Ans × State :=
  let k := r.u
  let as := [Reg.CRL_CFG k, Reg.CRL_LIM k, Reg.CRL_DTLIM k]
  let held := s.flag (CRL_CFG_EN k) && changes s [CRL_CFG_TOPO k, CRL_CFG_DT k, CRL_CFG_FREACT k] (r.word 0)
  imageOpAt (fun i => bif i == 0 && held then 0x0210 else 0x0105) 0 (r.images 0 as) as s

/-- CRL_CTL. -/
def opCrlCtl (r : Req) (s : State) : Ans × State :=
  let k := r.u
  let t := whenS (bitAt (r.word 0) 0) (loopFclr k) s
  okWith (peeks t [Reg.CRL_STAT k, Reg.CRL_FLT k]) t

/-- CSE_PROF. -/
def opCseProf (r : Req) (s : State) : Ans × State :=
  let n := r.u
  let bank := bitAt (r.word 0) 8
  let p := bitsAt (r.word 0) 0 4
  bif Nat.blt 11 p then failWith 0x0105 s
  else bif s.flag (CSE_STAT_PBANK n) == bank || s.flag (CSE_CTL_PBREQ n) then failWith 0x0209 s
  else imageOp 0x0209 1 (r.images 1 (wordAddrs (profAddr (6 * n) bank p) 32)) [] s

/-- CSE_PBANK. A switch already asked for holds the engine: BUSY. -/
def opCsePbank (r : Req) (s : State) : Ans × State :=
  let n := r.u
  bif s.flag (CSE_CTL_PBREQ n) then failWith 0x0206 s
  else startLong r (fun j u => programRequest n (u.putCse n { job := j })) s

/-- CRL_READ. -/
def opCrlRead (r : Req) (s : State) : Ans × State :=
  let k := r.u
  okWith (peeks s [Reg.CRL_STAT k, Reg.CRL_FLT k, Reg.CRL_IOFS k, Reg.CRL_TALLY k, Reg.CRL_LRES0 k, Reg.CRL_LRES1 k, Reg.CRL_LRES2 k,
    Reg.CRL_LRES3 k]) s

/-- CSE_RING: RSZ = 0, which is always taken, stops the ring before RBASE is written (R167). -/
def opCseRing (r : Req) (s : State) : Ans × State :=
  let imgs := r.images 0 [Reg.CSE_RBASE r.u, Reg.CSE_RCFG r.u]
  bif r.word 1 % 16 == 0 then
    match imageOp 0x0210 1 (imgs.drop 1) [] s with
    | (a, t) => bif a.status != 0 then (a, t) else
      match imageOp 0x0210 0 (imgs.take 1) [] t with
      | (b, u) => (b, bif b.status == 0 then u else keepReport (Reg.CSE_RBASE r.u) u s)
  else imageOp 0x0210 0 imgs [] s

/-- GPT_CFG: setting RUN takes effect after the other images. The refusals of R195 answer ENABLED. -/
def opGptCfg (r : Req) (s : State) : Ans × State :=
  let t := r.u
  let run := s.flag (GPTt_CTL_RUN t)
  let v := r.word 0
  let first := bif bitAt v 0 && !run then putBits v 0 1 0 else v
  let rest := r.images 1 [Reg.GPTt_PER t, Reg.GPTt_CCFG t 0, Reg.GPTt_CMP t 0, Reg.GPTt_CCFG t 1, Reg.GPTt_CMP t 1]
  let last := bif bitAt v 0 && !run then [(Reg.GPTt_CTL t, v)] else []
  let held := run && bitAt v 0
  let st (i : Nat) : Nat :=
    bif i == 0 then (bif run && changes s [GPTt_CTL_MODE t, GPTt_CTL_PSC t] v then 0x0210 else 0x0105)
    else bif i == 1 then 0x0210
    else bif held && (i == 2 || i == 4) then 0x0210
    else 0x0105
  imageOpAt st 0 ((Reg.GPTt_CTL t, first) :: rest ++ last) [] s

/-- BREW: a local start, in the tk of the write. -/
def opBrew (r : Req) (s : State) : Ans × State :=
  okWith [s.tb.extractLsb' 0 32, s.tb.extractLsb' 32 32] (gptBrewMask (r.word 0) s)

/-- A time as two words, low then high. -/
def timeWords (t : Nat) : List Word := [asWord t, asWord (t / 2 ^ 32)]

/-- TBS of a ring start that is asked for now (R203). -/
def ringTbs (s : State) : Nat := (s.now + 127) / 128 * 128 + 512

/-- BREW_RING: RBMSK, then BREW with RING = 1. -/
def opBrewRing (r : Req) (s : State) : Ans × State :=
  bif ringBrewPending s then failWith 0x0215 (gptRingBrew s)
  else bif s.ring.starts.any fun x => x.own || x.kind != 2 then failWith 0x0215 s
  else okWith (timeWords (ringTbs s)) (gptRingBrew (s.wrn Reg.GPT_RBMSK (r.word 0)))

/-- GPT_READ. -/
def opGptRead (r : Req) (s : State) : Ans × State :=
  let t := r.u
  okWith (peeks s [Reg.GPTt_CTL t, Reg.GPTt_CNT t, Reg.GPTt_PER t, Reg.GPTt_STAT t, Reg.GPTt_CSTAT t 0, Reg.GPTt_CSTAT t 1]) s

end Sys2Proof.Machine
end

