-- ==== Sys2Proof/Machine/OpConv.lean ====
section
/-! DEFINITION. The opcodes of combustion analysis, converters and comparators (R259). -/

namespace Sys2Proof.Machine

open Fields

/-! ### Combustion analysis and pressure -/

/-- WORK_WRITE. -/
def opWorkWrite (r : Req) (s : State) : Ans × State :=
  let n := r.u
  let c := bitsAt (r.word 0) 0 5
  bif Nat.ble s.counts.maxCyl c then failWith 0x0105 s
  else
    let t := workWrite n c (asWord (r.word 1)) s
    okWith [peek t (Reg.AT_WVAL n)] t

/-- Registers that a running CAE does not let CAE_PARAM write: geometry, PEG and KWIN. -/
def caeFixed (a : Nat) : Bool := within Reg.CAE_BORE 16 a || a == Reg.CAE_PEG || a == Reg.CAE_KWIN

/-- CAE_PARAM. -/
def opCaeParam (r : Req) (s : State) : Ans × State :=
  let o := r.word 0
  let k := r.len.toNat - 1
  let as := wordAddrs (0x500A0000 + o) k
  bif !(Nat.ble 0x20 o && o % 4 == 0 && Nat.ble (o + 4 * k) 0x6C) then failWith 0x0105 s
  else bif s.flag CAE_CTL_RUN && as.any caeFixed then ({ status := 0x0210, detail := 1 + as.findIdx caeFixed }, caeRefuse s)
  else imageOp 0x0105 1 (r.images 1 as) [] s

/-- CAE_CYL. -/
def opCaeCyl (r : Req) (s : State) : Ans × State :=
  imageOp 0x0105 0 (r.images 0 [Reg.CAE_CYLW0 r.u, Reg.CAE_CYLW1 r.u, Reg.CAE_CYLW2 r.u]) [] s

/-- CAE_CTL: FCLR acts before RUN. -/
def opCaeCtl (r : Req) (s : State) : Ans × State :=
  let v := r.word 0 &&& 5
  let fault := caeState s == 2 && !bitAt v 2
  match imageWrite Reg.CAE_CTL v s with
  | (true, t) =>
    let u := keepReport Reg.CAE_CTL t s
    bif fault then ({ status := 0x021A, detail := 0 }, u) else ({ status := 0x0105, detail := (caeRunFault s).getD 0 }, u)
  | (false, t) => okWith [peek t Reg.CAE_STAT2] t

/-- PADC_CFG: setting EN takes effect after the other images. A word that PADC would refuse whatever its state, and the conditions of
R176, are found before ENABLED (R240). -/
def opPadcCfg (r : Req) (s : State) : Ans × State :=
  let v := r.word 0
  let rest := r.images 1 (Reg.PADC_WOFS :: (List.range 24).map Reg.PADC_CYL)
  let fit (u : State) : Ans × State :=
    bif s.flag PADC_CFG_EN then ({ status := 0x0210, detail := 0 }, padcRefuse s) else okWith [peek u Reg.PADC_LOAD] u
  match writeImages s 0 ((Reg.PADC_CFG, putBits v 31 1 0) :: rest) (s.setb PADC_CFG_EN false) with
  | .inl k => ({ status := 0x0105, detail := k.1 }, k.2)
  | .inr t => bif bitAt v 31 then
      match imageWrite Reg.PADC_CFG v t with
      | (true, u) => ({ status := 0x0105, detail := 0 }, keepReport Reg.PADC_CFG u s)
      | (false, u) => fit u
    else fit t

/-- REC_READ: `count` records of the ring of 512. -/
def opRecRead (r : Req) (s : State) : Ans × State :=
  let first := bitsAt (r.word 0) 0 9
  let k := bitsAt (r.word 0) 16 4
  let as := wordAddrs (0x140E0000 + 64 * first) (16 * k)
  bif !(Nat.ble 1 k && Nat.ble (first + k) 512) then failWith 0x0105 s
  else bif as.any (wordBad s) then failWith 0x0601 (readsMeet as s)
  else okWith (as.map fun a => (byteRead a 4 s).1) (readsMeet as s)

/-- CAE_KBANK. A switch already asked for holds the engine: BUSY. -/
def opCaeKbank (r : Req) (s : State) : Ans × State :=
  bif s.flag CAE_CTL_KBREQ then failWith 0x0206 s
  else startLong r (fun j u => kernelRequest { u with cae := { u.cae with kbankJob := j } }) s

/-! ### Housekeeping converter and comparators -/

/-- Images of HADC_SEQ, EN of the sequence clear: SEQCFGs, SEQDLYs, SEQANGs, then the entries of its range. -/
def seqImages (r : Req) : List (Nat × Nat) :=
  let q := r.u
  let st := inWord (HADC_SEQCFG_START q) (r.word 0)
  let ents := (List.range (inWord (HADC_SEQCFG_END q) (r.word 0) + 1 - st)).map fun i => Reg.HADC_ENT (st + i)
  (Reg.HADC_SEQCFG q, putBits (r.word 0) 31 1 0) :: r.images 1 (Reg.HADC_SEQDLY q :: Reg.HADC_SEQANG q :: ents)

/-- The index of the word that R211 refuses in HADC_SEQ: the sequence is enabled, its range may not be, or an entry is held. -/
def seqHeld (r : Req) (s : State) : Option Nat :=
  let q := r.u
  let v := r.word 0
  bif s.flag (HADC_SEQCFG_EN q) || (bitAt v 31 && seqRefused s q (inWord (HADC_SEQCFG_START q) v) (inWord (HADC_SEQCFG_END q) v)) then some 0
  else (seqImages r).findIdx? fun x => within (Reg.HADC_ENT 0) 128 x.1 && entryHeld s ((x.1 - Reg.HADC_ENT 0) / 4)

/-- HADC_SEQ: EN takes effect after the other images. The refusals of R211 answer ENABLED, after a word that HADC refuses with every
sequence at rest (R240). -/
def opHadcSeq (r : Req) (s : State) : Ans × State :=
  let q := r.u
  let v := r.word 0
  match writeImages s 0 (seqImages r) (upTo 4 (fun p u => u.setb (HADC_SEQCFG_EN p) false) s), seqHeld r s with
  | .inl k, _ => ({ status := 0x0105, detail := k.1 }, k.2)
  | .inr _, some i => ({ status := 0x0210, detail := i }, hadcRefuse s)
  | .inr _, none =>
    match writeImages s 0 (seqImages r) s with
    | .inl k => ({ status := 0x0105, detail := k.1 }, k.2)
    | .inr t => bif bitAt v 31 then
        match imageWrite (Reg.HADC_SEQCFG q) v t with
        | (true, u) => ({ status := 0x0105, detail := 0 }, keepReport (Reg.HADC_SEQCFG q) u s)
        | (false, u) => okWith [] u
      else okWith [] t

/-- Registers read on the bus by PERC, in order: their values, with the effects of the reads. -/
def busReads (as : List Nat) (s : State) : List Word × State :=
  as.foldl (fun p a => let x := wordRead 15 a p.2; (p.1 ++ [x.1], x.2)) ([], s)

/-- HADC_READ is a bus read of RESj (R215). -/
def opHadcRead (r : Req) (s : State) : Ans × State :=
  let first := bitsAt (r.word 0) 0 5
  let k := bitsAt (r.word 0) 8 6
  bif !(Nat.ble 1 k && Nat.ble (first + k) 32) then failWith 0x0105 s
  else match busReads ((List.range k).map fun i => Reg.HADC_RES (first + i)) s with
    | (ws, t) => okWith ws t

/-- HADC_TRG. -/
def opHadcTrg (r : Req) (s : State) : Ans × State := imageOp 0x0105 0 [(Reg.HADC_SWTRG, r.word 0)] [] s

/-- CMP_CFG. -/
def opCmpCfg (r : Req) (s : State) : Ans × State :=
  let n := r.u
  let more := bif r.len == 3 then [Reg.CMP_WCFG ((n - 28) / 2)] else []
  imageOp 0x0105 0 (r.images 0 (Reg.CMP_CFG n :: Reg.CMP_THR n :: more)) [] s

/-- CMP_READ: with CLR, one is written to every latch bit that was returned as set (R222). -/
def opCmpRead (r : Req) (s : State) : Ans × State :=
  let n := r.u
  let l := peek s (Reg.CMP_LAT n)
  okWith [peek s (Reg.CMP_STAT n), l] (whenS (bitAt (r.word 0) 0) (fun t => (wordWrite 15 (Reg.CMP_LAT n) l.toNat t).2) s)

/-- HADC_CTL. -/
def opHadcCtl (r : Req) (s : State) : Ans × State := imageOp 0x0105 0 [(Reg.HADC_CTL, r.word 0)] [Reg.HADC_STAT] s

end Sys2Proof.Machine
end

