-- ==== Sys2Proof/Machine/OpPower.lean ====
section
/-! DEFINITION. The opcodes of queues, DMA, power states and output enables (R260, R261, R334). -/

namespace Sys2Proof.Machine

open Fields

/-! ### Queues and DMA -/

/-- Q_CFG: setting EN takes effect after the other images (R334). -/
def opQCfg (r : Req) (s : State) : Ans × State :=
  let q := r.u
  let v := r.word 0
  let rest := r.images 1 [Reg.Q_CFG2 q, Reg.Q_CFG3 q]
  bif Nat.blt q 10 then failWith 0x0402 s
  else match writeImages s 0 ((Reg.Q_CFG q, putBits v 31 1 0) :: rest) (s.setb (Q_CFG_EN q) false) with
    | .inl k => ({ status := 0x0105, detail := k.1 }, k.2)
    | .inr t => bif s.flag (Q_CFG_EN q) then ({ status := 0x0210, detail := 0 }, (s.setb QM_ERRINFO_PARAM true).set QM_ERRINFO_QNUM q)
      else bif bitAt v 31 then
        match imageWrite (Reg.Q_CFG q) v t with
        | (true, u) => ({ status := 0x0105, detail := 0 }, keepReport (Reg.Q_CFG q) u s)
        | (false, u) => okWith [] u
      else okWith [] t

/-- Q_STAT (R334). -/
def opQStat (r : Req) (s : State) : Ans × State :=
  okWith (peeks s [Reg.Q_STAT r.u, Reg.Q_TALLY r.u, Reg.Q_CREDIT r.u, Reg.Q_POPSTAT r.u]) s

/-- DMA_CTL: an image of DMAn.CTL; a channel that is not in IDLE or ERROR runs. -/
def opDmaCtl (r : Req) (s : State) : Ans × State :=
  let n := r.u
  let st := dmaState s n
  bif st == dmaFetch || st == dmaXfer || st == dmaWb then failWith 0x0210 s
  else imageOp 0x0105 0 [(Reg.DMA_CTL n, r.word 0)] [Reg.DMA_STAT n] s

/-- DMA_STAT. -/
def opDmaStat (r : Req) (s : State) : Ans × State := okWith (peeks s [Reg.DMA_STAT r.u, Reg.DMA_RCFG r.u]) s

/-! ### Power -/

/-- PWR_ENTER: the reply is sent before the entry, which later steps carry out (R399, R400). -/
def opPwrEnter (r : Req) (s : State) : Ans × State :=
  let q := bitsAt (r.word 0) 0 3
  let wake := bitsAt (r.word 1) 0 5
  let live := s.rdn Reg.SCH_OUTENL != 0 || s.rdn Reg.SCH_OUTENH != 0 || someBelow 4 fun n => s.get (AT_SSTAT_STATE n) != 0
  bif !(Nat.ble 1 q && Nat.ble q 4) || wake == 0 then failWith 0x0105 s
  else bif Nat.ble 2 q && live then failWith 0x0216 s
  else
    let t := timerLoad (min (2 ^ 24 - 1) (r.word 3)) (s.set CPR_RETMASK_BANK (bitsAt (r.word 2) 0 12))
    okWith [] (powerRequest (q + 256 * wake) t)

/-- The lowest-numbered of the wake requests in WSRC, as its number (R401). -/
def wakeSource (s : State) : Nat := ((List.range 5).find? fun i => bitAt (s.get CPR_PWRSTAT_WSRC) i).getD 0

/-- PWR_READ: the present state; the last wake source and, above it, the abort code (R399, R401; layout DEDUCED, log entry 43). -/
def opPwrRead (_ : Req) (s : State) : Ans × State :=
  okWith [asWord (s.get CPR_PWRSTAT_STATE), asWord (wakeSource s + 256 * s.get CPR_PWRSTAT_ABORT)] s

/-! ### Output enables -/

/-- Bit `c` of the two mask words. -/
def inMask (r : Req) (c : Nat) : Bool := bitAt (r.word (c / 32)) (c % 32)

/-- Channel `c` may not be enabled: no owner, an owner that does not run, or a linked loop in FAULT (R260). -/
def outenFault (s : State) (c : Nat) : Bool :=
  let k := s.get (SCH_CHCFG_CRL c)
  !ownerRuns s c || (k != 15 && loopState s k == loopFault)

/-- OUTEN_SET. A fault reaction that clears a bit in the same tk stands over it, and is no reason to refuse: the reply, which leaves at
the end of the tk, shows the bit clear (R261). -/
def opOutenSet (r : Req) (s : State) : Ans × State :=
  let cs := (List.range 64).filter (inMask r)
  bif cs.any fun c => !s.hasPin c then failWith 0x0105 s
  else match cs.find? (fun c => outenFault s c && !cutNow s c) with
    | some c => ({ status := 0x0217, detail := c }, s)
    | none =>
      let t := (cs.filter fun c => !cutNow s c).foldl (fun u c => outenSet c u) s
      okWith (peeks t [Reg.SCH_OUTENL, Reg.SCH_OUTENH]) t

/-- OUTEN_CLR. -/
def opOutenClr (r : Req) (s : State) : Ans × State :=
  let t := ((List.range 64).filter fun c => inMask r c && outen s c).foldl (fun u c => outenOff c u) s
  okWith (peeks t [Reg.SCH_OUTENL, Reg.SCH_OUTENH]) t

/-- OUT_READ. -/
def opOutRead (_ : Req) (s : State) : Ans × State :=
  okWith (peeks s [Reg.SCH_OUTENL, Reg.SCH_OUTENH] ++ [asWord ((orelSeen s).toNat + 2 * (carafeStandby s).toNat)]) s

end Sys2Proof.Machine
end

