-- ==== Sys2Proof/Machine/OpMgmt.lean ====
section
/-! DEFINITION. The management opcodes: log, sensors, alarms, Kettle (R262, R335 to R351). -/

namespace Sys2Proof.Machine

open Fields

/-! ### The log -/

/-- The records that the device keeps, oldest first: the flash log, and those in the ring that the flash does not hold yet. -/
def keptRecords (s : State) : List LogRec := s.perc.flash ++ s.perc.ring.filter (·.pending)

/-- LOG_READ: up to `count` records from the first sequence number on. Word 1 is the number after the last record returned, or LSEQ
with none returned (DEDUCED, log entry 44). -/
def opLogRead (r : Req) (s : State) : Ans × State :=
  let first := asWord (r.word 0)
  let k := bitsAt (r.word 1) 0 5
  let rs := ((keptRecords s).filter fun x => Nat.blt (x.lseq - first).toNat (2 ^ 31)).take k
  let next := match rs.getLast? with | some x => x.lseq + 1 | none => s.rd Reg.PST_LSEQ
  bif k == 0 then failWith 0x0105 s else okWith (next :: rs.flatMap recWords) s

/-- The bucket of source `k` takes a rate and a burst; the tokens it holds stay, up to the burst (DEDUCED, log entry 45). -/
def bucketSet (rate burst k : Nat) (s : State) : State :=
  let t := bucketRefill k s
  let b := t.bucket k
  t.putBucket k { b with rate := rate, burst := burst, tokens := min burst b.tokens,
                         refillTb := bif Nat.ble burst b.tokens || Nat.ble b.burst b.tokens then s.time else b.refillTb }

/-- LOG_CFG: source 0xFF names every source (R341). -/
def opLogCfg (r : Req) (s : State) : Ans × State :=
  let src := r.word 0
  let rate := r.word 1
  let burst := r.word 2
  bif !((Nat.blt src 64 || src == 0xFF) && Nat.ble 1 rate && Nat.ble rate 1000 && Nat.ble 1 burst && Nat.ble burst 255) then failWith 0x0105 s
  else okWith [] (bif src == 0xFF then upTo 64 (bucketSet rate burst) s else bucketSet rate burst src s)

/-! ### Sensors -/

/-- A reading of SEQ3 as SENSOR_READ shows it: 0x8000_0000 while it is stale, and a free value before the first sample (R336). -/
def sensorWord (v : Int) (s : State) : Word × State :=
  bif s.perc.stale then (0x80000000, s)
  else bif s.perc.readings.isEmpty then s.drawWord
  else (BitVec.ofInt 32 v, s)

/-- Die temperature `i` in 0.01 °C, rounded to nearest (R210; rounding DESIGN CHOICE, log entry 46). -/
def tempWord (i : Nat) (s : State) : Word × State := sensorWord (rnd (25000 + tempOver s i) 10) s

/-- Rail `r` of those that SEQ3 samples, in mV, rounded to nearest. -/
def railWord (r : Nat) (s : State) : Word × State := sensorWord (rnd (railOf s r).1 4096) s

/-- The clock monitor flags of reply word 11, and what a SENSOR_READ leaves of the history (R337). -/
def clockFlags (s : State) : Word :=
  let ok := s.get CPR_CLKSTAT_OK
  asWord (ok + 64 * (s.flag CPR_CLKSTAT_AONX).toNat + 65536 * (s.perc.clkHist.toNat ||| (63 - ok)))

/-- SENSOR_READ: the values of the last completed sample (R335). -/
def opSensorRead (_ : Req) (s0 : State) : Ans × State :=
  let s := sensorTake s0
  let add (f : State → Word × State) (p : List Word × State) : List Word × State := let x := f p.2; (p.1 ++ [x.1], x.2)
  let temps := (List.range 4).foldl (fun p i => add (tempWord i) p) ([], s)
  let all := (List.range 3).foldl (fun p i => add (railWord i) p) temps
  let t := all.2.modPerc fun p => { p with clkHist := BitVec.ofNat 6 (63 - s.get CPR_CLKSTAT_OK) }
  okWith (all.1 ++ [asWord (s.get (CPR_RAIL_MV 3)), asWord (s.get (CPR_RAIL_MV 4)), asWord (s.get CPR_ISUP_MA), clockFlags s]) t

/-! ### Alarms and the Kettle -/

/-- Alarm slot `k`. -/
def alarmAt (s : State) (k : Nat) : Option Alarm := findAt (fun _ => none) k s.perc.alarms

/-- Replace alarm slot `k`. -/
def putAlarm (k : Nat) (a : Option Alarm) (s : State) : State := s.modPerc fun p => { p with alarms := putAt k a p.alarms }

/-- The subscription of a port and session. -/
def alarmOf (s : State) (x : Source) (sess : BitVec 8) : Option Nat :=
  (List.range 8).find? fun k => (alarmAt s k).any fun a => a.src == x && a.sess == sess

/-- ALARM_SUB: a subscription that its requester has already takes the new class. -/
def opAlarmSub (r : Req) (s : State) : Ans × State :=
  let low := BitVec.ofNat 2 (r.word 0)
  let own := alarmOf s r.src r.sess
  bif !bitAt (r.word 0) 8 then okWith [] (match own with | some k => putAlarm k none s | none => s)
  else match own with
    | some k => okWith [] (match alarmAt s k with | some a => putAlarm k (some { a with lowest := low }) s | none => s)
    | none => match (List.range 8).find? fun k => (alarmAt s k).isNone with
      | none => failWith 0x0504 s
      | some k => okWith [] (putAlarm k (some ⟨r.src, r.sess, low, 0, 64, s.time, 0⟩) s)

/-- KETTLE_READ. -/
def opKettleRead (_ : Req) (s : State) : Ans × State :=
  okWith [asWord (bitsAt (peek s Reg.KTL_STAT).toNat 24 8), asWord (s.get KTL_STAT_LCAUSE), asWord (s.get KTL_CFG_HBT)] s

end Sys2Proof.Machine
end

