-- ==== Sys2Proof/Machine/Sha.lean ====
section
/-! DEFINITION. SHA-256, with which images and challenges are digested (R356, R360, R369). -/

namespace Sys2Proof.Machine.Sha

/-- The first 64 primes. -/
def primes : List Nat :=
  [2, 3, 5, 7, 11, 13, 17, 19, 23, 29, 31, 37, 41, 43, 47, 53] ++
  [59, 61, 67, 71, 73, 79, 83, 89, 97, 101, 103, 107, 109, 113, 127, 131] ++
  [137, 139, 149, 151, 157, 163, 167, 173, 179, 181, 191, 193, 197, 199, 211, 223] ++
  [227, 229, 233, 239, 241, 251, 257, 263, 269, 271, 277, 281, 283, 293, 307, 311]

/-- The whole part of the `k`-th root of `n`, found bit by bit: bits below the `b`-th are still to come to `r`. -/
def root (k n : Nat) : Nat → Nat → Nat
  | 0, r => r
  | b + 1, r => root k n b (bif Nat.ble ((r + 2 ^ b) ^ k) n then r + 2 ^ b else r)

/-- The first 32 bits of the fraction of the `k`-th root of `p`. -/
def rootBits (k p : Nat) : Word := BitVec.ofNat 32 (root k (p * 2 ^ (32 * k)) 36 0)

/-- The round constants: of the cube roots of the primes. -/
def constants : List Word := primes.map (rootBits 3)

/-- The state before the first block: of the square roots of the first eight. -/
def start : List Word := (primes.take 8).map (rootBits 2)

/-- Element `i`. -/
def nth (l : List Word) (i : Nat) : Word := l.getD i 0

/-- A word from four bytes, the first the most significant. -/
def bigWord (l : List Byte) (i : Nat) : Word :=
  let b (k : Nat) : Byte := l.getD (4 * i + k) 0
  b 0 ++ b 1 ++ b 2 ++ b 3

/-- One more word of the message schedule; the newest stands first. -/
def extend (l : List Word) : List Word :=
  let x := nth l 14
  let y := nth l 1
  let s0 := x.rotateRight 7 ^^^ x.rotateRight 18 ^^^ (x >>> (3 : Nat))
  let s1 := y.rotateRight 17 ^^^ y.rotateRight 19 ^^^ (y >>> (10 : Nat))
  (nth l 15 + s0 + nth l 6 + s1) :: l

/-- The message schedule of a block. -/
def schedule (blk : List Byte) : List Word :=
  ((List.range 48).foldl (fun l _ => extend l) ((List.range 16).map (bigWord blk)).reverse).reverse

/-- One round with constant plus schedule word `kw`. -/
def round (v : List Word) (kw : Word) : List Word :=
  let a := nth v 0
  let e := nth v 4
  let s1 := e.rotateRight 6 ^^^ e.rotateRight 11 ^^^ e.rotateRight 25
  let ch := (e &&& nth v 5) ^^^ (~~~e &&& nth v 6)
  let t1 := nth v 7 + s1 + ch + kw
  let s0 := a.rotateRight 2 ^^^ a.rotateRight 13 ^^^ a.rotateRight 22
  let maj := (a &&& nth v 1) ^^^ (a &&& nth v 2) ^^^ (nth v 1 &&& nth v 2)
  [t1 + s0 + maj, a, nth v 1, nth v 2, nth v 3 + t1, e, nth v 5, nth v 6]

/-- A block enters the state. -/
def block (h : List Word) (blk : List Byte) : List Word :=
  let kws := List.zipWith (· + ·) constants (schedule blk)
  List.zipWith (· + ·) h (kws.foldl round h)

/-- `n` blocks enter the state. -/
def blocks : Nat → List Word → List Byte → List Word
  | 0, h, _ => h
  | n + 1, h, m => blocks n (block h (m.take 64)) (m.drop 64)

/-- The bytes of a number, most significant first. -/
def bigBytes (n v : Nat) : List Byte := (List.range n).map fun i => BitVec.ofNat 8 (v / 2 ^ (8 * (n - 1 - i)))

/-- The number of bytes, most significant first. -/
def bigNat (l : List Byte) : Nat := l.foldl (fun acc b => acc * 256 + b.toNat) 0

/-- The message with its padding. -/
def padded (m : List Byte) : List Byte :=
  m ++ [0x80] ++ List.replicate ((119 - m.length % 64) % 64) 0 ++ bigBytes 8 (8 * m.length)

/-- SHA-256: 32 bytes. -/
def sha256 (m : List Byte) : List Byte :=
  let p := padded m
  (blocks (p.length / 64) start p).flatMap fun w => bigBytes 4 w.toNat

end Sys2Proof.Machine.Sha
end

