-- ==== Sys2Proof/Machine/KeyWrap.lean ====
section
/-! DEFINITION. AES-128 decryption and the AES key wrap under which port keys are stored (R368). -/

namespace Sys2Proof.Machine.Aes

/-- The inverse of the substitution box: 32 values in each number, the first in its lowest byte. -/
def boxBack : List Nat :=
  [0xcbe9dec444438e3487ff2f9b8239e37cfbd7f3819ea340bf38a53630d56a0952,
   0x25d18b6d49a25b76b224d92866a12e084ec3fa420b954cee3d23c2a632947b54,
   0x849d8da75746155edab9edfd5048706c92b6655dcc5ca4d41698688664f6f872,
   0x6b8a130103bdafc1020f3fca8f1e2cd00645b3b80558e4f70ad3bc8c00abd890,
   0x6edf751ce837f9e28535ade72274ac9673e6b4f0cecff297eadc674f4111913a,
   0xf45acd78fec0db9a2079d2c64b3e56fc1bbe18aa0e62b76f89c5291d711af147,
   0xef9cc9939f7ae52d0d4ab519a97f51605fec8027591012b131c7078833a8dd1f,
   0x7d0c2155631469e126d677ba7e042b17619953833cbbebc8b0f52aae4d3be0a0]

/-- The substitution of a byte undone. -/
def unsub (a : Byte) : Byte := entry boxBack a

/-- The rows shifted back. -/
def unshiftRows (s : List Byte) : List Byte := (List.range 16).map fun i => at_ s ((i + 12 * (i % 4)) % 16)

/-- One column mixed back: mixing undoes itself once a part of the sums of opposite bytes is added. -/
def unmixColumn (a b c d : Byte) : List Byte :=
  let u := xtime (xtime (a ^^^ c))
  let v := xtime (xtime (b ^^^ d))
  mixColumn (a ^^^ u) (b ^^^ v) (c ^^^ u) (d ^^^ v)

/-- The four columns mixed back. -/
def unmixColumns (s : List Byte) : List Byte :=
  (List.range 4).flatMap fun c => unmixColumn (at_ s (4 * c)) (at_ s (4 * c + 1)) (at_ s (4 * c + 2)) (at_ s (4 * c + 3))

/-- The round keys, the last first. -/
def keysBack (key : List Byte) : List (List Byte) :=
  ((List.range 10).foldl (fun (x : List (List Byte) × Byte) _ => (nextKey (x.1.headD []) x.2 :: x.1, xtime x.2)) ([key], 1)).1

/-- AES-128 of one block undone. -/
def decrypt (key blk : List Byte) : List Byte :=
  match keysBack key with
  | [] => blk
  | k :: ks =>
    let first := (unshiftRows (xor blk k)).map unsub
    let mid := (ks.take 9).foldl (fun s j => (unshiftRows (unmixColumns (xor s j))).map unsub) first
    xor mid key

/-- One step of the unwrapping of two 64-bit blocks: A, R1 and R2, step number `t`, on block `i`. -/
def unwrapStep (key : List Byte) (t : Nat) (x : List Byte × List Byte × List Byte) : List Byte × List Byte × List Byte :=
  let (a, r1, r2) := x
  let b := decrypt key (xor a (Sha.bigBytes 8 t) ++ bif t % 2 == 0 then r2 else r1)
  bif t % 2 == 0 then (b.take 8, r1, b.drop 8) else (b.take 8, b.drop 8, r2)

/-- A wrapped 128-bit key of 24 bytes unwrapped; none when its check value is wrong. -/
def unwrap (key wrapped : List Byte) : Option (BitVec 128) :=
  let x := (List.range 12).foldl (fun x i => unwrapStep key (12 - i) x) (wrapped.take 8, (wrapped.drop 8).take 8, wrapped.drop 16)
  bif x.1 == List.replicate 8 0xA6 then some (BitVec.ofNat 128 (Sha.bigNat (x.2.1 ++ x.2.2))) else none

end Sys2Proof.Machine.Aes
end

