-- ==== Sys2Proof/Machine/Ecdsa.lean ====
section
/-! DEFINITION. The check of an ECDSA P-256 signature (R264, R356, R369). -/

namespace Sys2Proof.Machine.Ecdsa

/-- The field, the group order, the coefficient b, and the base point of P-256; a is -3. -/
def p : Nat := 0xffffffff00000001000000000000000000000000ffffffffffffffffffffffff
def n : Nat := 0xffffffff00000000ffffffffffffffffbce6faada7179e84f3b9cac2fc632551
def b : Nat := 0x5ac635d8aa3a93e7b3ebbd55769886bc651d06b0cc53b0f63bce3c3e27d2604b
def gx : Nat := 0x6b17d1f2e12c4247f8bce6e563a440f277037d812deb33a0f4a13945d898c296
def gy : Nat := 0x4fe342e2fe1a7f9b8ee7eb4a7c0f9e162bce33576b315ececbb6406837bf51f5

/-- Bit `i` of a number. -/
def bit (x i : Nat) : Bool := x / 2 ^ i % 2 == 1

/-- The power `x ^ e` modulo `m`, for an exponent below 2^256. -/
def power (m x e : Nat) : Nat :=
  (List.range 256).foldl (fun acc i => let q := acc * acc % m; bif bit e (255 - i) then q * x % m else q) (1 % m)

/-- The inverse modulo a prime. -/
def inverse (m x : Nat) : Nat := power m (x % m) (m - 2)

/-- A point of the curve; none is the point at infinity. -/
abbrev Point := Option (Nat × Nat)

/-- The third point on the line of slope `l` through two points with these coordinates. -/
def chord (l x1 y1 x2 : Nat) : Point :=
  let x3 := (l * l + 2 * p - x1 - x2) % p
  some (x3, (l * (x1 + p - x3) + p - y1) % p)

/-- The sum of two points. -/
def add : Point → Point → Point
  | none, q => q
  | some u, none => some u
  | some (x1, y1), some (x2, y2) =>
    bif x1 == x2 then
      bif (y1 + y2) % p == 0 then none
      else chord ((3 * x1 * x1 + p - 3) * inverse p (2 * y1) % p) x1 y1 x2
    else chord ((y2 + p - y1) * inverse p (x2 + p - x1) % p) x1 y1 x2

/-- `k` times a point. -/
def times (k : Nat) (q : Point) : Point :=
  (List.range 256).foldl (fun acc i => let d := add acc acc; bif bit k (255 - i) then add d q else d) none

/-- A public key is a point of the curve. -/
def onCurve (x y : Nat) : Bool := Nat.blt x p && Nat.blt y p && y * y % p == (x * x * x + (p - 3) * x + b) % p

/-- The signature `r`, `s` is valid for the digest under the public key `x`, `y`. -/
def valid (digest r s x y : Nat) : Bool :=
  let inRange (v : Nat) : Bool := Nat.ble 1 v && Nat.blt v n
  let w := inverse n s
  inRange r && inRange s && onCurve x y &&
    match add (times (digest * w % n) (some (gx, gy))) (times (r * w % n) (some (x, y))) with
    | none => false
    | some q => q.1 % n == r

/-- The points of the curve whose x coordinate is `x`. -/
def points (x : Nat) : List (Nat × Nat) :=
  let y := power p ((x * x * x + (p - 3) * x + b) % p) ((p + 1) / 4)
  bif onCurve x y then [(x, y), (x, p - y)] else []

/-- The public keys under which the signature `r`, `s` is valid for the digest: those that the points of abscissa `r` and `r + n`
give. -/
def signers (digest r s : Nat) : List (Nat × Nat) :=
  let w := inverse n r
  let key (q : Nat × Nat) : Point :=
    times w (add (times (s % n) (some q)) (times ((n - digest % n) % n) (some (gx, gy))))
  ((points r ++ points (r + n)).filterMap key).filter fun q => valid digest r s q.1 q.2

end Sys2Proof.Machine.Ecdsa
end

