-- ==== Sys2Proof/Machine/Update.lean ====
section
/-! DEFINITION. In-service change: images and their checks, the update opcodes, and the activation of an image at its safe point
(R262, R263, R356 to R366). -/

namespace Sys2Proof.Machine

open Fields

/-! ### Components and units (R262, R357) -/

/-- The largest payload of a component, in bytes (R357). -/
def maxPayload (comp : Nat) : Nat := [196608, 8388608, 262144, 8192, 1536, 32776, 65536, 262144, 4196].getD comp 0

/-! ### Images (R356) -/

/-- `n` bytes of an image from byte `i`; what has not been written is erased flash. -/
def Slot.part (x : Slot) (i n : Nat) : List Byte := (List.range n).map fun k => x.bytes.getD (i + k) 0xFF

/-- Header word `i` as a number. -/
def Slot.head (x : Slot) (i : Nat) : Nat := (x.word i).toNat

/-- Payload bytes (LENGTH). -/
def Slot.length (x : Slot) : Nat := x.head 4

/-- Payload word `i`. -/
def Slot.data (x : Slot) (i : Nat) : Nat := (x.word (48 + i)).toNat

/-- Security version of an image. -/
def Slot.svn (x : Slot) : Nat := bitsAt (x.head 3) 0 7

/-- The address and value pairs of a payload from word `i` on (R364, R367). -/
def Slot.pairs (x : Slot) (i : Nat) : List (Nat × Nat) :=
  (List.range ((x.length / 4 - i) / 2)).map fun k => (x.data (i + 2 * k), x.data (i + 2 * k + 1))

/-! ### Checks (R360, R365) -/

/-- Step 1 of R360 for an update of a component, unit and size. -/
def headerOk (s : State) (comp unit size : Nat) (x : Slot) : Bool :=
  x.head 0 == 0x445A4931 && bitsAt (x.head 1) 24 8 == 1 && bitsAt (x.head 1) 0 8 == comp && bitsAt (x.head 1) 8 8 == unit &&
    192 + x.length == size && bitAt (bitsAt (x.head 5) 1 12 * 2) s.fuses.variant.toNat

/-- Steps 2 to 6 of R360: a status, or 0. -/
def trustFault (s : State) (x : Slot) : Nat :=
  let k := bitsAt (x.head 1) 16 8
  let num (i : Nat) : Nat := Sha.bigNat (x.part (4 * i) 32)
  let digest (i n : Nat) : Nat := Sha.bigNat (Sha.sha256 (x.part i n))
  bif bitAt s.fuses.revk.toNat k then 0x0705
  else bif Nat.blt 3 k || digest 128 64 != (s.fuses.rootHash.getD k 0).toNat then 0x0703
  else bif !Ecdsa.valid (digest 0 64) (num 16) (num 24) (num 32) (num 40) then 0x0703
  else bif digest 192 x.length != num 8 then 0x0703
  else bif Nat.blt x.svn s.fuses.arbcnt.toNat then 0x0704
  else 0

/-- The entries of a wheel image (R357). -/
def Slot.wheel (x : Slot) : Wheel × List (Word × Word) :=
  let w0 := x.data 0
  let n := bitsAt w0 16 13
  ({ base := 0, cnt := n, span720 := bitAt w0 31, ngap := x.data 1 },
   (List.range n).map fun i => (x.word (50 + 2 * i), x.word (51 + 2 * i)))

/-- What an address in a calibration image of block `unit` waits for: a loop or channel, 0 for the whole block; none when the image may
not name it (R364). -/
def calPart (s : State) (unit a : Nat) : Option Nat :=
  let here (b : Bool) (k : Nat) : Option Nat := bif b && a % 4 == 0 then some k else none
  bif Nat.blt unit 4 then
    let w := activeWheel s unit
    let e := (a - 0x50040000) / 8
    here (within (0x50004000 + unit * 0x10000) 0x4000 a ||
      (within 0x50040000 0x10000 a && a % 8 == 4 && Nat.ble w.base e && Nat.blt e (w.base + w.cnt))) 0
  else bif unit == 4 then
    here ((within (Reg.CAE_CYLW0 0) (24 * 16) a && a % 16 != 12) ||
      (within Reg.CAE_GAMMA 0x38 a && !caeFixed a && (regAt a).rw ||| (regAt a).rwl != 0)) 0
  else bif unit == 7 then here (within 0x5006A800 0x800 a && within 4 16 (a % 32)) ((a - 0x5006A800) / 32)
  else
    let k := (a - 0x50098000) / 0x100
    here (within 0x50098000 0xC00 a && within 0x10 12 (a % 0x100) && k / 6 == unit - 5) k

/-- A cold-start image may address the register or word at `a` (R367). -/
def coldAllowed (a : Nat) : Bool :=
  let at_ := within 0x50000000 0x40000 a && Nat.blt (a % 0x10000) 0x4000
  let ti := within 0x50008000 0x1000 a
  let esq := within 0x50070000 0x8000 a && (let n := (a - 0x50070000) / 0x1000; a == Reg.ESQ_CFG n || a == Reg.ESQ_OWN n || a == Reg.ESQ_EVRNG n)
  a % 4 == 0 && (at_ || ti || within 0x50040000 0x10000 a || within 0x50060000 0xB000 a || esq) && a != Reg.SCH_OUTENL &&
    a != Reg.SCH_OUTENH

/-- The index of the first pair that an image may not hold. -/
def pairFaultAt (ok : Nat → Bool) (ps : List (Nat × Nat)) : Option Nat := ps.findIdx? fun p => !ok p.1

/-- The word pairs of a program bank image written to the bank that is not in use. -/
def programWords (s : State) (n : Nat) (x : Slot) : List (Nat × Nat) :=
  (List.range (min 384 (x.length / 4))).map fun i => (profAddr (6 * n) (!s.flag (CSE_STAT_PBANK n)) 0 + 4 * i, x.data i)

/-- A program bank image holds a profile with VALID set that R159 rejects. -/
def programBad (s : State) (n : Nat) (x : Slot) : Bool :=
  let t := (programWords s n x).foldl (fun u p => u.wrn p.1 p.2) { s with ecc := [] }
  someBelow 12 fun p =>
    let a := profAddr (6 * n) (!s.flag (CSE_STAT_PBANK n)) p
    bitAt (t.rdn a) 31 && profBad t a

/-- A region of an ACT image, enabled or not, holds a reserved size, or a base that its size does not align (R13, R357). -/
def regionBad (x : Slot) (e : Nat) : Bool :=
  let w := x.data (8 * e)
  Nat.blt (bitsAt w 7 5) 12 || (w / 4096 * 4096) % 2 ^ bitsAt w 7 5 != 0

/-- The content check of R357: a status with DETAIL, or 0. A program bank with a bad profile and an ACT image with a bad region give
0x0105 (DEDUCED, log entry 47: the spec lists no status for them). -/
def contentFault (s : State) (comp unit : Nat) (x : Slot) : Nat × Nat :=
  let pairs (ok : Nat → Bool) (i : Nat) : Nat × Nat := match pairFaultAt ok (x.pairs i) with | some k => (0x0105, k) | none => (0, 0)
  match comp with
  | 4 => (bif programBad s unit x then 0x0105 else 0, 0)
  | 5 => match checkWheel x.wheel.1.span720 (s.flag (AT_WCFG_CYCLE unit)) x.wheel.2 with | some k => (0x0120, k) | none => (0, 0)
  | 6 => pairs (fun a => (calPart s unit a).isSome) 0
  | 7 => pairs coldAllowed 4
  | 8 => match (List.range 96).find? (regionBad x) with | some k => (0x0105, k) | none => (0, 0)
  | _ => (0, 0)

/-- The checks of UPD_VERIFY in order (R360). -/
def imageFault (s : State) (comp unit size : Nat) (x : Slot) : Nat × Nat :=
  let t := trustFault s x
  bif !headerOk s comp unit size x then (0x0703, 0) else bif t != 0 then (t, 0) else contentFault s comp unit x

/-! ### Activation (R361 to R364) -/

/-- Change the update part of the state. -/
def State.modUpd (s : State) (f : Update → Update) : State := { s with update := f s.update }

/-- Change the activation of a component and unit. -/
def putActivation (a : Activation) (s : State) : State :=
  s.modUpd fun u => { u with active := u.active.map fun b => bif b.comp == a.comp && b.unit == a.unit then a else b }

/-- Another slot of the component is no longer in use. -/
def slotRetire (x : Slot) : Slot := bif x.st == .active || x.st == .trial then { x with st := .verified } else x

/-- An image is in use: its slot is ACTIVE, the other one VERIFIED, and the anti-rollback count rises where the image asks for it
(R361, R362). -/
def imageInUse (comp unit : Nat) (b : Bool) (s : State) : State :=
  let x := s.slot comp unit b
  let s1 := putActive comp unit b ((s.putSlot comp unit b { x with st := .active }).putSlot comp unit (!b) (slotRetire (s.slot comp unit (!b))))
  let n := min 64 x.svn
  bif bitAt (x.head 3) 31 && Nat.blt s1.fuses.arbcnt.toNat n then { s1 with fuses := { s1.fuses with arbcnt := BitVec.ofNat 8 n } } else s1

/-- An activation ends: with its switch made, or with its slot VERIFIED as before; the update is closed (R263, R361). -/
def activationEnd (a : Activation) (made : Bool) (status : Nat) (s : State) : State :=
  let x := s.slot a.comp a.unit a.slotB
  let s1 := bif made then imageInUse a.comp a.unit a.slotB s else s.putSlot a.comp a.unit a.slotB { x with st := .verified }
  endJob a.job status 0 (s1.modUpd fun u =>
    { u with active := u.active.filter fun b => !(b.comp == a.comp && b.unit == a.unit),
             opened := u.opened.filter fun o => !(o.comp == a.comp && o.unit == a.unit) })

/-- The lowest range of `cnt` entries that no tracker uses and that is clear of the wheels `taken` (R363, R367). -/
def freeRange (s : State) (taken : List Wheel) (cnt : Nat) : Option Nat :=
  let used := (List.range 4).flatMap (rangesInUse s) ++ taken
  (List.range (8193 - cnt)).find? fun b => !used.any fun w => w.overlaps { base := b, cnt := cnt, span720 := false, ngap := 0 }

/-- The word that a calibration pair leaves at its address. -/
def calValue (s : State) (a v : Nat) : Nat :=
  bif within 0x50040000 0x10000 a then v / 65536 * 65536 + s.rdn a % 65536
  else bif angleMemory a then v
  else
    let m := (regAt a).rw ||| (regAt a).rwl
    (s.rdn a &&& (0xFFFFFFFF ^^^ m)) ||| (v &&& m)

/-- The pairs of a calibration image wait for their safe points; those of absent loops are of no effect (R2, R364). -/
def calibQueue (unit : Nat) (x : Slot) (s : State) : State :=
  let ws := ((x.pairs 0).filterMap fun p => (calPart s unit p.1).map fun k =>
    ({ unit := unit, part := k, addr := p.1, val := calValue s p.1 p.2 } : CalWrite)).filter fun c => !absentAt s c.addr
  s.modUpd fun u => { u with calib := u.calib ++ ws }

/-- The calibration pairs of the CAE are applied while no analysis runs (R364). -/
def calibCae (s : State) : State :=
  bif !s.cae.closed.isEmpty then s
  else
    let ws := s.update.calib.filter fun c => c.unit == 4
    ws.foldl (fun u c => caeWrite c.addr c.val u) (s.modUpd fun u => { u with calib := u.calib.filter fun c => c.unit != 4 })

/-- Words written to a memory of the hardware by PERC (R361). -/
def loadWords (ws : List (Nat × Nat)) (s : State) : State := ws.foldl (fun u p => storeWhole p.1 p.2 u) s

/-- The words of an ACT image, as they lie in table bank `k`; reserved bits keep nothing (R368). -/
def tableWords (k : Nat) (x : Slot) : List (Nat × Nat) :=
  (List.range 1024).map fun i =>
    let a := 0x40091000 + 0x1000 * k + 4 * i
    (a, x.data i &&& (regAt a).rw)

/-- PERC rings a doorbell of the application; which of its sources the spec does not say: a free value (R363). -/
def doorbell (s : State) : State := let d := s.drawNat; d.2.pulse (232 + d.1 % 8)

/-- The pair part of an activation: `bank` 0 before the restart, 1 after it, 2 during its self-test (R283, R363). The slot is SWITCHING
until the pair runs its image, and only then the active one (R361). -/
def pairActivate (a : Activation) (s0 : State) : State :=
  let p := a.unit
  let s := s0.putSlot 1 p a.slotB { s0.slot 1 p a.slotB with st := .switching }
  let st := pairState s p
  let other := pairState s (1 - p) == 4 && s.flag CPR_DPXCTL_TKEN
  let go (u : State) : State := restartRecord true (putActivation { a with asked := true, bank := 1 } (pairRun p (pairRunClear p u)))
  bif a.bank == 1 then whenS (st == 3 || st == 4 || st == 5) (activationEnd a true 0) s
  else bif a.bank == 2 then
    bif st != 1 then s else bif s.get (CPR_PAIRSTAT_STRES p) == 1 then go s else activationEnd a false 0x0220 s
  else bif st == 0 then putActivation { a with asked := true, bank := 1 } s
  else bif st == 3 && other then bif a.asked then s else putActivation { a with asked := true } (doorbell s)
  else bif st == 6 && a.asked then putActivation { a with bank := 2 } (pairTest p (pairRunClear p s))
  else bif st == 7 then s
  else go s

/-- PERC loads an image into the hardware bank that is not in use and requests the switch (R361, R363). -/
def activationAsk (a : Activation) (s0 : State) : State :=
  let x := s0.slot a.comp a.unit a.slotB
  let s := s0.putSlot a.comp a.unit a.slotB { x with st := .switching }
  let n := a.unit
  let ask (b : Bool) (u : State) : State := putActivation { a with asked := true, bank := b.toNat } u
  match a.comp with
  | 2 => kernelRequest (ask (!s.flag CAE_STAT2_KBANK) s)
  | 3 =>
    let run := esqRunning s n
    let b := bif run then !s.flag (ESQ_STAT_UBANK n) else !s.flag (ESQ_CFG_SBANK n)
    let t := ask b (loadWords ((List.range (min 2048 (x.length / 4))).map fun i =>
      (0x500D0000 + n * 0x4000 + b.toNat * 0x2000 + 4 * i, x.data i)) s)
    bif run then esqUbreq n t else t.setb (ESQ_CFG_SBANK n) b
  | 4 => programRequest n (ask (!s.flag (CSE_STAT_PBANK n)) (loadWords (programWords s n x) s))
  | 5 =>
    let w := x.wheel
    match freeRange s [] w.1.cnt with
    | none => activationEnd a false 0x0121 s
    | some b =>
      let d := 1 - s.get (AT_WCFG_ACTSEL n)
      let t := (putWheel n d (putBits (putBits (x.data 0) 0 13 b) 13 3 0) w.1.ngap w.2 s).2
      let u := switchRequest n t
      bif u.flag (AT_WCFG_SWREQ n) then (putActivation { a with asked := true, bank := d } u).modTrk n fun k => { k with switchJob := a.job }
      else activationEnd a false 0x0105 u
  | 6 => ask false (calibQueue n x s)
  | 8 => ask (!s.flag ACT_CTL_SEL) (actSwitch (loadWords (tableWords (1 - s.get ACT_CTL_SEL) x) s))
  | _ => ask false s

/-- The switch that an activation has asked for is made (R361). -/
def activationMade (a : Activation) (s : State) : Bool :=
  let n := a.unit
  match a.comp with
  | 2 => !s.flag CAE_CTL_KBREQ && s.get CAE_STAT2_KBANK == a.bank
  | 3 => (esqRunning s n && s.get (ESQ_STAT_UBANK n) == a.bank) || (!esqRunning s n && s.get (ESQ_CFG_SBANK n) == a.bank)
  | 4 => !s.flag (CSE_CTL_PBREQ n) && s.get (CSE_STAT_PBANK n) == a.bank
  | 5 => !s.flag (AT_WCFG_SWREQ n) && s.get (AT_WCFG_ACTSEL n) == a.bank
  | 6 => !s.update.calib.any fun c => c.unit == n
  | 8 => s.get ACT_CTL_SEL == a.bank
  | _ => true

/-- After a restart PERC compares the hardware with the directory: where an activation's switch has not been made, its load and its request
are made again (R361). A pending wheel stays as it is, its tracker's SWREQ being set already; a pair goes by its own state. -/
def activationResume (a : Activation) (s : State) : State :=
  bif !a.asked || a.comp == 0 || a.comp == 1 || activationMade a s || (a.comp == 5 && s.flag (AT_WCFG_SWREQ a.unit)) then s
  else putActivation { a with asked := false, bank := 0 } (s.modUpd fun u =>
    { u with calib := u.calib.filter fun c => !(a.comp == 6 && c.unit == a.unit) })

/-- PERC examines each slot left SWITCHING (R361). -/
def activationsResume (s : State) : State := s.update.active.foldl (fun u a => activationResume a u) s

/-- The next step of one activation. PERC firmware switches by a restart of PERC (R363). -/
def activationStep (a : Activation) (s : State) : State :=
  bif a.revert then s
  else bif a.comp == 1 then pairActivate a s
  else bif !a.asked then
    let t := activationAsk a s
    bif a.comp == 0 then kettleReset 2 t else t
  else bif a.comp == 0 then s
  else
    let t := bif a.comp == 6 then calibCae s else s
    bif activationMade a t then activationEnd a true 0 t else t

/-- PERC goes on with the activations under way, as far as their hardware has come. -/
def updPoll (s : State) : State :=
  bif s.perc.running && Nat.blt (s.get CPR_PWRSTAT_STATE) 2 && !s.power.angleReset then
    s.update.active.foldl (fun u a => match u.update.active.find? fun b => b.comp == a.comp && b.unit == a.unit with
      | some b => activationStep b u
      | none => u) s
  else s

/-! ### Opcodes (R262, R263, R359 to R366) -/

/-- An update, an activation or a revert is under way. -/
def updBusy (s : State) : Bool := s.update.opened.isSome || !s.update.active.isEmpty

/-- UPD_BEGIN. -/
def opUpdBegin (r : Req) (s : State) : Ans × State :=
  let comp := r.word 0 % 256
  let unit := r.u
  let size := r.word 1
  let st := compUnit s comp unit
  let b := !activeSlot s comp unit
  let open_ (off : Nat) (u : State) : State := u.modUpd fun x => { x with opened := some ⟨comp, unit, size, off, 0⟩, closed := none }
  bif st != 0 then failWith st s
  else bif Nat.blt (192 + maxPayload comp) size then failWith 0x0105 s
  else bif updBusy s then failWith 0x0206 s
  else match s.update.closed.filter fun x => x.comp == comp && x.unit == unit && x.size == size with
    | some x => ({ status := 0, detail := x.offset / 4096 }, open_ (x.offset / 4096 * 4096) s)
    | none => okWith [] (open_ 0 (s.putSlot comp unit b { erasing := true }))

/-- UPD_DATA. With no update open no offset is right. The parameters come before the state and the resource (R240). While the slot is being
erased, how far the erase has come in whole sectors is a free value that never falls back (log entry 81): data that reach a sector
not yet erased find BUSY (R359). -/
def opUpdData (r : Req) (s : State) : Ans × State :=
  match s.update.opened with
  | none => failWith 0x0701 s
  | some u =>
    let off := r.word 0
    let b := !activeSlot s u.comp u.unit
    let x := s.slot u.comp u.unit b
    let bytes := ((r.params.drop 1).flatMap wordBytes).take (u.size - u.offset)
    let endAt := off + bytes.length
    let d := s.drawNat
    let y := { x with erased := x.erased + 65536 * d.1 }
    let put (z : Slot) (t : State) : State := (t.putSlot u.comp u.unit b
      { z with st := bif endAt == u.size then .written else .empty, bytes := x.part 0 off ++ bytes ++ x.bytes.drop endAt }).modUpd fun v =>
        { v with opened := some { u with offset := endAt } }
    bif Nat.ble (u.size + 4) (off + 4 * (r.params.length - 1)) then failWith 0x0105 s
    else bif off != u.offset then failWith 0x0701 s
    else bif s.update.verify != 0 || !s.update.active.isEmpty then failWith 0x0206 s
    else bif !x.erasing then okWith [] (put x s)
    else bif Nat.ble endAt y.erased then okWith [] (put y d.2)
    else failWith 0x0206 (d.2.putSlot u.comp u.unit b y)

/-- UPD_VERIFY: the checks take their time, and VERIFY_JOB_FINAL ends the job. -/
def opUpdVerify (r : Req) (s : State) : Ans × State :=
  bif s.update.verify != 0 || !s.update.active.isEmpty then failWith 0x0206 s
  else startLong r (fun j u => u.modUpd fun x => { x with verify := j }) s

/-- The hardware switch that an activation needs is already pending from a command (R361). -/
def switchPending (s : State) (comp n : Nat) : Bool :=
  match comp with
  | 2 => s.flag CAE_CTL_KBREQ
  | 3 => s.flag (ESQ_CTL_UBREQ n)
  | 4 => s.flag (CSE_CTL_PBREQ n)
  | 5 => s.flag (AT_WCFG_SWREQ n)
  | _ => false

/-- UPD_ACTIVATE. -/
def opUpdActivate (r : Req) (s : State) : Ans × State :=
  match s.update.opened with
  | none => failWith 0x0706 s
  | some u =>
    let b := !activeSlot s u.comp u.unit
    bif (s.slot u.comp u.unit b).st != .verified then failWith 0x0706 s
    else bif !s.update.active.isEmpty || s.update.verify != 0 then failWith 0x0206 s
    else bif switchPending s u.comp u.unit then failWith 0x0206 s
    else startLong r (fun j t => t.modUpd fun x =>
      { x with active := x.active ++ [{ comp := u.comp, unit := u.unit, slotB := b, job := j }] }) s

/-- UPD_REVERT. -/
def opUpdRevert (r : Req) (s : State) : Ans × State :=
  let comp := r.word 0 % 256
  let unit := r.u
  let b := !activeSlot s comp unit
  let st := compUnit s comp unit
  bif st != 0 then failWith st s
  else bif (s.slot comp unit b).st != .verified then failWith 0x0706 s
  else bif updBusy s then failWith 0x0206 s
  else bif switchPending s comp unit then failWith 0x0206 s
  else startLong r (fun j t => t.modUpd fun x =>
    { x with active := x.active ++ [{ comp := comp, unit := unit, slotB := b, job := j, revert := true }] }) s

/-- UPD_ABORT. An update that a reset of PERC closed is no longer resumed (R366). While a check or a switch is under way it is refused (DESIGN CHOICE, log entry 48). -/
def opUpdAbort (_ : Req) (s : State) : Ans × State :=
  bif s.update.verify != 0 || !s.update.active.isEmpty then failWith 0x0206 s
  else match s.update.opened with
    | none => okWith [] (s.modUpd fun x => { x with closed := none })
    | some u => okWith [] ((s.putSlot u.comp u.unit (!activeSlot s u.comp u.unit) {}).modUpd fun x => { x with opened := none, closed := none })

/-! ### Events -/

/-- The job of UPD_VERIFY ends: a slot that passes is VERIFIED, one that fails is left WRITTEN (R360). -/
def verifyEnd (s : State) : State :=
  let s1 := s.modUpd fun x => { x with verify := 0 }
  match s.update.opened with
  | none => endJob s.update.verify 0x0703 0 s1
  | some u =>
    let b := !activeSlot s u.comp u.unit
    let x := s.slot u.comp u.unit b
    let f := bif x.st == .empty then (0x0703, 0) else imageFault s u.comp u.unit u.size x
    endJob s.update.verify f.1 f.2 (bif x.st == .empty then s1
      else s1.putSlot u.comp u.unit b { x with st := bif f.1 == 0 then .verified else .written })

/-- The checks of a revert end: a failure ends it, else its switch begins (R365). -/
def revertEnd (a : Activation) (s : State) : State :=
  let f := trustFault s (s.slot a.comp a.unit a.slotB)
  bif f != 0 then endJob a.job f 0 (s.modUpd fun u => { u with active := u.active.filter fun b => !(b.comp == a.comp && b.unit == a.unit) })
  else putActivation { a with revert := false } s

/-- PERC finishes the checks that job `j` waits for. -/
def verifyJobFinal (j : Nat) (s : State) : State :=
  bif j == 0 then s
  else bif s.update.verify == j then verifyEnd s
  else match s.update.active.find? fun a => a.revert && a.job == j with
    | some a => updPoll (revertEnd a s)
    | none => s

/-- The background erase of a slot is done (R359). -/
def slotErased (comp unit : Nat) (s : State) : State :=
  let b := !activeSlot s comp unit
  let x := s.slot comp unit b
  bif x.erasing then
    let t := s.putSlot comp unit b { x with erasing := false, erased := 0 }
    { t with ports := { t.ports with ospiSuspended := false } }
  else s

/-- PERC firmware in TRIAL has run 10 s (R363). -/
def trialEnd (s : State) : State :=
  match s.perc.trialTb with
  | some t => bif Nat.ble (t + 2000000000) s.time then
      (imageInUse 0 0 (activeSlot s 0 0) s).modPerc fun p => { p with trialTb := none }
    else s
  | none => s

/-- The checks of UPD_VERIFY or UPD_REVERT end (R360). -/
def execVerifyJobFinal (job : Fin 16) (s : State) : Host.Outcome State Fault Refusal := done (byPerc s (verifyJobFinal job))

/-- A slot is erased (R359). -/
def execSlotEraseDone (comp : Fin 9) (unit : BitVec 8) (s : State) : Host.Outcome State Fault Refusal :=
  done (byPerc s (slotErased comp unit.toNat))

/-- The trial period ends (R363). -/
def execTrialPeriodEnd (s : State) : Host.Outcome State Fault Refusal := done (byPerc s trialEnd)

end Sys2Proof.Machine
end

