-- ==== Sys2Proof/Machine/OpSecure.lean ====
section
/-! DEFINITION. The carafe and security opcodes (R264, R265, R368, R369, R386). -/

namespace Sys2Proof.Machine

open Fields

/-! ### Carafe -/

/-- CAR_CFG: an image of RING.CFG. -/
def opCarCfg (r : Req) (s : State) : Ans × State :=
  imageOp (bif s.flag RING_CTL_EN then 0x0210 else 0x0105) 0 [(Reg.RING_CFG, r.word 0)] [] s

/-- CAR_READ: SEEN, ROLES, MMCNT and MISSCNT. -/
def opCarRead (_ : Req) (s : State) : Ans × State :=
  okWith [asWord (s.get RING_STAT_SEEN), asWord (s.get RING_ROLES_ROLES), asWord (s.get RING_TALLY1_MMCNT),
    asWord (s.get RING_TALLY0_MISSCNT)] s

/-- This member puts a start of kind `k` on the ring (R203, R386). -/
def ringStartPut (k target job : Nat) (s : State) : State :=
  s.modRing fun g => { g with starts := g.starts ++ [{ kind := k, target := target, tbs := ringTbs s, own := true, job := job }] }

/-- CAR_HANDOVER. -/
def opCarHandover (r : Req) (s : State) : Ans × State :=
  bif s.ring.starts.any (·.own) then failWith 0x0215 s else startLong r (fun j u => ringStartPut 2 (bitsAt (r.word 0) 0 2) j u) s

/-- CAR_UBANK: UBMSK, then a ring UBANK. -/
def opCarUbank (r : Req) (s : State) : Ans × State :=
  bif s.ring.starts.any fun x => x.own || x.kind != 2 then failWith 0x0215 s
  else okWith (timeWords (ringTbs s)) (ringStartPut 1 0 0 (s.set RING_UBMSK_ESQ (r.word 0 % 256)))

/-- OREL_SET. -/
def opOrelSet (r : Req) (s : State) : Ans × State :=
  let m := bitsAt (r.word 0) 4 2
  bif m == memberNo s then failWith 0x0105 s
  else okWith [] (orelPut (putBits (s.get RING_OREL_ASSERT) m 1 (bitsAt (r.word 0) 0 1)) s)

/-! ### Sessions and keys -/

/-- Port key `k` of the ACT image loaded at boot (R368). -/
def portKey (s : State) (k : Nat) : Option (BitVec 128) :=
  (s.update.keys[k]?).bind fun w => Aes.unwrap (Aes.keyBytes s.fuses.deviceKey) w

/-- Four words of which the device alone knows more: free values. -/
def nonce (s : State) : List Word × State :=
  (List.range 4).foldl (fun p _ => let d := p.2.drawWord; (p.1 ++ [d.1], d.2)) ([], s)

/-- A key's number from its bytes. -/
def keyOf (bs : List Byte) : BitVec 128 := BitVec.ofNat 128 (Sha.bigNat bs)

/-- SESS_OPEN. With no such port key (fallback, R368) the parameter names none. -/
def opSessOpen (r : Req) (s : State) : Ans × State :=
  match portKey s (bitsAt (r.word 0) 0 2), (List.range 15).find? fun i => (s.session (i + 1)).isNone with
  | none, _ => failWith 0x0105 s
  | some _, none => failWith 0x0504 s
  | some k, some i =>
    let d := nonce s
    let key := keyOf (Aes.cmac (Aes.keyBytes k) ((((r.params.drop 1).take 4) ++ d.1).flatMap wordBytes))
    okWith (asWord (i + 1) :: d.1) (d.2.putSession (i + 1) (some { key := key, epoch := 0, lastSeq := none, lastTag := none, lastReply := none }))

/-- SESS_CLOSE: the session of the request's tag closes once the reply has left. -/
def opSessClose (_ : Req) (s : State) : Ans × State := ({ status := 0, after := .closeSession }, s)

/-- Debug commands by packet are not answered in this state (R369). -/
def debugDenied (s : State) : Bool := s.fuses.dbg == 3 || (s.fuses.dbg == 1 && s.fuses.variant != 0x0C)

/-- DBG_CHAL. -/
def opDbgChal (_ : Req) (s : State) : Ans × State :=
  bif debugDenied s then failWith 0x0805 s
  else
    let d := nonce s
    okWith d.1 { d.2 with fuses := { d.2.fuses with chal := some (keyOf (d.1.flatMap wordBytes), s.time) } }

/-- The signature of a challenge response is valid under an unrevoked root key (R369). -/
def responseValid (s : State) (chal : BitVec 128) (sig : List Byte) : Bool :=
  let digest := Sha.bigNat (Sha.sha256 (Aes.keyBytes chal ++ wordBytes (peek s Reg.CPR_PARTID)))
  let keys := Ecdsa.signers digest (Sha.bigNat (sig.take 32)) (Sha.bigNat (sig.drop 32))
  keys.any fun q =>
    let h := Sha.bigNat (Sha.sha256 (Sha.bigBytes 32 q.1 ++ Sha.bigBytes 32 q.2))
    someBelow 4 fun k => !bitAt s.fuses.revk.toNat k && h == (s.fuses.rootHash.getD k 0).toNat

/-- DBG_RESP. -/
def opDbgResp (r : Req) (s : State) : Ans × State :=
  bif debugDenied s then failWith 0x0805 s
  else match s.fuses.chal with
    | none => failWith 0x0804 s
    | some c =>
      bif Nat.ble (c.2 + 12000000000) s.time || !responseValid s c.1 (r.params.flatMap wordBytes) then failWith 0x0804 s
      else
        let t : State := { s with fuses := { s.fuses with dbg := bif s.fuses.dbg == 1 then 2 else s.fuses.dbg } }
        okWith [asWord t.fuses.dbg.toNat] t

/-- SEC_READ. Word 4 has room for ports 0 to 15 (DEDUCED, log entry 49). -/
def opSecRead (_ : Req) (s : State) : Ans × State :=
  let levels := (List.range 16).foldl (fun acc k => acc + bitsAt (portProfile s k) 24 2 * 4 ^ k) 0
  okWith [asWord s.fuses.dbg.toNat, asWord s.fuses.revk.toNat, asWord s.fuses.arbcnt.toNat, asWord levels] s

/-- KEY_REVOKE. -/
def opKeyRevoke (r : Req) (s : State) : Ans × State :=
  let v := s.fuses.revk ||| BitVec.ofNat 4 (2 ^ bitsAt (r.word 0) 0 2)
  bif v == 15 && s.fuses.revk != 15 then failWith 0x0806 s
  else okWith [asWord v.toNat] { s with fuses := { s.fuses with revk := v } }

/-- A challenge is over after 60 s (R369). -/
def challengeExpire (s : State) : State :=
  match s.fuses.chal with
  | some c => bif Nat.ble (c.2 + 12000000000) s.time then { s with fuses := { s.fuses with chal := none } } else s
  | none => s

/-- 60 s after DBG_CHAL (R369). -/
def execDbgChallengeExpiry (s : State) : Host.Outcome State Fault Refusal := done (challengeExpire s)

end Sys2Proof.Machine
end

