-- ==== Sys2Proof/Machine/OpTest.lean ====
section
/-! DEFINITION. The opcodes of diagnostics, self-test and calibration, the edge generator, and the end of a job slot (R252, R266). -/

namespace Sys2Proof.Machine

open Fields

/-- CAL_CRL (R171). -/
def opCalCrl (r : Req) (s : State) : Ans × State :=
  let x := crlCalRequest r.u s
  failWith x.1 x.2

/-- CAL_PADC (R179). -/
def opCalPadc (r : Req) (s : State) : Ans × State :=
  let x := padcCalRequest r.u s
  failWith x.1 x.2

/-- CAL_HADC (R218). -/
def opCalHadc (_ : Req) (s : State) : Ans × State := failWith (hadcCalStatus s).toNat (hadcCalReq s)

/-- TEST_ESQ (R147). -/
def opTestEsq (r : Req) (s : State) : Ans × State :=
  let n := r.u
  bif s.get (ESQ_STAT_STATE n) != 0 || s.flag (ESQ_OWN_VALID n) then failWith 0x0206 s
  else startLong r (fun j u => (esqTestStart n u).modEsq n fun q => { q with testJob := j }) s

/-- TEST_LOCK: an idle pair is one that the self-test command may take, in RESET or BOOT (R266, R279). -/
def opTestLock (r : Req) (s : State) : Ans × State :=
  let p := r.u
  let st := pairState s p
  bif !(st == 1 || st == 2 || st == 4) then failWith 0x0206 s
  else startLong r (fun j u => (Machine.pairTest p u).modPair p fun x => { x with testJob := j }) s

/-- SRAM_OFFLINE (R298). -/
def opSramOffline (r : Req) (s : State) : Ans × State :=
  let b := r.u
  let off := bitAt (r.word 0) 0
  bif off && !s.flag (MEMC_BANKCTL_OFFL b) && bankInUse s b then failWith 0x0206 s
  else bif !off && s.flag (MEMC_BANKCTL_BIST b) then failWith 0x0206 s
  else okWith [] (Machine.bankOffline b off s)

/-- TEST_SRAM (R298). -/
def opTestSram (r : Req) (s : State) : Ans × State :=
  let b := r.u
  bif !s.flag (MEMC_BANKSTAT_ISOFF b) || s.flag (MEMC_BANKCTL_BIST b) then failWith 0x0206 s
  else startLong r (fun j u => let v := bistStart b u; { v with bistJob := putAt b j v.bistJob }) s

/-! ### The edge generator (R266) -/

/-- The generator of tracker `n` starts: it stands at entry 0 of the active wheel, with `left` au still to turn. -/
def genStart (n rate left job : Nat) (s : State) : State :=
  (s.setb (AT_PCFG_FORCEG n) true).modTrk n fun k =>
    { k with gen := some { rate := rate, left := left, entry := 0, at_ := s.now, forceg := s.flag (AT_PCFG_FORCEG n), job := job } }

/-- TRK_GEN. A rate of zero makes no edge and is out of range (DEDUCED, log entry 50). -/
def opTrkGen (r : Req) (s : State) : Ans × State :=
  let n := r.u
  let revs := bitsAt (r.word 1) 0 8
  bif revs == 0 || r.word 0 == 0 then failWith 0x0105 s
  else bif (activeWheel s n).cnt == 0 then failWith 0x0122 s
  else bif someBelow 64 fun c => s.hasChan c && s.get (SCH_CHCFG_TRK c) == n && outen s c then failWith 0x0216 s
  else bif (s.trk n).gen.isSome then failWith 0x0206 s
  else startLong r (fun j u => ownTracking n (genStart n (r.word 0) (revs * 2 ^ 23) j) u) s

/-- The capture entry of the generator's edge at entry `e`: forward, with the INDEX tag that the wheel expects (log entry 50). -/
def genEntry (ts : Nat) (index : Bool) : CapEntry :=
  { ts := ts, ovrb := false, index := index, dir := false, dirv := true, level := true, wsat := false, width := 0 }

/-- The run ends: FORCEG is restored and the job ends (R266). -/
def genFinish (n : Nat) (g : Gen) (s : State) : State :=
  endJob g.job 0 0 ((s.setb (AT_PCFG_FORCEG n) g.forceg).modTrk n fun k => { k with gen := none })

/-- The generator's next edge, when it is due: the tracker takes it in place of its input; when all its revolutions have been made,
the run ends (R266). -/
def genEdge (n : Nat) (s : State) : State :=
  match (s.trk n).gen with
  | none => s
  | some g =>
    bif Nat.blt s.now g.at_ then s
    else bif g.left == 0 then genFinish n g s
    else
      let w := activeWheel s n
      let span := w.span
      let e := g.entry % max w.cnt 1
      let d := ((toothAngle s w (e + 1) : Int) - toothAngle s w e) % (span : Int)
      let gap := min g.left (bif w.cnt == 1 || d == 0 then span else d.toNat)
      let next : Gen := { g with left := g.left - gap, entry := (e + 1) % max w.cnt 1, at_ := g.at_ + rndNat (gap * 2 ^ 24) g.rate }
      let u := s.modTrk n fun k => { k with gen := some next }
      bif u.flag (AT_CTL_EN n) then popEntry n (genEntry g.at_ (toothIndex s w e)) (trackerSync n u) else u

/-- An edge of the generator (R266). -/
def execGeneratorEdge (n : Fin 4) (s : State) : Host.Outcome State Fault Refusal := done (inAngle s (ownTracking n (genEdge n)))

/-- A job slot is freed 60 s after its job ended (R252). -/
def jobExpire (j : Nat) (s : State) : State :=
  let x := s.job j
  bif x.st == .ended && Nat.ble (x.endTb + 12000000000) s.time then s.putJob j {} else s

/-- 60 s after a job's end (R252). -/
def execJobSlotTimeout (job : Fin 16) (s : State) : Host.Outcome State Fault Refusal := done (jobExpire job s)

end Sys2Proof.Machine
end

