-- ==== Sys2Proof/Machine/Fcp.lean ====
section
/-! DEFINITION. The fast command path: requests from their arrival to their reply, chains, staged writes, the slow path through PERC,
the internal mailboxes, and the opcodes as commands (R226 to R246). -/

namespace Sys2Proof.Machine

open Fields

/-- What opcode `o` does (R248 to R266). -/
def handlerOf (o : Nat) (r : Req) (s : State) : Ans × State :=
  match o with
  | 0x00 => opPing r s
  | 0x01 => opInfo r s
  | 0x02 => opStatus r s
  | 0x03 => opRegRead r s
  | 0x04 => opRegWrite r s
  | 0x05 => opJobQuery r s
  | 0x06 => opResetUnit r s
  | 0x10 => opTrkCfg r s
  | 0x11 => opTrkEn r s
  | 0x12 => opWheelStage r s
  | 0x13 => opWheelLoad r s
  | 0x14 => opWheelSwitch r s
  | 0x15 => opSyncCtl r s
  | 0x16 => opCorrLoad r s
  | 0x17 => opProfLoad r s
  | 0x18 => opTrkRead r s
  | 0x19 => opPstoreRead r s
  | 0x1A => opTiCfg r s
  | 0x1B => opTiRead r s
  | 0x20 => opEvtWrite r s
  | 0x21 => opEvtEn r s
  | 0x22 => opTrimWrite r s
  | 0x23 => opTrimAdd r s
  | 0x24 => opEvtFire r s
  | 0x25 => opEvtWriteN r s
  | 0x26 => opEvtRead r s
  | 0x27 => opChRead r s
  | 0x28 => opEnvWrite r s
  | 0x29 => opBankSwitch r s
  | 0x2A => opBankCopy r s
  | 0x2B => opBankAng r s
  | 0x2C => opHorizon r s
  | 0x2D => opEsqAssign r s
  | 0x2E => opEsqCtl r s
  | 0x2F => opEsqUbank r s
  | 0x30 => opCrlCfg r s
  | 0x31 => opCrlCtl r s
  | 0x32 => opCseProf r s
  | 0x33 => opCsePbank r s
  | 0x34 => opCrlRead r s
  | 0x35 => opCseRing r s
  | 0x38 => opGptCfg r s
  | 0x39 => opBrew r s
  | 0x3A => opBrewRing r s
  | 0x3B => opGptRead r s
  | 0x40 => opWorkWrite r s
  | 0x41 => opCaeParam r s
  | 0x42 => opCaeCyl r s
  | 0x43 => opCaeCtl r s
  | 0x44 => opPadcCfg r s
  | 0x45 => opRecRead r s
  | 0x46 => opCaeKbank r s
  | 0x50 => opHadcSeq r s
  | 0x51 => opHadcRead r s
  | 0x52 => opHadcTrg r s
  | 0x53 => opCmpCfg r s
  | 0x54 => opCmpRead r s
  | 0x55 => opHadcCtl r s
  | 0x58 => opQCfg r s
  | 0x59 => opQStat r s
  | 0x5A => opDmaCtl r s
  | 0x5B => opDmaStat r s
  | 0x60 => opPwrEnter r s
  | 0x61 => opPwrRead r s
  | 0x68 => opOutenSet r s
  | 0x69 => opOutenClr r s
  | 0x6A => opOutRead r s
  | 0x70 => opLogRead r s
  | 0x71 => opLogCfg r s
  | 0x72 => opSensorRead r s
  | 0x73 => opAlarmSub r s
  | 0x74 => opKettleRead r s
  | 0x80 => opUpdBegin r s
  | 0x81 => opUpdData r s
  | 0x82 => opUpdVerify r s
  | 0x83 => opUpdActivate r s
  | 0x84 => opUpdRevert r s
  | 0x85 => opUpdAbort r s
  | 0x90 => opCarCfg r s
  | 0x91 => opCarRead r s
  | 0x92 => opCarHandover r s
  | 0x93 => opCarUbank r s
  | 0x94 => opOrelSet r s
  | 0xA0 => opSessOpen r s
  | 0xA1 => opSessClose r s
  | 0xA2 => opDbgChal r s
  | 0xA3 => opDbgResp r s
  | 0xA4 => opSecRead r s
  | 0xA5 => opKeyRevoke r s
  | 0xB0 => opCalCrl r s
  | 0xB1 => opCalPadc r s
  | 0xB2 => opCalHadc r s
  | 0xB3 => opTestEsq r s
  | 0xB4 => opTestLock r s
  | 0xB5 => opSramOffline r s
  | 0xB6 => opTestSram r s
  | 0xB7 => opTrkGen r s
  | _ => failWith 0x0101 s

/-! ### Requests that have passed the checks of the command path -/

/-- FAST, ATCOMMIT and CHAIN of a request (R229). -/
def isFast (r : Req) : Bool := bitAt r.flg.toNat 0
def isStaged (r : Req) : Bool := bitAt r.flg.toNat 2
def isChained (r : Req) : Bool := bitAt r.flg.toNat 3

/-- The request with its CHAIN flag set to `b`: how a list of requests keeps its groups. -/
def withChain (b : Bool) (r : Req) : Req := { r with flg := BitVec.ofNat 8 (putBits r.flg.toNat 3 1 b.toNat) }

/-- A group as it is kept in a list: CHAIN is set on all members but the last. -/
def asGroup : List Req → List Req
  | [] => []
  | [r] => [withChain false r]
  | r :: rest => withChain true r :: asGroup rest

/-- The first group of a list of requests, and the rest. -/
def firstGroup : List Req → List Req × List Req
  | [] => ([], [])
  | r :: rest => bif isChained r then (let x := firstGroup rest; (r :: x.1, x.2)) else ([r], rest)

/-- The effect of a request on the state, and its answer; with the angle domain in reset the opcodes of that domain execute nothing
(R247, R407). -/
def runReq (r : Req) (s : State) : Ans × State :=
  bif s.power.angleReset && opcAngle r.opc.toNat then failWith 0x020C s else handlerOf r.opc.toNat r s

/-- What follows a reply (R255). -/
def afterReply (a : Ans) (s : State) : State :=
  match a.after with
  | .restart => kettleReset 2 s
  | _ => s

/-- A request is executed and answered. -/
def runOne (r : Req) (s : State) : State :=
  let x := runReq r s
  afterReply x.1 (answer r x.1 x.2)

/-- The members of a group in order, each on the state that those before it leave; a member that fails leaves nothing. -/
def runEach : List Req → State → List (Req × Ans) × State
  | [], s => ([], s)
  | r :: rest, s =>
    let x := runReq r s
    let y := runEach rest (bif failed x.1.status then s else x.2)
    ((r, x.1) :: y.1, y.2)

/-- Replies in order, and what follows them. -/
def answerAll (l : List (Req × Ans)) (s : State) : State :=
  let t := l.foldl (fun u x => answer x.1 x.2 u) s
  l.foldl (fun u x => afterReply x.2 u) t

/-- The answers of a group that fails: a failing member's own, with its DETAIL and words, and CHAIN_ABORT (R228, R232). -/
def abortAnswers (l : List (Req × Ans)) : List (Req × Ans) :=
  l.map fun x => (x.1, bif failed x.2.status then x.2 else { status := 0x0202 })

/-- A group that fails with these answers: a request alone, or a chain. -/
def refuseGroup (l : List (Req × Ans)) (s : State) : State :=
  match l with
  | [(r, a)] => answer r a s
  | _ => answerAll (abortAnswers l) s

/-- Requests with a status each, as answers. -/
def withStatus (rs : List Req) (sts : List Nat) : List (Req × Ans) := (rs.zip sts).map fun x => (x.1, { status := x.2 })

/-- A group takes effect as a whole, or not at all (R232). -/
def runGroup (rs : List Req) (s : State) : State :=
  match rs with
  | [r] => runOne r s
  | _ =>
    let x := runEach rs s
    bif x.1.any fun y => failed y.2.status then answerAll (abortAnswers x.1) s else answerAll x.1 x.2

/-- The groups of a list, in order; `fuel` is at least their number. -/
def runGroups : Nat → List Req → State → State
  | 0, _, s => s
  | _, [], s => s
  | fuel + 1, rs, s => let g := firstGroup rs; runGroups fuel g.2 (runGroup g.1 s)

/-! ### Staged writes (R231) -/

/-- The tracker whose commit angle applies a staged write: that of the channel the write names, EVT_WRITE_N's that of its first
group (log entry 51). -/
def stageTracker (s : State) (r : Req) : Nat :=
  chanTrk s (bif r.opc == 0x20 then bitsAt (r.word 4) 0 6 else bif r.opc == 0x25 then bitsAt (r.word 5) 0 6
    else eventChanA s (bitsAt (r.word 0) 0 10))

/-- A group as the buffer holds it. A chain stays whole, so that all of it is applied or none: what names different trackers waits for
the tracker of its first member (R231, R232; DEDUCED, log entry 51). -/
def stageEntries (s : State) (rs : List Req) : List (Nat × Req) :=
  let n := match rs with | r :: _ => stageTracker s r | [] => 0
  (asGroup rs).map fun r => (n, r)

/-- A group is staged: its parameters and state are checked now, its envelope when it is applied; the buffer holds 64 writes (R231,
R240). -/
def stageGroup (rs : List Req) (s : State) : State :=
  let room := 64 - s.gnorum.staged.length
  let early (a : Ans) (i : Nat) : Ans :=
    bif failed a.status && a.status / 256 != 3 then a else { status := bif Nat.ble room i then 0x0502 else 0 }
  let all := (runEach rs s).1.zipIdx.map fun p => (p.1.1, early p.1.2 p.2)
  bif all.any fun x => x.2.status != 0 then refuseGroup all s
  else { s with gnorum := { s.gnorum with staged := s.gnorum.staged ++ stageEntries s rs } }

/-- The staged writes of tracker `n` are due (R231). -/
def stageDue (s : State) (n : Nat) : Bool :=
  syncState s n != 4 || reached (cycleLen s n) ((s.esq 0).snaps.getD n {}) (snapOf s n) (s.get (SCH_BANG_ANG n))

/-- The staged writes of tracker `n`, and the calibration images that wait for the same point (R364), are applied before the next
pass. -/
def stageApply (n : Nat) (s : State) : State :=
  bif !stageDue s n then s
  else
    let mine := (s.gnorum.staged.filter fun x => x.1 == n).map (·.2)
    let t := { s with gnorum := { s.gnorum with staged := s.gnorum.staged.filter fun x => x.1 != n } }
    calibTake (fun c => c.unit == 7 && chanTrk t c.part == n) (runGroups mine.length mine t)

/-- The point at which staged writes are applied (R231). -/
def execStagedWriteApply (n : Fin 4) (s : State) : Host.Outcome State Fault Refusal := done (inAngle s (stageApply n))

/-! ### The slow path (R239, R242, R246) -/

/-- A group takes effect or is staged. -/
def perform (rs : List Req) (s : State) : State := bif rs.any isStaged && !s.power.angleReset then stageGroup rs s else runGroup rs s

/-- The status that the fast command path itself gives a slow request: with the angle domain in reset (R407), and while PERC does not
run its firmware (R246, R251). -/
def slowStatus (s : State) (r : Req) : Nat :=
  let o := r.opc.toNat
  bif s.power.angleReset && opcAngle o then 0x020C
  else bif s.perc.running then 0
  else bif s.flag KTL_STAT_SAFE && opcSafe o then 0
  else bif s.flag KTL_STAT_SAFE && Nat.ble 0x80 o && Nat.ble o 0x85 then 0x0702
  else 0x0207

/-- A slow group: refused by the fast command path, answered in safe mode, or handed to PERC, whose queue holds 32 requests. -/
def slowGroup (rs : List Req) (s : State) : State :=
  let sts := rs.map (slowStatus s)
  bif sts.any fun st => st != 0 then refuseGroup (withStatus rs sts) s
  else bif !s.perc.running then perform rs s
  else
    let room := 32 - s.gnorum.slow.length
    bif Nat.ble rs.length room then { s with gnorum := { s.gnorum with slow := s.gnorum.slow ++ asGroup rs } }
    else refuseGroup (withStatus rs ((List.range rs.length).map fun i => bif Nat.ble room i then 0x0503 else 0)) s

/-! ### Arrival (R229, R232, R240) -/

/-- The checks of a group, in order: the members with what the checks give. -/
def checkEach : List Req → State → List (Req × Front) × State
  | [], s => ([], s)
  | r :: rest, s =>
    let x := frontCheck r s
    let y := checkEach rest x.2
    ((r, x.1) :: y.1, y.2)

/-- The status of a check: 0 for none. -/
def frontStatus : Front → Nat
  | .fail st => st
  | _ => 0

/-- A request, or a complete chain, is checked and goes its way (R232, R240). A member that repeats the last SEQ receives the stored
reply and is not executed (R235). -/
def takeGroup (rs : List Req) (s : State) : State :=
  let x := checkEach rs s
  let t := (x.1.filter fun y => y.2 == .again).foldl (fun u y => answerAgain y.1 u) x.2
  let l := x.1.filter fun y => y.2 != .again
  let go := l.map (·.1)
  bif go.isEmpty then t
  else bif l.any fun y => y.2 != .pass then refuseGroup (withStatus go (l.map fun y => frontStatus y.2)) t
  else bif go.all isFast then perform go t
  else slowGroup go t

/-- The chain that a requester has open, and the chains without it. -/
def chainOf (s : State) (x : Source) : Option Chain := s.gnorum.chains.find? fun c => c.src == x
def dropChain (x : Source) (s : State) : State := { s with gnorum := { s.gnorum with chains := s.gnorum.chains.filter fun c => c.src != x } }

/-- The members received of a chain are answered CHAIN_ABORT (R232). -/
def abortChain (c : Chain) (s : State) : State :=
  answerAll (c.reqs.map fun r => (r, { status := 0x0202 })) (dropChain c.src s)

/-- A requester's packet with no chain open (R232). -/
def freshPacket (r : Req) (s : State) : State :=
  bif isChained r then
    { s with gnorum := { s.gnorum with chains := s.gnorum.chains ++ [{ src := r.src, reqs := [r], lastTb := s.time }] } }
  else takeGroup [r] s

/-- A requester's packet: alone, or as a member of a chain (R232). -/
def packet (r : Req) (s : State) : State :=
  match chainOf s r.src with
  | none => freshPacket r s
  | some c =>
    bif Nat.blt (c.lastTb + 200000) s.time then freshPacket r (abortChain c s)
    else
      let differs := c.reqs.any fun m => isFast m != isFast r || isStaged m != isStaged r
      bif differs || Nat.ble 16 c.reqs.length then
        answerAll ((c.reqs.map fun m => (m, { status := 0x0202 })) ++ [(r, { status := 0x0103 })]) (dropChain r.src s)
      else bif isChained r then
        let more : Chain := { c with reqs := c.reqs ++ [r], lastTb := s.time }
        let t := dropChain r.src s
        { t with gnorum := { t.gnorum with chains := t.gnorum.chains ++ [more] } }
      else takeGroup (c.reqs ++ [r]) (dropChain r.src s)

/-- The requester of mailbox `b` issues: AC1 and AC3 do so in split mode only, an absent block never (R2, R238). -/
def boxOpen (s : State) (b : Nat) : Bool := issues s (boxMid b)

/-- A packet of this source can arrive: the request interface runs, and the requester issues or the port is bonded (R1, R238, R368,
R397, R410). -/
def listening (s : State) (x : Source) : Bool :=
  s.power.romDone && !s.power.inReset && Nat.blt (s.get CPR_PWRSTAT_STATE) 2 &&
    match x with
    | .mailbox b => boxOpen s b.val
    | _ => hasPort s ((portOf x).getD 0)

/-- The packet's length agrees with LEN and SESS (R226, R227, R233). -/
def lengthAgrees (r : Req) : Bool := r.params.length == r.len.toNat && (r.tag.isSome == (r.sess != 0) || internal r.src)

/-- A packet arrives at the device (R229, R233, R240). -/
def arrive (r : Req) (s : State) : State :=
  bif !listening s r.src then s
  else bif !lengthAgrees r then (match portOf r.src with | some k => portCrc k s | none => s)
  else bif bitAt r.flg.toNat 7 then (match portOf r.src with | some k => portDisc k s | none => s)
  else packet r s

/-- More than 1 ms has passed since the last member of a chain (R232). -/
def chainExpire (x : Source) (s : State) : State :=
  match chainOf s x with
  | some c => bif Nat.blt (c.lastTb + 200000) s.time then abortChain c s else s
  | none => s

/-- A chain is given up (R232). -/
def execChainTimeout (src : Source) (s : State) : Host.Outcome State Fault Refusal := done (chainExpire src s)

/-! ### Internal mailboxes (R238) -/

/-- Words received of the request of mailbox `b`. -/
def State.box (s : State) (b : Nat) : List Word := findAt (fun _ => []) b s.gnorum.boxes

/-- Replace the words of mailbox `b`; entry `8 + b` says that one of them met an uncorrectable error. -/
def State.putBox (s : State) (b : Nat) (v : List Word) : State := { s with gnorum := { s.gnorum with boxes := putAt b v s.gnorum.boxes } }

/-- The request that these words spell, when they are all there. LEN above 250 is refused on the header alone (R226, R240). -/
def boxRequest (b : Fin 5) (ws : List Word) : Option Req :=
  match ws with
  | h0 :: h1 :: rest =>
    let len := h1.extractLsb' 0 16
    let r : Req :=
      { src := .mailbox b, opc := h0.extractLsb' 0 8, flg := h0.extractLsb' 8 8, seq := h0.extractLsb' 16 16, len := len,
        unit := h1.extractLsb' 16 8, sess := h1.extractLsb' 24 8, params := rest, tag := none }
    bif Nat.blt 250 len.toNat || rest.length == len.toNat then some r else none
  | _ => none

/-- A complete request of a mailbox: one with a word that met an uncorrectable error is answered 0x0601 (R247, R334). -/
def boxTake (b : Fin 5) (r : Req) (s : State) : State :=
  bif !(s.box (8 + b.val)).isEmpty then answer r { status := 0x0601 } s
  else bif bitAt r.flg.toNat 7 then s
  else packet r s

/-- The command path takes the oldest word of a mailbox's request queue (R238). -/
def boxWord (b : Fin 5) (s : State) : State :=
  match queueTake (2 * b.val) s with
  | (none, t) => t
  | (some x, t) =>
    let ws := t.box b.val ++ [x.data]
    let bad := x.ue || x.poison
    let u := bif bad then t.putBox (8 + b.val) [1] else t
    match boxRequest b ws with
    | some r => ((boxTake b r u).putBox b.val []).putBox (8 + b.val) []
    | none => u.putBox b.val ws

/-- The command path empties a request queue while its interface runs and its requester issues (R238, R407). -/
def boxDrain (b : Fin 5) (s : State) : State :=
  bif listening s (.mailbox b) && s.flag (Q_CFG_EN (2 * b.val)) then
    (List.range (s.queue (2 * b.val)).items.length).foldl (fun u _ => boxWord b u) s
  else s

/-- The mailboxes in ascending MID of their owners, and the ports in ascending number (R245). -/
def boxOrder : List (Fin 5) := [0, 3, 1, 4, 2]
def portOrder : List Nat := [0, 1, 2, 3, 4, 5, 6, 7, 14, 15]

/-- The command path empties request queues, in this order. -/
def boxesDrain (l : List (Fin 5)) (s : State) : State := l.foldl (fun u b => boxDrain b u) s

/-- The owner of a mailbox pushes a word of its request (R238). -/
def mailboxWrite (b : Fin 5) (word : Word) (s : State) : State :=
  whenS (boxOpen s b.val) (fun u => boxDrain b (queuePushTag (boxMid b.val) (2 * b.val) word 0 u)) s

/-- A word is pushed to a mailbox (R238). -/
def execMailboxWrite (box : Fin 5) (word : Word) (s : State) : Host.Outcome State Fault Refusal := done (mailboxWrite box word s)

/-! ### Port packets (R226, R227, R233, R239, R245) -/

/-- The little-endian words of a list of bytes; a last word that is not whole is left out. -/
def bytesWords : List Byte → List Word
  | a :: b :: c :: d :: rest => wordOfBytes a b c d :: bytesWords rest
  | _ => []

/-- Bytes that a packet's header asks for, without the CRC (R226, R227). -/
def packetLength (bs : List Byte) : Nat :=
  8 + 4 * ((bs.getD 4 0).toNat + 256 * (bs.getD 5 0).toNat) + bif bs.getD 7 0 == 0 then 0 else 8

/-- The request in the bytes of a packet, when their number agrees with LEN (R226, R227, R233). -/
def packetRequest (src : Source) (bs : List Byte) : Option Req :=
  match bytesWords bs with
  | h0 :: h1 :: rest =>
    let len := h1.extractLsb' 0 16
    let sess := h1.extractLsb' 24 8
    bif bs.length == packetLength bs then
      some { src := src, opc := h0.extractLsb' 0 8, flg := h0.extractLsb' 8 8, seq := h0.extractLsb' 16 16, len := len,
             unit := h1.extractLsb' 16 8, sess := sess, params := rest.take len.toNat,
             tag := bif sess == 0 then none else some (Aes.tagOf (bs.drop (8 + 4 * len.toNat))) }
    else none
  | _ => none

/-- A packet with its CRC trailer arrives on port `k`: it waits in the port's buffer of eight, or finds it full (R239). -/
def portPacket (src : Source) (k : Nat) (bs : List Byte) (s : State) : State :=
  let x := s.port k
  bif Nat.ble 8 x.rx.length then portFull k s else s.putPort k { x with rx := x.rx ++ [(src, bs)] }

/-- The command path takes a packet of port `k` (R233). -/
def portTake (k : Nat) (src : Source) (bs : List Byte) (s : State) : State :=
  let n := bs.length - 4
  let body := bs.take n
  bif Nat.blt bs.length 12 || bs.drop n != wordBytes (crc32c body) then portCrc k s
  else match packetRequest src body with
    | none => portCrc k s
    | some r => arrive r s

/-- The command path empties the buffer of port `k`. -/
def portDrain (k : Nat) (s : State) : State :=
  let x := s.port k
  bif x.rx.isEmpty then s else x.rx.foldl (fun u p => portTake k p.1 p.2 u) (s.putPort k { x with rx := [] })

/-- The command path empties the buffers of ports, in this order. -/
def portsDrain (l : List Nat) (s : State) : State := l.foldl (fun u k => portDrain k u) s

/-- The command path takes the requests that have come: of the internal queues in ascending MID, then of the ports in ascending number
(R245). -/
def requestsTake (s : State) : State := portsDrain portOrder (boxesDrain boxOrder s)

/-- The command path takes the requests that come before one of `x` that arrives now: those of the same requester that wait, and those of
requesters that R245 puts before it (R244, R245). -/
def requestsBefore (x : Source) (s : State) : State :=
  match x with
  | .mailbox b => boxesDrain (boxOrder.filter fun c => Nat.ble (boxMid c.val) (boxMid b.val)) s
  | _ => portsDrain (portOrder.filter fun k => Nat.ble k ((portOf x).getD 0)) (boxesDrain boxOrder s)

/-- PERC passes the effect of the oldest slow request, or chain, to the fast command path (R242), which takes first the fast requests that
have come in the same cycle (R245). -/
def percGroup (s : State) : State :=
  let g := firstGroup s.gnorum.slow
  bif g.1.isEmpty then s else updPoll (perform g.1 (requestsTake { s with gnorum := { s.gnorum with slow := g.2 } }))

/-- A request arrives, behind those that R244 and R245 put before it; a slow one that finds no other before it at PERC is taken at once. -/
def request (r : Req) (s : State) : State :=
  let t := requestsBefore r.src s
  let u := arrive r t
  bif t.gnorum.slow.isEmpty && !isFast r then percGroup u else u

/-- A write group of PERC (R242). -/
def execPercWriteGroup (s : State) : Host.Outcome State Fault Refusal := done (byPerc s percGroup)

/-! ### The opcodes as commands: the request arrives with the row's opcode -/

/-- PING (R255), opcode 0x00: returns TB at execution. -/
def execPing (r : Req) (s : State) : Host.Outcome State Fault Refusal := done (request { r with opc := 0x00 } s)

/-- INFO (R255), opcode 0x01: returns part ID, versions and debug state. -/
def execInfo (r : Req) (s : State) : Host.Outcome State Fault Refusal := done (request { r with opc := 0x01 } s)

/-- STATUS (R255), opcode 0x02: returns tracker states, pair service, safe mode and OUTEN. -/
def execStatus (r : Req) (s : State) : Host.Outcome State Fault Refusal := done (request { r with opc := 0x02 } s)

/-- REG_READ (R255), opcode 0x03: reads 1 to 64 register words as judged by ACT. -/
def execRegRead (r : Req) (s : State) : Host.Outcome State Fault Refusal := done (request { r with opc := 0x03 } s)

/-- REG_WRITE (R255), opcode 0x04: has PERC write a masked register value as a bus write. -/
def execRegWrite (r : Req) (s : State) : Host.Outcome State Fault Refusal := done (request { r with opc := 0x04 } s)

/-- JOB_QUERY (R255), opcode 0x05: reports the state and final status of a job, freeing the slot when it has ended. -/
def execJobQuery (r : Req) (s : State) : Host.Outcome State Fault Refusal := done (request { r with opc := 0x05 } s)

/-- RESET_UNIT (R255), opcode 0x06: resets pair A, pair B or PERC, refusing the last pair without FORCE. -/
def execResetUnit (r : Req) (s : State) : Host.Outcome State Fault Refusal := done (request { r with opc := 0x06 } s)

/-- TRK_CFG (R256), opcode 0x10: writes a tracker's configuration images. -/
def execTrkCfg (r : Req) (s : State) : Host.Outcome State Fault Refusal := done (request { r with opc := 0x10 } s)

/-- TRK_EN (R256), opcode 0x11: enables or disables a tracker. -/
def execTrkEn (r : Req) (s : State) : Host.Outcome State Fault Refusal := done (request { r with opc := 0x11 } s)

/-- WHEEL_STAGE (R256), opcode 0x12: fills the PERC wheel staging buffer. -/
def execWheelStage (r : Req) (s : State) : Host.Outcome State Fault Refusal := done (request { r with opc := 0x12 } s)

/-- WHEEL_LOAD (R256), opcode 0x13: checks the staged wheel under R38 and writes it with a descriptor and NGAP. -/
def execWheelLoad (r : Req) (s : State) : Host.Outcome State Fault Refusal := done (request { r with opc := 0x13 } s)

/-- WHEEL_SWITCH (R256), opcode 0x14: requests a wheel switch as a long-running job. -/
def execWheelSwitch (r : Req) (s : State) : Host.Outcome State Fault Refusal := done (request { r with opc := 0x14 } s)

/-- SYNC_CTL (R256), opcode 0x15: writes one SCTL bit. -/
def execSyncCtl (r : Req) (s : State) : Host.Outcome State Fault Refusal := done (request { r with opc := 0x15 } s)

/-- CORR_LOAD (R256), opcode 0x16: loads CORR values and restarts learning. -/
def execCorrLoad (r : Req) (s : State) : Host.Outcome State Fault Refusal := done (request { r with opc := 0x16 } s)

/-- PROF_LOAD (R256), opcode 0x17: loads acceleration profile slots. -/
def execProfLoad (r : Req) (s : State) : Host.Outcome State Fault Refusal := done (request { r with opc := 0x17 } s)

/-- TRK_READ (R256), opcode 0x18: returns tracker state registers. -/
def execTrkRead (r : Req) (s : State) : Host.Outcome State Fault Refusal := done (request { r with opc := 0x18 } s)

/-- PSTORE_READ (R256), opcode 0x19: returns tooth period store words. -/
def execPstoreRead (r : Req) (s : State) : Host.Outcome State Fault Refusal := done (request { r with opc := 0x19 } s)

/-- TI_CFG (R256), opcode 0x1A: writes an input's configuration images. -/
def execTiCfg (r : Req) (s : State) : Host.Outcome State Fault Refusal := done (request { r with opc := 0x1A } s)

/-- TI_READ (R256), opcode 0x1B: returns an input's status registers. -/
def execTiRead (r : Req) (s : State) : Host.Outcome State Fault Refusal := done (request { r with opc := 0x1B } s)

/-- EVT_WRITE (R257), opcode 0x20: writes an event descriptor to a selected bank after the envelope check. -/
def execEvtWrite (r : Req) (s : State) : Host.Outcome State Fault Refusal := done (request { r with opc := 0x20 } s)

/-- EVT_EN (R257), opcode 0x21: sets or clears EN of a descriptor. -/
def execEvtEn (r : Req) (s : State) : Host.Outcome State Fault Refusal := done (request { r with opc := 0x21 } s)

/-- TRIM_WRITE (R257), opcode 0x22: writes ATRIM and/or DTRIM of an event. -/
def execTrimWrite (r : Req) (s : State) : Host.Outcome State Fault Refusal := done (request { r with opc := 0x22 } s)

/-- TRIM_ADD (R257), opcode 0x23: adds signed increments to the trims, saturating before the envelope check. -/
def execTrimAdd (r : Req) (s : State) : Host.Outcome State Fault Refusal := done (request { r with opc := 0x23 } s)

/-- EVT_FIRE (R257), opcode 0x24: triggers a TD event with TRIG 32 at the FCP completion tk. -/
def execEvtFire (r : Req) (s : State) : Host.Outcome State Fault Refusal := done (request { r with opc := 0x24 } s)

/-- EVT_WRITE_N (R257), opcode 0x25: writes up to eight descriptors all together or not at all. -/
def execEvtWriteN (r : Req) (s : State) : Host.Outcome State Fault Refusal := done (request { r with opc := 0x25 } s)

/-- EVT_READ (R257), opcode 0x26: returns a descriptor and its trim. -/
def execEvtRead (r : Req) (s : State) : Host.Outcome State Fault Refusal := done (request { r with opc := 0x26 } s)

/-- CH_READ (R257), opcode 0x27: returns a channel's envelope and status. -/
def execChRead (r : Req) (s : State) : Host.Outcome State Fault Refusal := done (request { r with opc := 0x27 } s)

/-- ENV_WRITE (R257), opcode 0x28: writes a channel's envelope registers. -/
def execEnvWrite (r : Req) (s : State) : Host.Outcome State Fault Refusal := done (request { r with opc := 0x28 } s)

/-- BANK_SWITCH (R257), opcode 0x29: requests an event bank switch as a long-running job. -/
def execBankSwitch (r : Req) (s : State) : Host.Outcome State Fault Refusal := done (request { r with opc := 0x29 } s)

/-- BANK_COPY (R257), opcode 0x2A: copies one event bank over the other as a long-running job. -/
def execBankCopy (r : Req) (s : State) : Host.Outcome State Fault Refusal := done (request { r with opc := 0x2A } s)

/-- BANK_ANG (R257), opcode 0x2B: writes BANGn and optional CREF angles. -/
def execBankAng (r : Req) (s : State) : Host.Outcome State Fault Refusal := done (request { r with opc := 0x2B } s)

/-- HORIZON (R257), opcode 0x2C: writes HTn and HAn. -/
def execHorizon (r : Req) (s : State) : Host.Outcome State Fault Refusal := done (request { r with opc := 0x2C } s)

/-- ESQ_ASSIGN (R257), opcode 0x2D: writes an ESQ's OWN, EVRNG and CFG. -/
def execEsqAssign (r : Req) (s : State) : Host.Outcome State Fault Refusal := done (request { r with opc := 0x2D } s)

/-- ESQ_CTL (R257), opcode 0x2E: writes an ESQ's FCLR and RUN. -/
def execEsqCtl (r : Req) (s : State) : Host.Outcome State Fault Refusal := done (request { r with opc := 0x2E } s)

/-- ESQ_UBANK (R257), opcode 0x2F: requests a microcode bank switch as a long-running job. -/
def execEsqUbank (r : Req) (s : State) : Host.Outcome State Fault Refusal := done (request { r with opc := 0x2F } s)

/-- CRL_CFG (R258), opcode 0x30: writes a loop's CFG, LIM and DTLIM. -/
def execCrlCfg (r : Req) (s : State) : Host.Outcome State Fault Refusal := done (request { r with opc := 0x30 } s)

/-- CRL_CTL (R258), opcode 0x31: writes a loop's FCLR. -/
def execCrlCtl (r : Req) (s : State) : Host.Outcome State Fault Refusal := done (request { r with opc := 0x31 } s)

/-- CSE_PROF (R258), opcode 0x32: writes a profile into a program bank that is not in use. -/
def execCseProf (r : Req) (s : State) : Host.Outcome State Fault Refusal := done (request { r with opc := 0x32 } s)

/-- CSE_PBANK (R258), opcode 0x33: requests a program bank switch as a long-running job. -/
def execCsePbank (r : Req) (s : State) : Host.Outcome State Fault Refusal := done (request { r with opc := 0x33 } s)

/-- CRL_READ (R258), opcode 0x34: returns a loop's status and last result. -/
def execCrlRead (r : Req) (s : State) : Host.Outcome State Fault Refusal := done (request { r with opc := 0x34 } s)

/-- CSE_RING (R258), opcode 0x35: writes a CSE's result ring base and configuration. -/
def execCseRing (r : Req) (s : State) : Host.Outcome State Fault Refusal := done (request { r with opc := 0x35 } s)

/-- GPT_CFG (R258), opcode 0x38: writes a timer's configuration images in order. -/
def execGptCfg (r : Req) (s : State) : Host.Outcome State Fault Refusal := done (request { r with opc := 0x38 } s)

/-- BREW (R258), opcode 0x39: writes GPT.BREW and returns the start TB. -/
def execBrew (r : Req) (s : State) : Host.Outcome State Fault Refusal := done (request { r with opc := 0x39 } s)

/-- BREW_RING (R258), opcode 0x3A: writes RBMSK and then a ring BREW. -/
def execBrewRing (r : Req) (s : State) : Host.Outcome State Fault Refusal := done (request { r with opc := 0x3A } s)

/-- GPT_READ (R258), opcode 0x3B: returns a timer's registers. -/
def execGptRead (r : Req) (s : State) : Host.Outcome State Fault Refusal := done (request { r with opc := 0x3B } s)

/-- WORK_WRITE (R259), opcode 0x40: writes ATn.WCYLc. -/
def execWorkWrite (r : Req) (s : State) : Host.Outcome State Fault Refusal := done (request { r with opc := 0x40 } s)

/-- CAE_PARAM (R259), opcode 0x41: writes consecutive CAE parameter registers. -/
def execCaeParam (r : Req) (s : State) : Host.Outcome State Fault Refusal := done (request { r with opc := 0x41 } s)

/-- CAE_CYL (R259), opcode 0x42: writes a cylinder's CAE parameters. -/
def execCaeCyl (r : Req) (s : State) : Host.Outcome State Fault Refusal := done (request { r with opc := 0x42 } s)

/-- CAE_CTL (R259), opcode 0x43: writes CAE FCLR and RUN. -/
def execCaeCtl (r : Req) (s : State) : Host.Outcome State Fault Refusal := done (request { r with opc := 0x43 } s)

/-- PADC_CFG (R259), opcode 0x44: writes the sampling configuration. -/
def execPadcCfg (r : Req) (s : State) : Host.Outcome State Fault Refusal := done (request { r with opc := 0x44 } s)

/-- REC_READ (R259), opcode 0x45: returns cycle records. -/
def execRecRead (r : Req) (s : State) : Host.Outcome State Fault Refusal := done (request { r with opc := 0x45 } s)

/-- CAE_KBANK (R259), opcode 0x46: requests a kernel bank switch as a long-running job. -/
def execCaeKbank (r : Req) (s : State) : Host.Outcome State Fault Refusal := done (request { r with opc := 0x46 } s)

/-- HADC_SEQ (R259), opcode 0x50: writes a sequence and its entries. -/
def execHadcSeq (r : Req) (s : State) : Host.Outcome State Fault Refusal := done (request { r with opc := 0x50 } s)

/-- HADC_READ (R259), opcode 0x51: reads HADC results, clearing NEW. -/
def execHadcRead (r : Req) (s : State) : Host.Outcome State Fault Refusal := done (request { r with opc := 0x51 } s)

/-- HADC_TRG (R259), opcode 0x52: writes HADC.SWTRG. -/
def execHadcTrg (r : Req) (s : State) : Host.Outcome State Fault Refusal := done (request { r with opc := 0x52 } s)

/-- CMP_CFG (R259), opcode 0x53: writes a comparator's configuration and thresholds. -/
def execCmpCfg (r : Req) (s : State) : Host.Outcome State Fault Refusal := done (request { r with opc := 0x53 } s)

/-- CMP_READ (R259), opcode 0x54: returns a comparator's status and latch, optionally clearing set latch bits. -/
def execCmpRead (r : Req) (s : State) : Host.Outcome State Fault Refusal := done (request { r with opc := 0x54 } s)

/-- HADC_CTL (R259), opcode 0x55: writes HADC.CTL. -/
def execHadcCtl (r : Req) (s : State) : Host.Outcome State Fault Refusal := done (request { r with opc := 0x55 } s)

/-- Q_CFG (R260), opcode 0x58: writes a queue's configuration, refusing Q0 to Q9. -/
def execQCfg (r : Req) (s : State) : Host.Outcome State Fault Refusal := done (request { r with opc := 0x58 } s)

/-- Q_STAT (R260), opcode 0x59: returns a queue's status words. -/
def execQStat (r : Req) (s : State) : Host.Outcome State Fault Refusal := done (request { r with opc := 0x59 } s)

/-- DMA_CTL (R260), opcode 0x5A: writes a DMA channel's control word. -/
def execDmaCtl (r : Req) (s : State) : Host.Outcome State Fault Refusal := done (request { r with opc := 0x5A } s)

/-- DMA_STAT (R260), opcode 0x5B: returns a DMA channel's status. -/
def execDmaStat (r : Req) (s : State) : Host.Outcome State Fault Refusal := done (request { r with opc := 0x5B } s)

/-- PWR_ENTER (R260), opcode 0x60: requests a power state with wake sources and retention. -/
def execPwrEnter (r : Req) (s : State) : Host.Outcome State Fault Refusal := done (request { r with opc := 0x60 } s)

/-- PWR_READ (R260), opcode 0x61: returns the power state and last wake source. -/
def execPwrRead (r : Req) (s : State) : Host.Outcome State Fault Refusal := done (request { r with opc := 0x61 } s)

/-- OUTEN_SET (R260), opcode 0x68: sets all masked OUTEN bits or none. -/
def execOutenSet (r : Req) (s : State) : Host.Outcome State Fault Refusal := done (request { r with opc := 0x68 } s)

/-- OUTEN_CLR (R260), opcode 0x69: clears the masked OUTEN bits. -/
def execOutenClr (r : Req) (s : State) : Host.Outcome State Fault Refusal := done (request { r with opc := 0x69 } s)

/-- OUT_READ (R260), opcode 0x6A: returns OUTEN, OREL_N and standby state. -/
def execOutRead (r : Req) (s : State) : Host.Outcome State Fault Refusal := done (request { r with opc := 0x6A } s)

/-- LOG_READ (R262), opcode 0x70: returns log records. -/
def execLogRead (r : Req) (s : State) : Host.Outcome State Fault Refusal := done (request { r with opc := 0x70 } s)

/-- LOG_CFG (R262), opcode 0x71: sets a source's log rate and burst. -/
def execLogCfg (r : Req) (s : State) : Host.Outcome State Fault Refusal := done (request { r with opc := 0x71 } s)

/-- SENSOR_READ (R262), opcode 0x72: returns sensor readings and clears the clock monitor history bits. -/
def execSensorRead (r : Req) (s : State) : Host.Outcome State Fault Refusal := done (request { r with opc := 0x72 } s)

/-- ALARM_SUB (R262), opcode 0x73: opens or closes an alarm subscription. -/
def execAlarmSub (r : Req) (s : State) : Host.Outcome State Fault Refusal := done (request { r with opc := 0x73 } s)

/-- KETTLE_READ (R262), opcode 0x74: returns Kettle reset information. -/
def execKettleRead (r : Req) (s : State) : Host.Outcome State Fault Refusal := done (request { r with opc := 0x74 } s)

/-- UPD_BEGIN (R359), opcode 0x80: opens an update, erasing the inactive slot or resuming an interrupted update. -/
def execUpdBegin (r : Req) (s : State) : Host.Outcome State Fault Refusal := done (request { r with opc := 0x80 } s)

/-- UPD_DATA (R262), opcode 0x81: writes image data at the next offset. -/
def execUpdData (r : Req) (s : State) : Host.Outcome State Fault Refusal := done (request { r with opc := 0x81 } s)

/-- UPD_VERIFY (R360), opcode 0x82: checks the slot's header, signature, digest, SVN and content. -/
def execUpdVerify (r : Req) (s : State) : Host.Outcome State Fault Refusal := done (request { r with opc := 0x82 } s)

/-- UPD_ACTIVATE (R361), opcode 0x83: loads a verified image and switches it in at its safe point. -/
def execUpdActivate (r : Req) (s : State) : Host.Outcome State Fault Refusal := done (request { r with opc := 0x83 } s)

/-- UPD_REVERT (R365), opcode 0x84: makes the other verified slot active again. -/
def execUpdRevert (r : Req) (s : State) : Host.Outcome State Fault Refusal := done (request { r with opc := 0x84 } s)

/-- UPD_ABORT (R263), opcode 0x85: closes the update and marks the inactive slot invalid. -/
def execUpdAbort (r : Req) (s : State) : Host.Outcome State Fault Refusal := done (request { r with opc := 0x85 } s)

/-- CAR_CFG (R264), opcode 0x90: writes the carafe configuration. -/
def execCarCfg (r : Req) (s : State) : Host.Outcome State Fault Refusal := done (request { r with opc := 0x90 } s)

/-- CAR_READ (R264), opcode 0x91: returns members, roles and tallies. -/
def execCarRead (r : Req) (s : State) : Host.Outcome State Fault Refusal := done (request { r with opc := 0x91 } s)

/-- CAR_HANDOVER (R386), opcode 0x92: schedules a handover of the outputs to a member at TBS. -/
def execCarHandover (r : Req) (s : State) : Host.Outcome State Fault Refusal := done (request { r with opc := 0x92 } s)

/-- CAR_UBANK (R264), opcode 0x93: schedules a carafe-wide microcode bank request at TBS. -/
def execCarUbank (r : Req) (s : State) : Host.Outcome State Fault Refusal := done (request { r with opc := 0x93 } s)

/-- OREL_SET (R264), opcode 0x94: asserts or releases a peer's OREL_N. -/
def execOrelSet (r : Req) (s : State) : Host.Outcome State Fault Refusal := done (request { r with opc := 0x94 } s)

/-- SESS_OPEN (R265), opcode 0xA0: opens a session and derives its key from the nonces. -/
def execSessOpen (r : Req) (s : State) : Host.Outcome State Fault Refusal := done (request { r with opc := 0xA0 } s)

/-- SESS_CLOSE (R264), opcode 0xA1: closes a session. -/
def execSessClose (r : Req) (s : State) : Host.Outcome State Fault Refusal := done (request { r with opc := 0xA1 } s)

/-- DBG_CHAL (R369), opcode 0xA2: returns a debug challenge. -/
def execDbgChal (r : Req) (s : State) : Host.Outcome State Fault Refusal := done (request { r with opc := 0xA2 } s)

/-- DBG_RESP (R369), opcode 0xA3: verifies a signed response and enters AUTH. -/
def execDbgResp (r : Req) (s : State) : Host.Outcome State Fault Refusal := done (request { r with opc := 0xA3 } s)

/-- SEC_READ (R264), opcode 0xA4: returns the security state. -/
def execSecRead (r : Req) (s : State) : Host.Outcome State Fault Refusal := done (request { r with opc := 0xA4 } s)

/-- KEY_REVOKE (R265), opcode 0xA5: burns a root-key revocation fuse, refusing the last key. -/
def execKeyRevoke (r : Req) (s : State) : Host.Outcome State Fault Refusal := done (request { r with opc := 0xA5 } s)

/-- CAL_CRL (R266), opcode 0xB0: requests a loop sense-offset calibration. -/
def execCalCrl (r : Req) (s : State) : Host.Outcome State Fault Refusal := done (request { r with opc := 0xB0 } s)

/-- CAL_PADC (R266), opcode 0xB1: requests a PADC core calibration. -/
def execCalPadc (r : Req) (s : State) : Host.Outcome State Fault Refusal := done (request { r with opc := 0xB1 } s)

/-- CAL_HADC (R266), opcode 0xB2: requests an HADC calibration. -/
def execCalHadc (r : Req) (s : State) : Host.Outcome State Fault Refusal := done (request { r with opc := 0xB2 } s)

/-- TEST_ESQ (R266), opcode 0xB3: runs an ESQ self-test as a job. -/
def execTestEsq (r : Req) (s : State) : Host.Outcome State Fault Refusal := done (request { r with opc := 0xB3 } s)

/-- TEST_LOCK (R266), opcode 0xB4: runs a pair's lockstep self-test as a job. -/
def execTestLock (r : Req) (s : State) : Host.Outcome State Fault Refusal := done (request { r with opc := 0xB4 } s)

/-- SRAM_OFFLINE (R266), opcode 0xB5: takes an SRAM bank offline or online. -/
def execSramOffline (r : Req) (s : State) : Host.Outcome State Fault Refusal := done (request { r with opc := 0xB5 } s)

/-- TEST_SRAM (R266), opcode 0xB6: runs a bank test on an offline bank. -/
def execTestSram (r : Req) (s : State) : Host.Outcome State Fault Refusal := done (request { r with opc := 0xB6 } s)

/-- TRK_GEN (R266), opcode 0xB7: drives a tracker from an edge generator for a number of revolutions. -/
def execTrkGen (r : Req) (s : State) : Host.Outcome State Fault Refusal := done (request { r with opc := 0xB7 } s)

end Sys2Proof.Machine
end

