-- ==== Sys2Proof/Machine/Ports.lean ====
section
/-! DEFINITION. The external ports: host SPI, Ethernet, CAN FD and UART with their framing, and PSPI, SENT, OSPI, I2C, JTAG and TRACE
(R233, R236, R237, R410 to R419). -/

namespace Sys2Proof.Machine

open Fields

/-! ### Host SPI (R412, R413) -/

/-- A transaction that does not begin with 0x52: its bytes as the host sent them (R236, R412). -/
def hspiRequest (p : Fin 2) (bytes : List Byte) (s : State) : State :=
  bif !listening s (.hspi p) then s
  else match bytes with
    | b0 :: b1 :: b2 :: rest =>
      let n := b1.toNat + 256 * b2.toNat
      bif b0 == 0x52 then s
      else bif b0 != 0x47 || Nat.blt n 8 || Nat.blt 1016 n || Nat.blt rest.length (n + 4) then portDisc p.val s
      else portPacket (.hspi p) p.val (rest.take (n + 4)) s
    | [b0] => bif b0 == 0x52 then s else portDisc p.val s
    | [b0, _] => bif b0 == 0x52 then s else portDisc p.val s
    | [] => portDisc p.val s

/-- A request transaction (R412). -/
def execHspiRequestTransaction (p : Fin 2) (bytes : List Byte) (s : State) : Host.Outcome State Fault Refusal := done (hspiRequest p bytes s)

/-- HSPIn_RDY: a reply is pending (R236, R413). -/
def hspiReady (s : State) (p : Fin 2) : Bool := !(s.port p).replies.isEmpty

/-- A read transaction offers the oldest reply, which leaves when the transaction is complete (R236, R413). -/
def hspiRead (p : Fin 2) (complete : Bool) (s : State) : State :=
  let x := s.port p
  bif !listening s (.hspi p) then s
  else s.putPort p { x with out := hspiBytes x.replies.head?, replies := bif complete then x.replies.drop 1 else x.replies }

/-- A read transaction (R413). -/
def execHspiReadTransaction (p : Fin 2) (complete : Bool) (s : State) : Host.Outcome State Fault Refusal := done (hspiRead p complete s)

/-! ### Ethernet (R414) -/

/-- An application frame goes to the receive ring, or is discarded while ARXEN = 0 (R414). -/
def ethApp (k : Nat) (bs : List Byte) (s : State) : State :=
  bif s.gnorum.arxen then (let x := s.port k; s.putPort k { x with appRx := x.appRx ++ [bs] }) else portDisc k s

/-- The MAC queues a reply that the hardware makes itself (R414). -/
def ethHardware (k : Nat) (s : State) : State := let x := s.port k; s.putPort k { x with hwTx := x.hwTx + 1 }

/-- An address that a port takes as its own, or as broadcast (R414). -/
def ipMine (s : State) (d : Word) : Bool := d == s.gnorum.ip
def ipBroadcast (s : State) (d : Word) : Bool := d == 0xFFFFFFFF || d == (s.gnorum.ip ||| ~~~s.gnorum.mask)

/-- An Ethernet frame is received (R414). -/
def ethReceive (p : Fin 2) (f : EthFrame) (s : State) : State :=
  let k := 2 + p.val
  let app (d : Word) (bs : List Byte) : State := bif ipMine s d || ipBroadcast s d then ethApp k bs s else portDisc k s
  let badIp := f.badHeader || f.options || f.fragment
  bif !listening s (.eth p 0 0) then s
  else bif f.badFcs then portDisc k s
  else match f.kind with
    | .arp t => bif ipMine s t then ethHardware k s else portDisc k s
    | .icmpEcho d data =>
      bif badIp then portDisc k s else bif ipMine s d && Nat.ble data.length 1472 then ethHardware k s else app d data
    | .udp d src sport dport payload =>
      bif badIp then portDisc k s
      else bif ipMine s d && dport == 49170 then portPacket (.eth p src sport) k payload s
      else app d payload
    | .otherIp d payload => bif badIp then portDisc k s else app d payload
    | .other => portDisc k s

/-- An Ethernet frame is received (R414). -/
def execEthFrameReceive (p : Fin 2) (frame : EthFrame) (s : State) : Host.Outcome State Fault Refusal := done (ethReceive p frame s)

/-- The address and port that sent a request. -/
def requester : Source → Option (Word × BitVec 16)
  | .eth _ src sport => some (src, sport)
  | _ => none

/-- The MAC sends a frame: a reply as a datagram from port 49170 to its requester (R236), a frame of the hardware's own, or an application
frame. Which of the first two goes first the spec does not say: the reply (DESIGN CHOICE, log entry 55). -/
def ethSend (p : Fin 2) (s : State) : State :=
  let k := 2 + p.val
  let x := s.port k
  bif !listening s (.eth p 0 0) then s
  else match x.replies with
    | r :: rest => s.putPort k { x with replies := rest, out := replyPacket r, outTo := requester r.src }
    | [] =>
      bif x.hwTx != 0 then s.putPort k { x with hwTx := x.hwTx - 1, out := [], outTo := none }
      else s.putPort k { x with appTx := x.appTx.drop 1, out := x.appTx.headD [], outTo := none }

/-- An Ethernet frame is sent (R414). -/
def execEthFrameTransmit (p : Fin 2) (s : State) : Host.Outcome State Fault Refusal := done (ethSend p s)

/-! ### CAN FD (R237, R415) -/

/-- The partial packet of port `k` is discarded (R237). -/
def canDrop (k : Nat) (s : State) : State :=
  let x := s.port k
  bif x.part.isSome then portDisc k (s.putPort k { x with part := none }) else s

/-- The last segment has come: the packet is in the bytes, and the last frame is padded (R237). -/
def canPacket (p : Fin 4) (bs : List Byte) (s : State) : State :=
  let n := packetLength bs + 4
  bif Nat.blt bs.length n || Nat.ble (n + 63) bs.length then portCrc (4 + p.val) s
  else portPacket (.can p) (4 + p.val) (bs.take n) s

/-- A segment of a Gnorum packet (R237). -/
def canSegment (p : Fin 4) (ctl : Byte) (bs : List Byte) (s : State) : State :=
  let k := 4 + p.val
  let type := bitsAt ctl.toNat 6 2
  let cnt := bitsAt ctl.toNat 0 6
  bif type == 0 || type == 1 then
    let t := canDrop k s
    bif cnt != 0 then portDisc k t
    else bif type == 0 then canPacket p bs t
    else t.putPort k { t.port k with part := some (bs, 1, s.time) }
  else match (s.port k).part with
    | none => portDisc k s
    | some (got, next, last) =>
      bif cnt != next % 64 || Nat.blt (last + 2000000) s.time then canDrop k s
      else bif type == 2 then s.putPort k { s.port k with part := some (got ++ bs, next + 1, s.time) }
      else canPacket p (got ++ bs) (s.putPort k { s.port k with part := none })

/-- A CAN frame is received (R415). -/
def canReceive (p : Fin 4) (f : CanFrame) (s : State) : State :=
  let k := 4 + p.val
  bif !listening s (.can p) then s
  else bif f.id.toNat == s.get (CAN_GREQ_GREQ p) && f.ide == s.flag (CAN_GID_IDE p) then
    match f.data with
    | ctl :: bs => bif f.fd && bs.length == 63 then canSegment p ctl bs s else portDisc k s
    | [] => portDisc k s
  else
    let x := s.port k
    s.putPort k { x with appRx := x.appRx ++ List.replicate (min 32 (Config.canMatches p f.id f.ide)) f.data }

/-- A CAN frame is received (R237). -/
def execCanFrameReceive (p : Fin 4) (frame : CanFrame) (s : State) : Host.Outcome State Fault Refusal := done (canReceive p frame s)

/-- 10 ms have passed since the last segment (R237). -/
def canExpire (p : Fin 4) (s : State) : State :=
  match (s.port (4 + p.val)).part with
  | some (_, _, last) => bif Nat.blt (last + 2000000) s.time then canDrop (4 + p.val) s else s
  | none => s

/-- A partial packet is given up (R237). -/
def execCanReassemblyTimeout (p : Fin 4) (s : State) : Host.Outcome State Fault Refusal := done (canExpire p s)

/-- The port sends a frame: of a reply, ahead of application frames (R415). -/
def canSend (p : Fin 4) (s : State) : State :=
  let k := 4 + p.val
  let x := s.port k
  bif !listening s (.can p) then s
  else match x.replies with
    | r :: rest =>
      let y := { x with out := canBytes r x.sent }
      s.putPort k (bif Nat.ble (replyFrames r) (x.sent + 1) then { y with replies := rest, sent := 0 } else { y with sent := x.sent + 1 })
    | [] => s.putPort k { x with appTx := x.appTx.drop 1, out := x.appTx.headD [] }

/-- A CAN frame is sent (R415). -/
def execCanFrameTransmit (p : Fin 4) (s : State) : Host.Outcome State Fault Refusal := done (canSend p s)

/-! ### UART (R236, R416) -/

/-- The bytes of a frame without their escapes; none where an escape ends it or a delimiter stands in it (R236). -/
def unescape : List Byte → Option (List Byte)
  | [] => some []
  | 0x7D#8 :: b :: rest => (unescape rest).map fun l => (b ^^^ 0x20) :: l
  | b :: rest => bif b == 0x7D || b == 0x7E then none else (unescape rest).map fun l => b :: l

/-- A frame: the bytes between its delimiters, as they came (R416). -/
def uartReceive (p : Fin 2) (bytes : List Byte) (lineError : Bool) (s : State) : State :=
  let k := 14 + p.val
  bif !listening s (.uart p false) then s
  else bif lineError then portDisc k s
  else match unescape bytes with
    | none => portDisc k s
    | some [] => s
    | some (a :: rest) =>
      bif a == 0xFF then portPacket (.uart p true) k rest s
      else bif a.toNat == s.get (UART_ADDR_ADDR p) then portPacket (.uart p false) k rest s
      else s

/-- A UART frame is received (R416). -/
def execUartFrameReceive (p : Fin 2) (bytes : List Byte) (lineError : Bool) (s : State) : Host.Outcome State Fault Refusal :=
  done (uartReceive p bytes lineError s)

/-- The line has been idle for two character times, and the oldest reply goes out (R416). -/
def uartSend (p : Fin 2) (s : State) : State :=
  let k := 14 + p.val
  let x := s.port k
  bif !listening s (.uart p false) then s
  else match x.replies with
    | r :: rest => s.putPort k { x with replies := rest, out := uartBytes (BitVec.ofNat 8 (s.get (UART_ADDR_ADDR p))) r }
    | [] => s

/-- A reply is sent (R416). -/
def execUartReplySend (p : Fin 2) (s : State) : Host.Outcome State Fault Refusal := done (uartSend p s)

/-! ### Other ports (R417, R419) -/

/-- The peripherals run: RUN or SIMMER, out of reset (R397). -/
def portsRun (s : State) : Bool := !s.power.inReset && Nat.blt (s.get CPR_PWRSTAT_STATE) 2

/-- Change the small ports. -/
def State.modPorts (s : State) (f : Ports → Ports) : State := { s with ports := f s.ports }

/-- A list of PSPI port `p` runs. -/
def pspiRuns (s : State) (p : Nat) : Bool := findAt (fun _ => false) p s.ports.pspiRun

/-- A trigger of a transfer list: it starts, or is dropped while one runs (R417). -/
def pspiStart (p : Nat) (s : State) : State :=
  bif !portsRun s || !hasPort s (8 + p) then s
  else bif pspiRuns s p then s.modPorts fun x => { x with pspiTovr := putAt p true x.pspiTovr }
  else s.modPorts fun x => { x with pspiRun := putAt p true x.pspiRun }

/-- A trigger of a transfer list (R417). -/
def execPspiListStart (p : Fin 2) (s : State) : Host.Outcome State Fault Refusal := done (pspiStart p s)

/-- A transfer list is complete (R417). -/
def execPspiListDone (p : Fin 2) (s : State) : Host.Outcome State Fault Refusal :=
  done (whenS (pspiRuns s p) (·.modPorts fun x => { x with pspiRun := putAt p false x.pspiRun }) s)

/-- A SENT message (R417): kept with the TB of its calibration pulse, or discarded and counted. -/
def sentReceive (p : Nat) (m : SentMsg) (s : State) : State :=
  bif !portsRun s || !hasPort s (10 + p) then s
  else bif !m.crcOk || m.calOver25 then s.modPorts fun x => { x with sentDisc := putAt p (findAt (fun _ => 0) p x.sentDisc + 1) x.sentDisc }
  else s.modPorts fun x =>
    { x with sentMsgs := putAt p (findAt (fun _ => []) p x.sentMsgs ++ [(m.data, s.now - m.calAgo, m.succDev)]) x.sentMsgs }

/-- A SENT message (R417). -/
def execSentMessageReceive (p : Fin 4) (msg : SentMsg) (s : State) : Host.Outcome State Fault Refusal := done (sentReceive p msg s)

/-- The I2C bus has been held low for 35 ms: it is freed, and PERC logs it as WARN (R417). -/
def i2cFree (s : State) : State := offerStep 2 26 (s.modPorts fun x => { x with i2cStuck := x.i2cStuck + 1 })

/-- The I2C bus is stuck (R417). -/
def execI2cBusStuck (s : State) : Host.Outcome State Fault Refusal := done (byPerc s i2cFree)

/-- An XIP read suspends a program or erase of the flash that is under way (R417). -/
def ospiSuspend (s : State) : State :=
  bif portsRun s && s.update.slots.any fun x => x.2.erasing then s.modPorts fun x => { x with ospiSuspended := true } else s

/-- An XIP read during a flash operation (R417). -/
def execOspiXipSuspend (s : State) : Host.Outcome State Fault Refusal := done (ospiSuspend s)

/-- The trace buffer has overflowed: an OVERRUN marker with the count of the packets discarded, and a timestamp packet after it (R419). -/
def traceOverrun (n : Word) (s : State) : State :=
  bif portsRun s && hasPort s 19 then s.modPorts fun x => { x with traceMarkers := x.traceMarkers + 1, traceLost := n, traceStamp := s.tb.extractLsb' 0 48 } else s

/-- The trace buffer overflows (R419). -/
def execTraceOverflow (discarded : BitVec 32) (s : State) : Host.Outcome State Fault Refusal := done (traceOverrun discarded s)

/-- TRST_N: the TAP is in Test-Logic-Reset (R417). -/
def execJtagTapReset (s : State) : Host.Outcome State Fault Refusal := done (s.modPower fun p => { p with tapReset := true })

end Sys2Proof.Machine
end

