-- ==== Sys2Proof/Machine/Cache.lean ====
section
/-! DEFINITION. How an application core reaches memory: physical memory protection, attributes, the data cache, TCM and the bus
(R269, R270, R272 to R276). -/

namespace Sys2Proof.Machine

open Fields

/-! ### Physical memory protection (R269): eight entries, granularity 4 KiB. PRESUMED (log entry 32) from the RISC-V privileged
architecture, which R269 names. -/

/-- Configuration byte of entry `i`. -/
def pmpCfg (c : Core) (i : Nat) : Nat := bitsAt (csrOf c (0x3A0 + i / 4)).toNat (8 * (i % 4)) 8

/-- Address register of entry `i`, in units of 4 bytes. -/
def pmpAddr (c : Core) (i : Nat) : Nat := (csrOf c (0x3B0 + i)).toNat

/-- Trailing ones of `n`, at most `k`. -/
def trailingOnes (n : Nat) : Nat → Nat
  | 0 => 0
  | k + 1 => bif n % 2 == 1 then trailingOnes (n / 2) k + 1 else 0

/-- Entry `i` covers the address. -/
def pmpCovers (c : Core) (i a : Nat) : Bool :=
  let w := a / 4
  match bitsAt (pmpCfg c i) 3 2 with
  | 1 => Nat.ble ((bif i == 0 then 0 else pmpAddr c (i - 1)) / 1024 * 1024) w && Nat.blt w (pmpAddr c i / 1024 * 1024)
  | 3 =>
    let p := pmpAddr c i ||| 0x1FF
    let k := trailingOnes p 32 + 1
    w / 2 ^ k == p / 2 ^ k
  | _ => false

/-- The access is allowed: `bit` 0 read, 1 write, 2 execute; `machine` the privilege it is made with. -/
def pmpAllows (c : Core) (machine : Bool) (bit a : Nat) : Bool :=
  match (List.range 8).find? fun i => pmpCovers c i a with
  | none => machine
  | some i => (machine && !bitAt (pmpCfg c i) 7) || bitAt (pmpCfg c i) bit

/-- The privilege of a load or store: MPRV substitutes MPP in machine mode. -/
def dataMachine (c : Core) : Bool :=
  let m := (csrOf c 0x300).toNat
  let mpp := match c.stack with
    | [] => bitsAt m 11 2
    | x :: _ => x.mpp.toNat
  bif c.machine && bitAt m 17 then mpp == 3 else c.machine

/-! ### Attributes (R272, R273) -/

/-- How the data side of a core treats an address. -/
inductive Attr where
  | tcm
  /-- cacheable, read-only -/
  | rom
  | wb
  | shared
  /-- UNCACHED or DEVICE -/
  | direct
  deriving DecidableEq, Repr

/-- The attribute region `i` is enabled and covers `a`. -/
def mattCovers (c : Core) (i a : Nat) : Bool :=
  let w := (csrOf c (0x7D0 + i)).toNat
  let z := bitsAt w 7 5
  bitAt w 0 && a / 2 ^ z == (w / 4096 * 4096) / 2 ^ z

/-- The attribute of an address. -/
def attrOf (c : Core) (a : Nat) : Attr :=
  bif within 0x08000000 0x20000 a then .tcm
  else bif within 0 0x10000 a || within 0x20000000 0x10000000 a then .rom
  else bif (sramBank a).isSome then
    match (List.range 8).find? fun i => mattCovers c i a with
    | none => .wb
    | some i => match bitsAt (csrOf c (0x7D0 + i)).toNat 1 2 with
      | 0 => .wb
      | 1 => .shared
      | _ => .direct
  else .direct

/-! ### Data cache (R274): 128 sets of four lines of 64 bytes -/

/-- The line of an address. -/
def lineOf (a : Nat) : Nat := a / 64

/-- The lines of core `n`'s data cache in the set of line `l`. -/
def setLines (c : Core) (l : Nat) : List Nat := (c.dlines.filter fun p => p.1 % 128 == l % 128).map (·.1)

/-- The line, where the cache holds it. -/
def dline (c : Core) (l : Nat) : Option Line := findAt (fun _ => none) l c.dlines

/-- Words of four bytes each. -/
def lineWords : List Byte → List Word
  | b0 :: b1 :: b2 :: b3 :: rest => wordOfBytes b0 b1 b2 b3 :: lineWords rest
  | _ => []

/-- The copy of the word `w` in core `n`'s data cache is met: whether it holds an uncorrectable error, which raises source 253 and stops a
lockstep pair; a single-bit error is corrected and counted (R276). -/
def cacheMeet (n w : Nat) (s : State) : Bool × State :=
  let c := s.core n
  bif c.dbad.contains w then (true, (bif s.flag (CPR_PAIRCTL_SPLIT (n / 2)) then s else pairMismatch (n / 2) 2 s).pulse 253)
  else bif c.dsoft.contains w then (false, eccCount 16 n (s.modCore n fun d => { d with dsoft := d.dsoft.filter (· != w) }))
  else (false, s)

/-- A word of a line is written to memory; one that is uncorrectable is not (DEDUCED, log entry 74). -/
def wordClean (n a : Nat) (w : Word) (s : State) : State :=
  match cacheMeet n a s with
  | (true, t) => t
  | (false, t) => (busWrite n a .word w t).2

/-- A dirty line is written to memory (R274); a write that is refused is recorded. -/
def lineClean (n l : Nat) (s : State) : State :=
  match dline (s.core n) l with
  | some x =>
    bif x.dirty then
      let s1 := (lineWords x.bytes).foldl (fun (p : Nat × State) w => (p.1 + 4, wordClean n p.1 w p.2)) (64 * l, s)
      s1.2.modCore n fun c => { c with dlines := putAt l (some { x with dirty := false }) c.dlines }
    else s
  | none => s

/-- A line leaves the cache without being written. -/
def lineDrop (n l : Nat) (s : State) : State := s.modCore n fun c => { c with dlines := dropAt l c.dlines }

/-- Room for line `l`: when its set is full, a line of it is cleaned and leaves. Which one the spec does not say: a free choice
(log entry 33). -/
def lineRoom (n l : Nat) (s : State) : State :=
  let ls := setLines (s.core n) l
  bif Nat.blt ls.length 4 then s
  else
    let r := s.drawNat
    let v := ls.getD (r.1 % 4) 0
    lineDrop n v (lineClean n v r.2)

/-- The words of a line as the bus gives them; none when a read fails. -/
def lineRead (n : Nat) : Nat → Nat → State → Option (List Byte) × State
  | 0, _, s => (some [], s)
  | k + 1, a, s =>
    match busRead n a .word s with
    | (none, t) => (none, t)
    | (some w, t) =>
      match lineRead n k (a + 4) t with
      | (none, u) => (none, u)
      | (some bs, u) => (some (wordBytes w ++ bs), u)

/-- The line is in the cache, fetched if it was not: whether it is, and the state. -/
def lineFill (n l : Nat) (s : State) : Bool × State :=
  bif (dline (s.core n) l).isSome then (true, s)
  else match lineRead n 16 (64 * l) (lineRoom n l s) with
    | (none, t) => (false, t)
    | (some bs, t) => (true, t.modCore n fun c =>
        { c with dlines := putAt l (some { bytes := bs, dirty := false }) c.dlines, dsoft := c.dsoft.filter (· / 64 != l),
                 dbad := c.dbad.filter (· / 64 != l) })

/-- `k` bytes of a line from `o`, replaced. -/
def linePut (o : Nat) (bs : List Byte) (l : List Byte) : List Byte := l.take o ++ bs ++ l.drop (o + bs.length)

/-- The line is changed by a store; a whole word replaces one with an error. -/
def lineStore (n a : Nat) (bs : List Byte) (dirty : Bool) (s : State) : State :=
  let l := lineOf a
  let keep (ws : List Nat) : List Nat := bif bs.length == 4 then ws.filter (· != a) else ws
  match dline (s.core n) l with
  | some x => s.modCore n fun c =>
      { c with dlines := putAt l (some { bytes := linePut (a % 64) bs x.bytes, dirty := x.dirty || dirty }) c.dlines,
               dsoft := keep c.dsoft, dbad := keep c.dbad }
  | none => s

/-- A store of `k` bytes at `a` into a line that the cache may hold: one of less than a word meets the word (R276). -/
def storeMeet (n a k : Nat) (s : State) : Bool × State :=
  bif k != 4 && (dline (s.core n) (lineOf a)).isSome then cacheMeet n (a / 4 * 4) s else (false, s)

/-! ### Loads and stores -/

/-- The transfer of `k` bytes. -/
def sizeOf_ (k : Nat) : AccSize := bif k == 1 then .byte else bif k == 2 then .half else .word

/-- A load of core `n` from `a`: the exception cause, or the value with the rest of the word zero (R270, R272, R276, R301). -/
def coreLoad (n a k : Nat) (s : State) : Sum Nat Word × State :=
  let c := s.core n
  bif a % k != 0 then (.inl 4, s)
  else bif !pmpAllows c (dataMachine c) 0 a then (.inl 5, s)
  else match attrOf c a with
    | .tcm =>
      let r := byteRead (busAddr n a) k (mirrorMeet (busAddr n a) s)
      bif r.2.1 then (.inl 5, r.2.2.pulse 253) else (.inr r.1, r.2.2)
    | .direct => match busRead n a (sizeOf_ k) s with
      | (none, t) => (.inl 5, t)
      | (some w, t) => (.inr w, t)
    | _ => match lineFill n (lineOf a) s with
      | (false, t) => (.inl 5, t)
      | (true, t) => match dline (t.core n) (lineOf a), cacheMeet n (a / 4 * 4) t with
        | some x, (false, u) => (.inr (bytesWord ((x.bytes.drop (a % 64)).take k)), u)
        | _, (_, u) => (.inl 5, u)

/-- A store of core `n` at `a`: the exception cause if it takes one, and the state (R270, R272, R274, R276, R301). One that meets an
uncorrectable word takes a store access fault (DEDUCED, log entry 74). -/
def coreStore (n a k : Nat) (v : Word) (s : State) : Option Nat × State :=
  let c := s.core n
  let bs := valueBytes k v
  let bus (t : State) : Option Nat × State := match busWrite n a (sizeOf_ k) v t with
    | (true, u) => (none, u)
    | (false, u) => (some 7, u)
  bif a % k != 0 then (some 6, s)
  else bif !pmpAllows c (dataMachine c) 1 a then (some 7, s)
  else match attrOf c a with
    | .tcm => match byteWrite (busAddr n a) k v s with
      | (none, t) => (none, t)
      | (some _, t) => (some 7, t.pulse 253)
    | .rom => (some 7, s)
    | .direct => bus s
    | .shared => match storeMeet n a k s with
      | (true, t) => (some 7, t)
      | (false, t) => match bus t with
        | (none, u) => (none, lineStore n a bs false u)
        | r => r
    | .wb => match lineFill n (lineOf a) s with
      | (false, t) => (some 7, t)
      | (true, t) => match storeMeet n a k t with
        | (true, u) => (some 7, u)
        | (false, u) => (none, lineStore n a bs true u)

/-! ### Instruction side -/

/-- Lines of the instruction cache in the set of line `l`. -/
def iset (c : Core) (l : Nat) : List Nat := c.ilines.filter fun x => x % 128 == l % 128

/-- Line `l` of the instruction cache is invalid, and the refetch is counted, if the word at `a` has a parity error there (R276). -/
def parityCheck (n a : Nat) (s : State) : State :=
  let c := s.core n
  bif c.ilines.contains (lineOf a) && c.ibad.contains (a / 4 * 4) then
    eccCount 0 n (s.modCore n fun d => { d with ilines := d.ilines.filter (· != lineOf a) })
  else s

/-- Core `n` fetches the word at `a`: whether the fetch is allowed, and the state (R272 to R276, R299, R300). -/
def coreFetch (n a : Nat) (s0 : State) : Bool × State :=
  let s := parityCheck n a s0
  let c := s.core n
  bif !pmpAllows c c.machine 2 a then (false, s)
  else bif within 0x08000000 0x20000 a then
    let r := byteRead (busAddr n (a / 4 * 4)) 4 (mirrorMeet (busAddr n a) s)
    (!r.2.1, bif r.2.1 then r.2.2.pulse 253 else r.2.2)
  else bif (tcmWindow a).isSome then (false, recordViolation n a false s)
  else
    let l := lineOf a
    let cached := attrOf c a != .direct
    bif cached && c.ilines.contains l then (true, s)
    else match busRead n (a / 4 * 4) .word s with
      | (none, t) => (false, t)
      | (some _, t) =>
        bif !cached then (true, t)
        else
          let full := Nat.ble 4 (iset c l).length
          let r := t.drawNat
          let v := (iset c l).getD (r.1 % 4) 0
          let u := bif full then r.2.modCore n fun d => { d with ilines := d.ilines.filter (· != v) } else t
          (true, u.modCore n fun d => { d with ilines := d.ilines ++ [l], ibad := d.ibad.filter (· / 64 != l) })

/-! ### Cache management (R271, R274) -/

/-- The cache instruction `op` on one line of the data cache: 0 clean, 1 invalidate, 2 clean and invalidate. -/
def lineOp (n op l : Nat) (s : State) : State :=
  let s1 := bif op == 1 then s else lineClean n l s
  bif op == 0 then s1 else lineDrop n l s1

/-- A write of dzcmop by core `n`. A reserved operation changes nothing (log entry 34). -/
def cacheOp (n v : Nat) (s : State) : State :=
  let op := bitsAt v 0 2
  let count := bitsAt v 16 16
  let first := lineOf (csrOf (s.core n) 0x7C1).toNat
  let hit (l : Nat) : Bool := count == 0 || (Nat.ble first l && Nat.blt l (first + count))
  bif op == 3 then s
  else bif bitAt v 2 then (((s.core n).dlines.map (·.1)).filter hit).foldl (fun u l => lineOp n op l u) s
  else bif op == 0 then s
  else s.modCore n fun c => { c with ilines := c.ilines.filter fun l => !hit l }

end Sys2Proof.Machine
end

