-- ==== Sys2Proof/Machine/Csr.lean ====
section
/-! DEFINITION. The control and status registers of the cores (R269 to R274, R288). The standard ones are those of the RISC-V
privileged architecture, version 1.12, which R269 names. PRESUMED (log entry 32). -/

namespace Sys2Proof.Machine

open Fields

/-- The context that mepc and mstatus show (R288). -/
def topCtx (c : Core) : Option Ctx := c.stack.head?

/-- mstatus as read: MPIE and MPP of the top context, SD from FS. -/
def mstatus (c : Core) : Nat :=
  let m := (csrOf c 0x300).toNat
  let m1 := match topCtx c with
    | none => m
    | some x => putBits (putBits m 7 1 x.mpie.toNat) 11 2 x.mpp.toNat
  putBits m1 31 1 (bitsAt m1 13 2 == 3).toNat

/-- Write mstatus: MIE, MPIE, MPP (0 or 3), FS, MPRV, TW. -/
def putMstatus (c : Core) (v : Nat) : Core :=
  let mpp := bitsAt v 11 2
  let old := (mstatus c)
  let pp := bif mpp == 0 || mpp == 3 then mpp else bitsAt old 11 2
  let m := putBits (v &&& 0x00226088) 11 2 pp
  match c.stack with
  | [] => c.putCsr 0x300 (asWord m)
  | x :: rest => { c.putCsr 0x300 (asWord m) with stack := { x with mpie := bitAt v 7, mpp := BitVec.ofNat 2 pp } :: rest }

/-- dzcoreid of core `n` (R271). -/
def coreId (s : State) (n : Nat) : Nat :=
  let split := s.flag (CPR_PAIRCTL_SPLIT (n / 2))
  n + (!split).toNat * 256 + split.toNat * 512 + (!split && n % 2 == 1).toNat * 1024

/-- mcounteren allows user mode the counter `k`. -/
def counterOpen (c : Core) (k : Nat) : Bool := c.machine || bitAt (csrOf c 0x306).toNat k

/-- A half of mcycle: while mcountinhibit.CY stops the counter the value it stopped at, or that has been written since; while it runs a
free value, since the model leaves cycle counts out (R269; log entry 35). -/
def cycleRead (n k : Nat) (s : State) : Word × State :=
  bif bitAt (csrOf (s.core n) 0x320).toNat 0 then (csrOf (s.core n) k, s) else s.drawWord

/-- mcountinhibit is written: where CY comes to be set, mcycle stops at a free value. -/
def inhibitWrite (n v : Nat) (s : State) : State :=
  let go := !bitAt (csrOf (s.core n) 0x320).toNat 0
  let lo := s.drawWord
  let hi := lo.2.drawWord
  let t := bif go && bitAt v 0 then hi.2.modCore n fun c => (c.putCsr 0xB00 lo.1).putCsr 0xB80 hi.1 else s
  t.modCore n fun c => c.putCsr 0x320 (asWord (v &&& 5))

/-- The value of CSR `k` of core `n`, none where it is not implemented or may not be read. A cycle count is a free value: the model
leaves cycle counts out (log entry 35). -/
def csrRead (n k : Nat) (s : State) : Option (Word × State) :=
  let c := s.core n
  let just (v : Nat) : Option (Word × State) := some (asWord v, s)
  let stored : Option (Word × State) := some (csrOf c k, s)
  bif !c.machine && Nat.ble 1 (bitsAt k 8 2) then none
  else match k with
    | 0x001 => bif bitsAt (mstatus c) 13 2 == 0 then none else just (bitsAt (csrOf c 3).toNat 0 5)
    | 0x002 => bif bitsAt (mstatus c) 13 2 == 0 then none else just (bitsAt (csrOf c 3).toNat 5 3)
    | 0x003 => bif bitsAt (mstatus c) 13 2 == 0 then none else stored
    | 0x300 => just (mstatus c)
    | 0x301 => just 0x40101124
    | 0x304 => just 0
    | 0x305 => stored
    | 0x306 => stored
    | 0x30A => just 0
    | 0x310 => just 0
    | 0x31A => just 0
    | 0x320 => stored
    | 0x340 => stored
    | 0x341 => match topCtx c with
      | none => stored
      | some x => some (x.pc, s)
    | 0x342 => stored
    | 0x343 => stored
    | 0x344 => just 0
    | 0x7C0 => just (c.level + c.stack.length * 256)
    | 0x7C1 => stored
    | 0x7C2 => just 0
    | 0x7C3 => stored
    | 0xFC0 => just (coreId s n)
    | 0xF11 => just 0
    | 0xF12 => just 0
    | 0xF13 => just 0
    | 0xF14 => just n
    | 0xF15 => just 0
    | 0xB00 => some (cycleRead n k s)
    | 0xB80 => some (cycleRead n k s)
    | 0xB02 => stored
    | 0xB82 => stored
    | 0xC00 => bif counterOpen c 0 then some (cycleRead n 0xB00 s) else none
    | 0xC80 => bif counterOpen c 0 then some (cycleRead n 0xB80 s) else none
    | 0xC01 => bif counterOpen c 1 then just (s.now / 40) else none
    | 0xC81 => bif counterOpen c 1 then just (s.now / 40 / 2 ^ 32) else none
    | 0xC02 => bif counterOpen c 2 then some (csrOf c 0xB02, s) else none
    | 0xC82 => bif counterOpen c 2 then some (csrOf c 0xB82, s) else none
    | _ =>
      bif within 0x3A0 4 k then (bif Nat.blt k 0x3A2 then stored else just 0)
      else bif within 0x3B0 16 k then (bif Nat.blt k 0x3B8 then
          let i := k - 0x3B0
          let napot := bitsAt (pmpCfg c i) 3 2 == 3
          just (bif napot then (csrOf c k).toNat ||| 0x1FF else (csrOf c k).toNat / 1024 * 1024)
        else just 0)
      else bif within 0x7D0 8 k then stored
      else bif within 0x323 29 k || within 0xB03 29 k || within 0xB83 29 k then just 0
      else none

/-- A configuration byte as it is taken: a locked entry keeps its own, NA4 is not offered at this granularity, and W without R is
reserved. -/
def pmpByte (old new : Nat) : Nat :=
  bif bitAt old 7 then old
  else
    let a := bitsAt new 3 2
    let v := bif a == 2 then putBits new 3 2 0 else new
    let v1 := bif bitAt v 1 && !bitAt v 0 then putBits v 1 1 0 else v
    v1 &&& 0x9F

/-- Entry `i`'s address register is locked: the entry is, or the next one is a locked TOR entry. -/
def pmpLocked (c : Core) (i : Nat) : Bool :=
  bitAt (pmpCfg c i) 7 || (Nat.blt i 7 && bitAt (pmpCfg c (i + 1)) 7 && bitsAt (pmpCfg c (i + 1)) 3 2 == 1)

/-- A dzmatt region is written by core `n`: none where the write is illegal (R273). A reserved attribute keeps the old one (log entry
34). -/
def mattWrite (n i v : Nat) (s : State) : Option State :=
  let k := 0x7D0 + i
  let z := bitsAt v 7 5
  let old := (csrOf (s.core n) k).toNat
  let attr := bif bitsAt v 1 2 == 3 then bitsAt old 1 2 else bitsAt v 1 2
  bif Nat.blt z 12 || Nat.blt 24 z || (v / 4096 * 4096) % 2 ^ z != 0 then none
  else some (s.modCore n fun c => c.putCsr k (asWord (v / 4096 * 4096 + z * 128 + attr * 2 + v % 2)))

/-- dzecc is written: a field written with all ones clears (R271). -/
def eccWrite (old v : Nat) : Nat :=
  (bif bitsAt v 16 16 == 0xFFFF then 0 else bitsAt old 16 16 * 65536) + bif bitsAt v 0 16 == 0xFFFF then 0 else bitsAt old 0 16

/-- CSR `k` of core `n` is written: none where it may not be (R269 to R274). -/
def csrWrite (n k v : Nat) (s : State) : Option State :=
  let c := s.core n
  let put (i x : Nat) : Option State := some (s.putCore n (c.putCsr i (asWord x)))
  let fs := bitsAt (mstatus c) 13 2
  let dirty (i x : Nat) : Option State := some (s.putCore n ((c.putCsr i (asWord x)).putCsr 0x300 (asWord ((csrOf c 0x300).toNat ||| 0x6000))))
  bif (!c.machine && Nat.ble 1 (bitsAt k 8 2)) || bitsAt k 10 2 == 3 then none
  else match k with
    | 0x001 => bif fs == 0 then none else dirty 3 (putBits (csrOf c 3).toNat 0 5 v)
    | 0x002 => bif fs == 0 then none else dirty 3 (putBits (csrOf c 3).toNat 5 3 v)
    | 0x003 => bif fs == 0 then none else dirty 3 (v % 256)
    | 0x300 => some (s.putCore n (putMstatus c v))
    | 0x301 => some s
    | 0x304 => some s
    | 0x305 => put k (v / 4 * 4)
    | 0x306 => put k (v % 8)
    | 0x30A => some s
    | 0x310 => some s
    | 0x31A => some s
    | 0x320 => some (inhibitWrite n v s)
    | 0x340 => put k v
    | 0x341 => match c.stack with
      | [] => put k (v / 2 * 2)
      | x :: rest => some (s.putCore n { c with stack := { x with pc := asWord (v / 2 * 2) } :: rest })
    | 0x342 => put k v
    | 0x343 => put k v
    | 0x344 => some s
    | 0x7C0 => some s
    | 0x7C1 => put k (v / 64 * 64)
    | 0x7C2 => some (cacheOp n v s)
    | 0x7C3 => put k (eccWrite (csrOf c k).toNat v)
    | 0xB00 => put k v
    | 0xB80 => put k v
    | 0xB02 => put k v
    | 0xB82 => put k v
    | _ =>
      bif within 0x3A0 2 k then
        let old := (csrOf c k).toNat
        let byte (i : Nat) : Nat := pmpByte (bitsAt old (8 * i) 8) (bitsAt v (8 * i) 8) * 2 ^ (8 * i)
        put k (byte 0 + byte 1 + byte 2 + byte 3)
      else bif within 0x3B0 8 k then (bif pmpLocked c (k - 0x3B0) then some s else put k v)
      else bif within 0x7D0 8 k then mattWrite n (k - 0x7D0) v s
      else bif within 0x3A2 2 k || within 0x3B8 8 k || within 0x323 29 k || within 0xB03 29 k || within 0xB83 29 k then some s
      else none

end Sys2Proof.Machine
end

