-- ==== Sys2Proof/Machine/Rvc.lean ====
section
/-! DEFINITION. The compressed instructions of the cores (R269): each expands to one 32-bit instruction, as the RISC-V
Unprivileged ISA specification defines the C extension. PRESUMED (log entry 32): the spec names that document and does not repeat it. -/

namespace Sys2Proof.Machine

/-- The bits `from_ + w - 1` down to `from_` of a word, placed at `to_`. -/
def moveBits (v from_ w to_ : Nat) : Nat := bitsAt v from_ w * 2 ^ to_

/-- Formats of the 32-bit instructions: the fields as numbers, immediates by their low bits. -/
def encR (op rd f3 rs1 rs2 f7 : Nat) : Nat := op + rd * 2 ^ 7 + f3 * 2 ^ 12 + rs1 * 2 ^ 15 + rs2 * 2 ^ 20 + f7 * 2 ^ 25
def encI (op rd f3 rs1 imm : Nat) : Nat := op + rd * 2 ^ 7 + f3 * 2 ^ 12 + rs1 * 2 ^ 15 + imm % 2 ^ 12 * 2 ^ 20
def encS (op f3 rs1 rs2 imm : Nat) : Nat :=
  op + imm % 32 * 2 ^ 7 + f3 * 2 ^ 12 + rs1 * 2 ^ 15 + rs2 * 2 ^ 20 + imm / 32 % 128 * 2 ^ 25
def encB (op f3 rs1 rs2 imm : Nat) : Nat :=
  op + moveBits imm 11 1 7 + moveBits imm 1 4 8 + f3 * 2 ^ 12 + rs1 * 2 ^ 15 + rs2 * 2 ^ 20 + moveBits imm 5 6 25 + moveBits imm 12 1 31
def encU (op rd imm20 : Nat) : Nat := op + rd * 2 ^ 7 + imm20 % 2 ^ 20 * 2 ^ 12
def encJ (op rd imm : Nat) : Nat :=
  op + rd * 2 ^ 7 + moveBits imm 12 8 12 + moveBits imm 11 1 20 + moveBits imm 1 10 21 + moveBits imm 20 1 31

/-- A `w`-bit field, sign-extended and coded in 32 bits. -/
def sext (w n : Nat) : Nat := codeOf 32 (signedOf w n)

/-- The 6-bit immediate of the CI format. -/
def immCi (c : Nat) : Nat := moveBits c 12 1 5 + bitsAt c 2 5

/-- Quadrant 0. -/
def expand0 (c : Nat) : Option Nat :=
  let rd := 8 + bitsAt c 2 3
  let rs := 8 + bitsAt c 7 3
  let word := moveBits c 5 1 6 + moveBits c 10 3 3 + moveBits c 6 1 2
  match bitsAt c 13 3 with
  | 0 =>
    let imm := moveBits c 7 4 6 + moveBits c 11 2 4 + moveBits c 5 1 3 + moveBits c 6 1 2
    bif imm == 0 then none else some (encI 0x13 rd 0 2 imm)
  | 2 => some (encI 0x03 rd 2 rs word)
  | 3 => some (encI 0x07 rd 2 rs word)
  | 6 => some (encS 0x23 2 rs rd word)
  | 7 => some (encS 0x27 2 rs rd word)
  | _ => none

/-- The arithmetic group of quadrant 1. -/
def expandAlu (c : Nat) : Option Nat :=
  let rd := 8 + bitsAt c 7 3
  let rs := 8 + bitsAt c 2 3
  match bitsAt c 10 2 with
  | 0 => bif bitAt c 12 then none else some (encI 0x13 rd 5 rd (bitsAt c 2 5))
  | 1 => bif bitAt c 12 then none else some (encI 0x13 rd 5 rd (0x400 + bitsAt c 2 5))
  | 2 => some (encI 0x13 rd 7 rd (sext 6 (immCi c)))
  | _ =>
    bif bitAt c 12 then none
    else match bitsAt c 5 2 with
      | 0 => some (encR 0x33 rd 0 rd rs 0x20)
      | 1 => some (encR 0x33 rd 4 rd rs 0)
      | 2 => some (encR 0x33 rd 6 rd rs 0)
      | _ => some (encR 0x33 rd 7 rd rs 0)

/-- Quadrant 1. -/
def expand1 (c : Nat) : Option Nat :=
  let rd := bitsAt c 7 5
  let j := sext 12 (moveBits c 12 1 11 + moveBits c 11 1 4 + moveBits c 9 2 8 + moveBits c 8 1 10 + moveBits c 7 1 6 +
    moveBits c 6 1 7 + moveBits c 3 3 1 + moveBits c 2 1 5)
  let b := sext 9 (moveBits c 12 1 8 + moveBits c 10 2 3 + moveBits c 5 2 6 + moveBits c 3 2 1 + moveBits c 2 1 5)
  match bitsAt c 13 3 with
  | 0 => some (encI 0x13 rd 0 rd (sext 6 (immCi c)))
  | 1 => some (encJ 0x6F 1 j)
  | 2 => some (encI 0x13 rd 0 0 (sext 6 (immCi c)))
  | 3 =>
    bif immCi c == 0 then none
    else bif rd == 2 then
      some (encI 0x13 2 0 2 (sext 10 (moveBits c 12 1 9 + moveBits c 6 1 4 + moveBits c 5 1 6 + moveBits c 3 2 7 + moveBits c 2 1 5)))
    else some (encU 0x37 rd (sext 6 (immCi c)))
  | 4 => expandAlu c
  | 5 => some (encJ 0x6F 0 j)
  | 6 => some (encB 0x63 0 (8 + bitsAt c 7 3) 0 b)
  | _ => some (encB 0x63 1 (8 + bitsAt c 7 3) 0 b)

/-- Quadrant 2. -/
def expand2 (c : Nat) : Option Nat :=
  let rd := bitsAt c 7 5
  let rs := bitsAt c 2 5
  let ld := moveBits c 12 1 5 + moveBits c 4 3 2 + moveBits c 2 2 6
  let st := moveBits c 9 4 2 + moveBits c 7 2 6
  match bitsAt c 13 3 with
  | 0 => bif bitAt c 12 then none else some (encI 0x13 rd 1 rd (bitsAt c 2 5))
  | 2 => bif rd == 0 then none else some (encI 0x03 rd 2 2 ld)
  | 3 => some (encI 0x07 rd 2 2 ld)
  | 4 =>
    bif !bitAt c 12 then
      bif rs == 0 then (bif rd == 0 then none else some (encI 0x67 0 0 rd 0)) else some (encR 0x33 rd 0 0 rs 0)
    else bif rs == 0 then (bif rd == 0 then some 0x00100073 else some (encI 0x67 1 0 rd 0))
    else some (encR 0x33 rd 0 rd rs 0)
  | 6 => some (encS 0x23 2 2 rs st)
  | 7 => some (encS 0x27 2 2 rs st)
  | _ => none

/-- The 32-bit instruction that a compressed one stands for; none for an illegal one. -/
def expandC (c : Nat) : Option Nat :=
  match c % 4 with
  | 0 => expand0 c
  | 1 => expand1 c
  | 2 => expand2 c
  | _ => none

end Sys2Proof.Machine
end

