-- ==== Sys2Proof/Machine/Riscv.lean ====
section
/-! DEFINITION. The instructions of the application cores (R269, R270, R274, R288): RV32IMFC with Zicsr and Zifencei, as the RISC-V
documents that R269 names define them. PRESUMED (log entry 32): the spec names those documents and does not repeat them. -/

namespace Sys2Proof.Machine

open Fields

/-! ### Registers -/

/-- Integer register `i`; x0 reads zero. -/
def Core.xr (c : Core) (i : Nat) : Word := bif i == 0 then 0 else findAt (fun _ => 0) i c.x

/-- Integer register `i` is written; x0 discards the value. -/
def Core.putX (c : Core) (i : Nat) (v : Word) : Core := bif i == 0 then c else { c with x := storeAt (fun _ => 0) i v c.x }

/-- Floating-point register `i`. -/
def Core.fr (c : Core) (i : Nat) : Word := findAt (fun _ => 0) i c.f

/-- mstatus.FS becomes dirty. -/
def Core.dirtyF (c : Core) : Core := c.putCsr 0x300 (asWord ((csrOf c 0x300).toNat ||| 0x6000))

/-- Floating-point register `i` is written. -/
def Core.putF (c : Core) (i : Nat) (v : Word) : Core := { c.dirtyF with f := storeAt (fun _ => 0) i v c.f }

/-- Accrued exception flags. -/
def Core.putFlags (c : Core) (fl : Nat) : Core := bif fl == 0 then c else (c.putCsr 3 (asWord ((csrOf c 3).toNat ||| fl))).dirtyF

/-! ### Fields of an instruction word -/

/-- Immediate of the I format. -/
def immI (w : Nat) : Nat := sext 12 (bitsAt w 20 12)
/-- Immediate of the S format. -/
def immS (w : Nat) : Nat := sext 12 (bitsAt w 25 7 * 32 + bitsAt w 7 5)
/-- Immediate of the B format. -/
def immB (w : Nat) : Nat :=
  sext 13 (moveBits w 31 1 12 + moveBits w 7 1 11 + moveBits w 25 6 5 + moveBits w 8 4 1)
/-- Immediate of the J format. -/
def immJ (w : Nat) : Nat :=
  sext 21 (moveBits w 31 1 20 + moveBits w 12 8 12 + moveBits w 20 1 11 + moveBits w 21 10 1)

/-! ### Integer arithmetic -/

/-- The operations of the base set; `alt` chooses subtraction and the arithmetic shift. -/
def alu (f3 : Nat) (alt : Bool) (a b : Word) : Word :=
  let k := b.toNat % 32
  match f3 with
  | 0 => bif alt then a - b else a + b
  | 1 => a <<< k
  | 2 => asWord (a.slt b).toNat
  | 3 => asWord (a.ult b).toNat
  | 4 => a ^^^ b
  | 5 => bif alt then a.sshiftRight k else a >>> k
  | 6 => a ||| b
  | _ => a &&& b

/-- The high word of a product. -/
def highWord (p : Int) : Word := BitVec.ofInt 32 (p / 2 ^ 32)

/-- The operations of the M extension. -/
def mulDiv (f3 : Nat) (a b : Word) : Word :=
  let ua : Int := a.toNat
  let ub : Int := b.toNat
  match f3 with
  | 0 => a * b
  | 1 => highWord (a.toInt * b.toInt)
  | 2 => highWord (a.toInt * ub)
  | 3 => highWord (ua * ub)
  | 4 => bif b == 0 then 0xFFFFFFFF else BitVec.ofInt 32 (a.toInt.tdiv b.toInt)
  | 5 => bif b == 0 then 0xFFFFFFFF else asWord (a.toNat / b.toNat)
  | 6 => bif b == 0 then a else BitVec.ofInt 32 (a.toInt.tmod b.toInt)
  | _ => bif b == 0 then a else asWord (a.toNat % b.toNat)

/-- A branch condition; none for a reserved code. -/
def branchTaken (f3 : Nat) (a b : Word) : Option Bool :=
  match f3 with
  | 0 => some (a == b)
  | 1 => some (a != b)
  | 4 => some (a.slt b)
  | 5 => some (!a.slt b)
  | 6 => some (a.ult b)
  | 7 => some (!a.ult b)
  | _ => none

/-! ### Floating point -/

/-- The rounding mode of an instruction whose rm field is `f3`; none for a reserved one. -/
def roundMode (c : Core) (f3 : Nat) : Option Fl.Rm :=
  match (bif f3 == 7 then bitsAt (csrOf c 3).toNat 5 3 else f3) with
  | 0 => some .rne
  | 1 => some .rtz
  | 2 => some .rdn
  | 3 => some .rup
  | 4 => some .rmm
  | _ => none

/-- FMIN and FMAX: a NaN operand gives way to the other; minus zero lies below plus zero. -/
def fMinMax (maxi : Bool) (a b : Word) : Fl.Res :=
  let va := Fl.unpack a
  let vb := Fl.unpack b
  let nv := (Fl.nanRes [va, vb]).flags
  bif va.isNan && vb.isNan then { w := Fl.qnan, flags := nv }
  else bif va.isNan then { w := b, flags := nv }
  else bif vb.isNan then { w := a, flags := nv }
  else
    let o := Fl.ordV va vb
    let aLow := o.1 || (o.2 && bitAt a.toNat 31)
    { w := bif aLow != maxi then a else b, flags := nv }

/-- FEQ, FLT, FLE by the code 2, 1, 0. -/
def fCompare (f3 : Nat) (a b : Word) : Fl.Res :=
  let va := Fl.unpack a
  let vb := Fl.unpack b
  bif va.isNan || vb.isNan then { w := 0, flags := bif f3 == 2 then (Fl.nanRes [va, vb]).flags else 16 }
  else
    let o := Fl.ordV va vb
    { w := asWord (match f3 with | 2 => o.2 | 1 => o.1 | _ => o.1 || o.2).toNat }

/-- FCLASS. -/
def fClass (a : Word) : Nat :=
  let neg := bitAt a.toNat 31
  match Fl.unpack a with
  | .nan true => 256
  | .nan false => 512
  | .inf _ => bif neg then 1 else 128
  | .fin _ m _ =>
    let k := bif m == 0 then 3 else bif Nat.blt m (2 ^ 23) then 2 else 1
    bif neg then 2 ^ k else 2 ^ (7 - k)

/-- FCVT to an integer: saturating, with NV outside the range. -/
def fToInt (rm : Fl.Rm) (unsigned : Bool) (a : Word) : Fl.Res :=
  let lo : Int := bif unsigned then 0 else -(2 ^ 31 : Int)
  let hi : Int := bif unsigned then 2 ^ 32 - 1 else 2 ^ 31 - 1
  match Fl.unpack a with
  | .nan _ => { w := BitVec.ofInt 32 hi, flags := 16 }
  | .inf neg => { w := BitVec.ofInt 32 (bif neg then lo else hi), flags := 16 }
  | .fin neg m e =>
    let r := bif decide (0 ≤ e) then (m * 2 ^ e.toNat, false) else Fl.shiftRound rm neg m (-e).toNat
    let v : Int := bif neg then -(r.1 : Int) else r.1
    if v < lo then { w := BitVec.ofInt 32 lo, flags := 16 }
    else if hi < v then { w := BitVec.ofInt 32 hi, flags := 16 }
    else { w := BitVec.ofInt 32 v, flags := r.2.toNat }

/-- Where a floating-point instruction writes. -/
inductive FOut where
  | toF (r : Fl.Res)
  | toX (r : Fl.Res)
  deriving DecidableEq, Repr

/-- The OP-FP instructions; none for an illegal one. -/
def opFp (c : Core) (w : Nat) : Option FOut :=
  let f3 := bitsAt w 12 3
  let r2 := bitsAt w 20 5
  let a := c.fr (bitsAt w 15 5)
  let b := c.fr r2
  let x := c.xr (bitsAt w 15 5)
  let va := Fl.unpack a
  let vb := Fl.unpack b
  let rounded (g : Fl.Rm → Fl.Res) : Option FOut := (roundMode c f3).map fun m => .toF (g m)
  let sign (b31 : Bool) : Option FOut := some (.toF { w := asWord (putBits a.toNat 31 1 b31.toNat) })
  bif bitsAt w 25 2 != 0 then none
  else match bitsAt w 27 5 with
    | 0x00 => rounded fun m => Fl.addV m va vb
    | 0x01 => rounded fun m => Fl.addV m va vb.negate
    | 0x02 => rounded fun m => Fl.mulV m va vb
    | 0x03 => rounded fun m => Fl.divV m va vb
    | 0x0B => bif r2 == 0 then rounded fun m => Fl.sqrtV m va else none
    | 0x04 => match f3 with
      | 0 => sign (bitAt b.toNat 31)
      | 1 => sign (!bitAt b.toNat 31)
      | 2 => sign (bitAt a.toNat 31 != bitAt b.toNat 31)
      | _ => none
    | 0x05 => match f3 with
      | 0 => some (.toF (fMinMax false a b))
      | 1 => some (.toF (fMinMax true a b))
      | _ => none
    | 0x14 => bif Nat.ble f3 2 then some (.toX (fCompare f3 a b)) else none
    | 0x18 => bif Nat.ble r2 1 then (roundMode c f3).map fun m => .toX (fToInt m (r2 == 1) a) else none
    | 0x1A => bif Nat.ble r2 1 then
        let i : Int := bif r2 == 1 then x.toNat else x.toInt
        rounded fun m => Fl.round m (decide (i < 0)) i.natAbs 0
      else none
    | 0x1C => bif r2 != 0 then none else match f3 with
      | 0 => some (.toX { w := a })
      | 1 => some (.toX { w := asWord (fClass a) })
      | _ => none
    | 0x1E => bif r2 == 0 && f3 == 0 then some (.toF { w := x }) else none
    | _ => none

/-- FMADD, FMSUB, FNMSUB and FNMADD by the opcode. -/
def opFma (c : Core) (w : Nat) : Option FOut :=
  let a := Fl.unpack (c.fr (bitsAt w 15 5))
  let b := Fl.unpack (c.fr (bitsAt w 20 5))
  let d := Fl.unpack (c.fr (bitsAt w 27 5))
  let op := bitsAt w 2 2
  let a1 := bif Nat.ble 2 op then a.negate else a
  let d1 := bif op == 1 || op == 3 then d.negate else d
  bif bitsAt w 25 2 != 0 then none else (roundMode c (bitsAt w 12 3)).map fun m => .toF (Fl.fmaV m a1 b d1)

/-! ### One instruction -/

/-- The instruction of core `n` ends: registers change by `f` and the pc becomes `next`. -/
def complete (n next : Nat) (f : Core → Core) (s : State) : State :=
  s.modCore n fun c => { (f c).retire with pc := asWord next }

/-- A trap of a load or a store, unless the access has stopped the core (R276, R278). -/
def accessTrap (n cause a : Nat) (s : State) : State := bif coreRuns s n then trap n cause (asWord a) s else s

/-- A load; `put` takes the value. -/
def loadInto (n a k next : Nat) (put : Word → Core → Core) (s : State) : State :=
  match coreLoad n a k s with
  | (.inl cause, t) => accessTrap n cause a t
  | (.inr v, t) => complete n next (put v) t

/-- A store. -/
def storeFrom (n a k next : Nat) (v : Word) (s : State) : State :=
  match coreStore n a k v s with
  | (some cause, t) => accessTrap n cause a t
  | (none, t) => complete n next id t

/-- CSRRW, CSRRS, CSRRC and their immediate forms, `raw` being the instruction as a trap reports it. -/
def csrInstr (n w next : Nat) (raw : Word) (s : State) : State :=
  let c := s.core n
  let f3 := bitsAt w 12 3
  let r1 := bitsAt w 15 5
  let rd := bitsAt w 7 5
  let k := bitsAt w 20 12
  let src := bif bitAt f3 2 then r1 else (c.xr r1).toNat
  let writes := f3 % 4 == 1 || r1 != 0
  match csrRead n k s with
  | none => trapIllegal n raw s
  | some (old, t) =>
    let new := match f3 % 4 with
      | 1 => src
      | 2 => old.toNat ||| src
      | _ => old.toNat &&& (0xFFFFFFFF ^^^ src)
    let ends (u : State) : State := u.modCore n fun d =>
      let d1 := d.putX rd old
      { (bif writes && (k == 0xB02 || k == 0xB82) then d1 else d1.retire) with pc := asWord next }
    bif !writes then ends t
    else match csrWrite n k new t with
      | none => trapIllegal n raw s
      | some u => ends u

/-- The SYSTEM instructions. -/
def systemInstr (n w next : Nat) (raw : Word) (s : State) : State :=
  let c := s.core n
  bif bitsAt w 12 3 == 0 then
    match w with
    | 0x00000073 => trap n (bif c.machine then 11 else 8) 0 s
    | 0x00100073 => trap n 3 c.pc s
    | 0x30200073 => bif c.machine then handlerReturn n (s.modCore n Core.retire) else trapIllegal n raw s
    | 0x10500073 =>
      bif !c.machine && bitAt (csrOf c 0x300).toNat 21 then trapIllegal n raw s
      else complete n next (fun d => { d with wfi := true }) s
    | _ => trapIllegal n raw s
  else bif bitsAt w 12 3 == 4 then trapIllegal n raw s
  else csrInstr n w next raw s

/-- The floating-point instructions other than loads and stores. -/
def floatInstr (n w next : Nat) (raw : Word) (s : State) : State :=
  let c := s.core n
  let rd := bitsAt w 7 5
  match (bif w % 128 == 0x53 then opFp c w else opFma c w) with
  | none => trapIllegal n raw s
  | some (.toF r) => complete n next (fun d => (d.putFlags r.flags).putF rd r.w) s
  | some (.toX r) => complete n next (fun d => (d.putFlags r.flags).putX rd r.w) s

/-- The instruction `w` of core `n`, `next` the address behind it, `raw` the instruction as a trap reports it. -/
def runInstr (n w next : Nat) (raw : Word) (s : State) : State :=
  let c := s.core n
  let pc := c.pc.toNat
  let rd := bitsAt w 7 5
  let f3 := bitsAt w 12 3
  let f7 := bitsAt w 25 7
  let a := c.xr (bitsAt w 15 5)
  let b := c.xr (bitsAt w 20 5)
  let bad := trapIllegal n raw s
  let result (v : Word) : State := complete n next (·.putX rd v) s
  let fpu := bitsAt (mstatus c) 13 2 != 0
  match w % 128 with
  | 0x37 => result (asWord (w / 4096 * 4096))
  | 0x17 => result (asWord (pc + w / 4096 * 4096))
  | 0x6F => complete n ((pc + immJ w) % 2 ^ 32) (·.putX rd (asWord next)) s
  | 0x67 => bif f3 != 0 then bad else complete n ((a.toNat + immI w) % 2 ^ 32 / 2 * 2) (·.putX rd (asWord next)) s
  | 0x63 => match branchTaken f3 a b with
    | none => bad
    | some t => complete n (bif t then (pc + immB w) % 2 ^ 32 else next) id s
  | 0x03 =>
    let at_ := (a.toNat + immI w) % 2 ^ 32
    match f3 with
    | 0 => loadInto n at_ 1 next (fun v d => d.putX rd (asWord (sext 8 v.toNat))) s
    | 1 => loadInto n at_ 2 next (fun v d => d.putX rd (asWord (sext 16 v.toNat))) s
    | 2 => loadInto n at_ 4 next (fun v d => d.putX rd v) s
    | 4 => loadInto n at_ 1 next (fun v d => d.putX rd v) s
    | 5 => loadInto n at_ 2 next (fun v d => d.putX rd v) s
    | _ => bad
  | 0x23 =>
    let at_ := (a.toNat + immS w) % 2 ^ 32
    bif Nat.ble f3 2 then storeFrom n at_ (2 ^ f3) next b s else bad
  | 0x13 =>
    bif (f3 == 1 && f7 != 0) || (f3 == 5 && f7 != 0 && f7 != 0x20) then bad
    else result (alu f3 (f3 == 5 && f7 == 0x20) a (asWord (immI w)))
  | 0x33 =>
    bif f7 == 1 then result (mulDiv f3 a b)
    else bif f7 == 0 then result (alu f3 false a b)
    else bif f7 == 0x20 && (f3 == 0 || f3 == 5) then result (alu f3 true a b)
    else bad
  | 0x0F => match f3 with
    | 0 => complete n next id s
    | 1 => complete n next (fun d => { d with ilines := [] }) s
    | _ => bad
  | 0x73 => systemInstr n w next raw s
  | 0x07 => bif f3 == 2 && fpu then loadInto n ((a.toNat + immI w) % 2 ^ 32) 4 next (fun v d => d.putF rd v) s else bad
  | 0x27 => bif f3 == 2 && fpu then storeFrom n ((a.toNat + immS w) % 2 ^ 32) 4 next (c.fr (bitsAt w 20 5)) s else bad
  | 0x43 => bif fpu then floatInstr n w next raw s else bad
  | 0x47 => bif fpu then floatInstr n w next raw s else bad
  | 0x4B => bif fpu then floatInstr n w next raw s else bad
  | 0x4F => bif fpu then floatInstr n w next raw s else bad
  | 0x53 => bif fpu then floatInstr n w next raw s else bad
  | _ => bad

/-- Core `n` fetches the instruction `word` at `pc`: the address that it may not fetch, and the state. One of four bytes may reach into the
next word of memory (R269). -/
def fetchInstr (n pc : Nat) (word : Word) (s : State) : Option Nat × State :=
  match coreFetch n pc s with
  | (false, t) => (some pc, t)
  | (true, t) =>
    bif word.toNat % 4 != 3 || pc % 4 == 0 || !coreRuns t n then (none, t)
    else
      let next := (pc + 2) % 2 ^ 32
      match coreFetch n next t with
      | (false, u) => (some next, u)
      | (true, u) => (none, u)

/-- Core `n` executes the instruction `word` that stands at its pc (R269); a compressed one is the low half of `word`. -/
def coreExecute (n : Nat) (word : Word) (s : State) : State :=
  let pc := (s.core n).pc.toNat
  bif targetPower s n != 0 then s
  else match fetchInstr n pc word s with
    | (some a, t) => accessTrap n 1 a t
    | (none, t) =>
      bif !coreRuns t n then t
      else bif word.toNat % 4 == 3 then runInstr n word.toNat ((pc + 4) % 2 ^ 32) word t
      else
        let half := word.toNat % 2 ^ 16
        match expandC half with
        | none => trapIllegal n (asWord half) t
        | some w => runInstr n w ((pc + 2) % 2 ^ 32) (asWord half) t

/-- Core `n` runs an instruction of four bytes of which only the effect `f` is given. -/
def coreEffect (n : Nat) (f : Core → Core) (s : State) : State :=
  bif targetPower s n != 0 then s else complete n (((s.core n).pc.toNat + 4) % 2 ^ 32) f s

/-- Core `n` writes a device CSR: illegal in user mode, and where the write is refused (R271, R273). The trap reports CSRRW of the
CSR from x0 to x0. -/
def coreCsr (n k : Nat) (v : Word) (s : State) : State :=
  bif targetPower s n != 0 then s
  else match csrWrite n k v.toNat s with
    | none => trapIllegal n (asWord (encI 0x73 0 1 0 k)) s
    | some t => complete n (((s.core n).pc.toNat + 4) % 2 ^ 32) id t

/-- The debug port may halt and step (R369): the debug state is OPEN or AUTH. -/
def debugMay (s : State) : Bool := s.fuses.dbg == 0 || s.fuses.dbg == 2

/-- The debug port halts core `n` (R369). -/
def coreHalt (n : Nat) (s : State) : State :=
  whenS (debugMay s && coreRuns s n) (·.modCore n fun c => { c with halted := true }) s

/-- The debug port steps core `n` (R369): a halted core executes one instruction and is halted again. -/
def coreStep (n : Nat) (word : Word) (s : State) : State :=
  bif debugMay s && (s.core n).halted then
    (coreExecute n word (s.modCore n fun c => { c with halted := false })).modCore n fun c => { c with halted := true }
  else s

/-! ### Commands -/

/-- An instruction (R269). -/
def execCoreInstruction (core : Fin 4) (word : Word) (s : State) : Host.Outcome State Fault Refusal := done (coreExecute core word s)

/-- FENCE (R269): the model's accesses are in program order already. -/
def execFence (core : Fin 4) (s : State) : Host.Outcome State Fault Refusal := done (coreEffect core id s)

/-- FENCE.I (R274). -/
def execFenceI (core : Fin 4) (s : State) : Host.Outcome State Fault Refusal :=
  done (coreEffect core (fun c => { c with ilines := [] }) s)

/-- A write of dzcmop (R271, R274). -/
def execCacheOperation (core : Fin 4) (val : Word) (s : State) : Host.Outcome State Fault Refusal := done (coreCsr core 0x7C2 val s)

/-- A write of dzmatt `i` (R271, R273). -/
def execDzmattWrite (core : Fin 4) (i : Fin 8) (val : Word) (s : State) : Host.Outcome State Fault Refusal :=
  done (coreCsr core (0x7D0 + i) val s)

/-- The debug port halts a core (R369). -/
def execDebugHalt (core : Fin 4) (s : State) : Host.Outcome State Fault Refusal := done (coreHalt core s)

/-- The debug port steps a core (R369). -/
def execDebugStep (core : Fin 4) (word : Word) (s : State) : Host.Outcome State Fault Refusal := done (coreStep core word s)

end Sys2Proof.Machine
end

