-- ==== Sys2Proof/Machine/Startup.lean ====
section
/-! DEFINITION. Start-up: the boot ROM, PERC firmware running again, the cold start, the way out of the power states, and the recovery
sequences of PERC (R78, R334, R350, R353 to R355, R361, R363, R367 to R369, R398, R407 to R409). -/

namespace Sys2Proof.Machine

open Fields

/-! ### The boot ROM (R304, R362, R368, R369) -/

/-- The ROM accepts an image: its header and steps 2 to 6 of R360. -/
def romAccepts (s : State) (comp unit : Nat) (b : Bool) : Bool :=
  let x := s.slot comp unit b
  x.st != .empty && x.st != .written && headerOk s comp unit (192 + x.length) x && trustFault s x == 0

/-- The slot of a component that the ROM takes: the active one, else the other one where it is VERIFIED (R368). -/
def romSlot (s : State) (comp : Nat) : Option Bool :=
  let a := activeSlot s comp 0
  bif romAccepts s comp 0 a then some a
  else bif (s.slot comp 0 (!a)).st == .verified && romAccepts s comp 0 (!a) then some (!a)
  else none

/-- The debug state after the word DBG of an ACT image (R369). -/
def debugBurn (w : Nat) (s : State) : State :=
  let d := s.fuses.dbg
  let e : BitVec 2 := bif w == 1 && d == 0 then 1 else bif w == 2 then 3 else d
  { s with fuses := { s.fuses with dbg := e } }

/-- Bank 0 of the access tables is empty: no region grants anything, every mask is zero (R299, R304). -/
def tableClear (s : State) : State := { s with regs := s.regs.filter fun r => !within 0x40091000 0x1000 r.1 }

/-- The fallback bank: PERC alone, every port on profile 0 with level 1 and the system family (R368). -/
def fallbackTable (s : State) : State :=
  ((((tableClear s).set (ACT_PPROF_SEC 0 0) 1).set (ACT_PPROF_VMID 0 0) 48).set (ACT_PPROF_FMASK 0 0) 1).setb ACT_CTL_SEL false

/-- Bank 0, the debug state and the port keys from a verified ACT image (R302, R368). -/
def imageTable (x : Slot) (s : State) : State :=
  let t := (loadWords (tableWords 0 x) (tableClear s)).setb ACT_CTL_SEL false
  debugBurn (x.data 1024)
    { t with update := { t.update with keys := (List.range 4).map fun k => x.part (192 + 4100 + 24 * k) 24, fallback := false } }

/-- The boot ROM after a reset of the device, once PERC has its clock: the access tables, before any port is configured (R368). -/
def romBoot (s : State) : State :=
  bif s.power.romDone || s.power.inReset || Nat.blt s.power.startStep 2 then s
  else
    let t := match romSlot s 8 with
      | some b => imageTable (s.slot 8 0 b) s
      | none => fallbackTable { s with update := { s.update with keys := [], fallback := true } }
    t.modPower fun p => { p with romDone := true }

/-! ### The cold start (R78, R364, R367) -/

/-- The image in use of a component and unit, where there is one that passes the checks of its header, key, signature and count (R78, R360,
R368). -/
def imageOf (s : State) (comp unit : Nat) : Option Slot :=
  let x := s.slot comp unit (activeSlot s comp unit)
  bif x.st == .active && romAccepts s comp unit (activeSlot s comp unit) then some x else none

/-- The standard injection program (chapter 7). -/
def standardProgram : List Nat :=
  [0xC0000000, 0x74400003, 0xC4000000, 0xC8000000, 0x78800000, 0x54C80010, 0x1110C000, 0x44C40001,
   0x80C00000, 0x41540001, 0x654000F0, 0x650000F1, 0x8100000E, 0xD0000001, 0x41000000, 0xA0000000]

/-- The microcode that a cold start loads into bank A of sequencer `n` (R367). -/
def coldProgram (s : State) (n : Nat) (named : Bool) : List Nat :=
  match bif named then imageOf s 3 n else none with
  | some x => (List.range (min 2048 (x.length / 4))).map fun i => x.data i
  | none => standardProgram

/-- Bank A of every present sequencer is loaded. -/
def coldMicrocode (mask : Nat) (s : State) : State :=
  upTo 8 (fun n u => whenS (u.hasEsq n)
    (loadWords ((coldProgram s n (bitAt mask n)).zipIdx.map fun p => (0x500D0000 + n * 0x4000 + 4 * p.2, p.1))) u) s

/-- Tracker `n` takes its wheel from the image in use, in the lowest range that is free of the wheels `taken` (R357, R363, R367). -/
def coldWheel (n : Nat) (taken : List Wheel) (s : State) : State :=
  match imageOf s 5 n with
  | none => s
  | some x =>
    let w := x.wheel
    match freeRange s taken w.1.cnt with
    | none => s
    | some b => (putWheel n (s.get (AT_WCFG_ACTSEL n)) (putBits (putBits (x.data 0) 0 13 b) 13 3 0) w.1.ngap w.2 s).2

/-- The wheels that word 1 of the cold-start image names, in tracker order: each clear of those before it and of the wheels that the pairs
have given the trackers that the image enables (R367). -/
def coldWheels (w1 : Nat) (s : State) : State :=
  let own (u : State) (n : Nat) : Wheel := wheelOf u n (u.get (AT_WCFG_ACTSEL n))
  let named (n : Nat) : Bool := bitAt w1 (4 + n)
  upTo 4 (fun n u => whenS (named n)
    (coldWheel n (((List.range 4).filter fun m => (named m && Nat.blt m n) || (!named m && bitAt w1 m)).map (own u))) u) s

/-- The calibration image in use of block `unit` is applied (R364, R367). -/
def coldCalib (unit : Nat) (s : State) : State :=
  match imageOf s 6 unit with
  | none => s
  | some x => (x.pairs 0).foldl (fun u p =>
      bif (calPart u unit p.1).isNone || absentAt u p.1 then u
      else bif unit == 4 then caeWrite p.1 (calValue u p.1 p.2) u
      else u.wrn p.1 (calValue u p.1 p.2)) s

/-- The steps of a cold start in order, with words 1 and 2 of the image (R367). -/
def coldSteps (pairs : List (Nat × Nat)) (w1 w2 : Nat) (s : State) : State :=
  let s1 := (pairs.filter fun p => coldAllowed p.1).foldl (fun u p => (imageWrite p.1 p.2 u).2) s
  let s2 := coldWheels w1 s1
  let s3 := upTo 8 (fun n u => coldCalib n u) s2
  let s4 := coldMicrocode (bitsAt w1 12 8) s3
  let s5 := upTo 4 (fun n u => whenS (bitAt w1 n) (ownTracking n (trackerEnable n)) u) s4
  upTo 8 (fun n u => whenS (bitAt w2 n) (fun v => esqRun n (v.setb (ESQ_CFG_SBANK n) false)) u) s5

/-- PERC applies the cold-start image where the angle domain has been reset since (R367, R407). With no image in use, the calibration
images and the standard program alone. -/
def coldStart (s : State) : State :=
  bif !(s.perc.coldDue && s.perc.running && s.angleRuns) then s
  else
    let t := match imageOf s 7 0 with
      | some x => coldSteps (x.pairs 4) (x.data 1) (x.data 2) s
      | none => coldSteps [] 0 0 s
    t.modPerc fun p => { p with coldDue := false }

/-! ### PERC firmware (R334, R339, R350, R352, R361, R363) -/

/-- The firmware that the ROM starts: the slot of an activation under way, else the one in use, else the other one where it is VERIFIED;
with both slots empty a part runs the firmware it left the factory with (DESIGN CHOICE, log entry 52). The outer option says whether
firmware runs, the inner one names its slot. -/
def romFirmware (s : State) : Option (Option Bool) :=
  match s.update.active.find? fun a => a.comp == 0 && a.asked && !a.revert && romAccepts s 0 0 a.slotB with
  | some a => some (some a.slotB)
  | none => match romSlot s 0 with
    | some b => some (some b)
    | none => bif (s.slot 0 0 false).st == .empty && (s.slot 0 0 true).st == .empty then some none else none

/-- The image that runs: one just activated is in TRIAL and its activation is made; an activation whose image the ROM refuses is over
(R361, R363). -/
def firmwareTaken (b : Option Bool) (s : State) : State :=
  match s.update.active.find? fun a => a.comp == 0 && a.asked && !a.revert with
  | some a =>
    bif b == some a.slotB then
      let s1 := (s.putSlot 0 0 a.slotB { s.slot 0 0 a.slotB with st := .trial }).putSlot 0 0 (!a.slotB) (slotRetire (s.slot 0 0 (!a.slotB)))
      let s2 := (putActive 0 0 a.slotB s1).modUpd fun u =>
        { u with active := u.active.filter fun x => x.comp != 0, opened := u.opened.filter fun o => o.comp != 0 }
      s2.modPerc fun p => { p with trialTb := some s.time }
    else activationEnd a false 0x0703 s
  | none =>
    bif s.perc.trialTb.isNone && b.isSome && (s.slot 0 0 (b.getD false)).st == .trial then s.modPerc fun p => { p with trialTb := some s.time }
    else s

/-- Queue `q` is configured and enabled at boot, unless it runs already (R334). -/
def queueBoot (q dsh base pmid cmid : Nat) (s : State) : State :=
  bif s.flag (Q_CFG_EN q) then s
  else
    let s1 := ((((s.setb (Q_CFG_MODE q) false).setb (Q_CFG_CRAUTO q) true).set (Q_CFG_DSH q) dsh).set (Q_CFG_PMID q) pmid).set (Q_CFG_BASE q) base
    queueEnable q ((s1.set (Q_CFG2_CMID q) cmid).set (Q_CFG3_INITCR q) (2 ^ dsh))

/-- The mailboxes Q0 to Q9 and the log queue Q31 (R238, R334, R340). The depth of a mailbox and the places in the pool the spec does not
state: 256 items each from word 0 on, and the last 4096 words (DESIGN CHOICE, log entry 53). -/
def queuesBoot (s : State) : State :=
  let s1 := upTo 5 (fun b u =>
    queueBoot (2 * b + 1) 8 (256 * (2 * b + 1)) 16 (boxMid b) (queueBoot (2 * b) 8 (256 * (2 * b)) (boxMid b) 16 u)) s
  queueBoot 31 12 12288 63 15 s1

/-- The records that PERC writes when it runs again: after a restart the Kettle's, and those of the faults it has missed (R339, R352, R353,
R363). -/
def bootRecords (s : State) : State :=
  let s1 := whenS s.perc.restarted (fun u => faultsMissed (offerOwn 0 1 0x0001 u)) s
  (whenS s.perc.reverted (offerStep 1 0) s1).modPerc fun p => { p with restarted := false, reverted := false }

/-- RPOL of the cold-start image in use (R353, R367). -/
def policyBoot (s : State) : State :=
  match imageOf s 7 0 with
  | some x => s.wrn Reg.PST_RPOL (x.data 0 &&& 0xFF1F)
  | none => s

/-- The network parameters, from flash (R414). -/
def networkBoot (s : State) : State :=
  { s with gnorum := { s.gnorum with
      mac := Config.macAddress, ip := Config.ipAddress, mask := Config.ipMask, gateway := Config.ipGateway } }

/-- PERC firmware runs (R350, R408): not in safe mode, and only verified firmware. -/
def firmwareRun (s : State) : State :=
  bif s.perc.running || !s.power.romDone || s.power.inReset || s.flag KTL_STAT_SAFE || Nat.ble 3 (s.get CPR_PWRSTAT_STATE) then s
  else match romFirmware s with
    | none => s
    | some b =>
      let s1 := (activationsResume (firmwareTaken b s)).modPerc fun p =>
        { p with running := true, hbTb := s.time, delayed := bif s.perc.restarted then (s.queue 31).items.length else 0 }
      policyBoot (bootRecords (logHead (sensorBoot (queuesBoot (networkBoot ((s1.set PST_STATE_MODE 0).modCore 4 fun c => c.setMie true))))))

/-- PERC firmware runs again: what it had to apply and to finish (R350, R361, R367). -/
def execPercFirmwareRun (s : State) : Host.Outcome State Fault Refusal := done (updPoll (coldStart (firmwareRun s)))

/-- The boot ROM (R368). -/
def execRomBoot (s : State) : Host.Outcome State Fault Refusal := done (romBoot s)

/-! ### The start-up sequence (R407 to R409) -/

/-- The application pairs run (R398, R408). -/
def pairsBoot (s : State) : State := upTo 2 (fun p u => whenS (hasPair u p) (fun v => pairRun p (pairPowerOn p v)) u) s

/-- The angle domain leaves reset, TB from 0 (R407, R408). -/
def angleRelease (s : State) : State := s.modPower fun p => { p with angleReset := false }

/-- One step of the start-up (R408), in order; ROM safe mode stops it after the third (R409). -/
def startStep (k : Nat) (s : State) : State :=
  let on := s.power.startStep == k && !s.power.inReset && Nat.ble 4400 s.power.vsup && s.get CPR_PWRSTAT_STATE == 0
  let next (u : State) : State := u.modPower fun p => { p with startStep := k + 1 }
  bif !on || (Nat.ble 3 k && s.flag KTL_STAT_SAFE) then s
  else match k with
    | 0 => next (clockGood 5 (s.modPerc fun p => { p with hbTb := s.time }))
    | 1 => next (clockGood 4 s)
    | 2 => next (angleRelease (clockGood 3 (pllLock 2 (clockGood 1 (clockGood 0 s)))))
    | 3 => let t := firmwareRun (romBoot s); bif t.perc.running then next t else t
    | 4 => next (coldStart s)
    | _ => next (updPoll (pairsBoot s))

/-- A step of the start-up (R408). -/
def execStartupSequence (step : Fin 6) (s : State) : Host.Outcome State Fault Refusal := done (startStep step s)

/-- PLLT has relocked: the domain leaves reset, PERC logs it and applies its images again (R407). -/
def angleDomainBack (s : State) : State :=
  bif !s.power.angleReset || !s.clockOk 1 || s.power.inReset || Nat.blt s.power.startStep 3 || Nat.ble 2 (s.get CPR_PWRSTAT_STATE) then s
  else
    let t := angleRelease s
    bif t.perc.running then updPoll (coldStart (offerOwn 0 2 0x0041 (t.modPerc fun p => { p with conds := putAt (4 * 0x41) 1 p.conds }))) else t

/-- The angle domain leaves reset (R407). -/
def execAngleDomainResetRelease (s : State) : Host.Outcome State Fault Refusal := done (angleDomainBack s)

/-- What the end of an exit restarts: VR front ends with the angle domain (R56), comparators that had no power (R221, R225), and the
Kettle's count with PERC's clock. -/
def exitRestarts (q : Nat) (s : State) : State :=
  bif Nat.blt q 2 then s
  else bif q == 2 then
    upTo 4 (fun n u => whenS (u.flag (TI_CFG_EN n) && u.get (TI_CFG_MODE n) == 1) (fun v => vrPrime v n) u) s
  else
    (upTo 48 (fun n u => whenS (!u.flag (CMP_CFG_AON n)) (cmpFirst n) u) s).modPerc fun p => { p with hbTb := s.time }

/-- The end of the exit from a power state (R398, R399). -/
def execPowerExitComplete (s : State) : Host.Outcome State Fault Refusal :=
  let q := s.get CPR_PWRSTAT_STATE
  done (bif s.power.exiting then exitRestarts q (powerExit s) else s)

/-! ### Recovery (R353 to R355) -/

/-- A slow request that waits touches a block that a recovery step is about, by an opcode of that block and unit or by a register write: the
request is taken first (R354). -/
def requestFirst (s : State) (touches : Req → Bool) (regs : Nat → Bool) : Bool :=
  s.gnorum.slow.any fun r => touches r || (r.opc == 0x04 && regs (busAddr (reqMid s r.src) (r.word 0)))

/-- The request acts on pair `p`. -/
def touchesPair (p : Nat) (r : Req) : Bool := [0x06, 0xB4].contains r.opc.toNat && r.u == p

/-- The request acts on sequencer `n`: by its unit, or by the mask of CAR_UBANK. -/
def touchesEsq (n : Nat) (r : Req) : Bool :=
  ([0x2D, 0x2E, 0x2F, 0xB3].contains r.opc.toNat && r.u == n) || (r.opc == 0x93 && bitAt (r.word 0) n)

/-- The request acts on the CAE, whatever its unit. -/
def touchesCae (r : Req) : Bool := [0x41, 0x42, 0x43, 0x45, 0x46].contains r.opc.toNat

/-- Restarts of pair `p` in the last hour (R353). -/
def restartsOf (s : State) (p : Nat) : List Nat := (s.pair p).restarts.filter fun t => Nat.blt s.time (t + 720000000000)

/-- PERC gives pair `p` up: it stays in RESET, with an ERR record (R353). -/
def pairGivenUp (p : Nat) (s : State) : State := offerStep 1 25 ((pairRunClear p s).modPair p fun x => { x with recover := 0 })

/-- The next step of the restart of pair `p` (R283, R353): RUN is cleared and the self-test starts; on a pass the pair runs again. Each step
is logged. -/
def pairRecover (p : Nat) (s : State) : State :=
  let st := pairState s p
  let x := s.pair p
  let busy := requestFirst s (touchesPair p) (fun a => within (Reg.CPR_PAIRCTL p) 16 a) || s.update.active.any fun a => a.comp == 1 && a.unit == p
  bif !(s.flag PST_RPOL_PAIRRST && hasPair s p && s.sysClock) || busy then s
  else bif st == 6 || (st == 1 && x.recover == 1) then
    bif Nat.ble (s.get PST_RPOL_PAIRMAX) (restartsOf s p).length then pairGivenUp p s
    else offerFree 25 ((Machine.pairTest p (offerFree 25 (pairRunClear p s))).modPair p fun y => { y with recover := 2 })
  else bif st == 1 && x.recover == 2 then
    bif s.get (CPR_PAIRSTAT_STRES p) != 1 then pairGivenUp p s
    else restartRecord false ((pairRun p s).modPair p fun y => { y with recover := 0, restarts := s.time :: restartsOf s p })
  else s

/-- PERC restarts a pair (R353). -/
def execRecoveryPairRestart (p : Fin 2) (s : State) : Host.Outcome State Fault Refusal := done (byPerc s (pairRecover p))

/-- The spare that takes a faulted group: the first STOPPED one that owns none and whose last self-test passed (R353). -/
def spareFor (s : State) (n : Nat) : Option Nat :=
  (List.range 8).find? fun m => m != n && s.hasEsq m && s.get (ESQ_STAT_STATE m) == 0 && !s.flag (ESQ_OWN_VALID m) && s.get (ESQ_STAT_STRES m) == 1

/-- The microcode bank in use of sequencer `n` is the bank `SBANK` of sequencer `m` (R353; log entry 54). -/
def bankMove (n m : Nat) (s : State) : State :=
  let b := s.flag (ESQ_STAT_UBANK n)
  let src := 0x500D0000 + n * 0x4000 + b.toNat * 0x2000
  let dst := 0x500D0000 + m * 0x4000 + b.toNat * 0x2000
  let t := upTo 2048 (fun i u => u.wr (dst + 4 * i) (u.rd (src + 4 * i))) s
  { (t.setb (ESQ_CFG_SBANK m) b) with
    ecc := (s.ecc.filter fun a => !within dst 0x2000 a) ++ (s.ecc.filter (within src 0x2000)).map fun a => a - src + dst }

/-- Output enables that the fault cleared are set again (R353, R354). -/
def outputsBack (g : Nat) (s : State) : State :=
  upTo 8 (fun i u =>
    let c := 8 * g + i
    let k := u.get (SCH_CHCFG_CRL c)
    whenS ((u.unit c).lost && !(k != 15 && loopState u k == loopFault)) (outenSet c) u) s

/-- The group of a faulted sequencer moves to a spare: release, assignment, RUN and, where the policy asks for it, OUTEN, each logged (R131,
R353). -/
def esqSpare (n : Nat) (s : State) : State :=
  match groupOf s n, spareFor s n with
  | some g, some m =>
    let esqReg (k a : Nat) : Bool := within (Reg.ESQ_CTL k) 0x1000 a || within (0x500D0000 + k * 0x4000) 0x4000 a
    bif !(s.flag PST_RPOL_ESQSPARE && s.angleRuns) || s.get (ESQ_STAT_STATE n) != 2 || groupBusy s g ||
        requestFirst s (fun r => touchesEsq n r || touchesEsq m r) (fun a => esqReg n a || esqReg m a) then s
    else
      let step := offerFree (BitVec.ofNat 6 (12 + n))
      let lost := (List.range 8).filter fun i => (s.unit (8 * g + i)).lost
      let s1 := step (ownWrite m (256 + g) (step (ownWrite n g s)))
      let s2 := ((bankMove n m s1).wr (Reg.ESQ_EVRNG m) (s.rd (Reg.ESQ_EVRNG n))).set (ESQ_CFG_CTRK m) (s.get (ESQ_CFG_CTRK n))
      let s3 := step (esqRun m s2)
      whenS (s.flag PST_RPOL_ESQOUT && !lost.isEmpty) (fun u => step (outputsBack g u)) s3
  | _, _ => s

/-- PERC moves a group to a spare (R353). -/
def execRecoveryEsqSpare (n : Fin 8) (s : State) : Host.Outcome State Fault Refusal := done (byPerc s (esqSpare n))

/-- The CAE is restarted after a fault, at most once in 10 s (R353). -/
def caeRecover (s : State) : State :=
  let soon := match s.perc.caeTb with | some t => Nat.blt s.time (t + 2000000000) | none => false
  bif !(s.flag PST_RPOL_CAEREST && s.hasCae) || caeState s != 2 || soon ||
      requestFirst s touchesCae (fun a => within 0x500A0000 0x1000 a) then s
  else offerFree 22 ((caeRun (offerFree 22 (caeFclr s))).modPerc fun p => { p with caeTb := some s.time })

/-- PERC restarts the CAE (R353). -/
def execRecoveryCaeRestart (s : State) : Host.Outcome State Fault Refusal := done (byPerc s caeRecover)

/-- PERC asserts OREL_N of member `m`, which has reported safe mode with a coast in progress, or whose PERC heartbeat has been absent for
200 ms (R355); in bank split no member does so on its own decision (R390). -/
def peerRelease (m : Nat) (s : State) : State :=
  let p := s.peer m
  let sts := p.sts.toNat
  let due := (bitAt sts 3 && bitAt sts 4) || Nat.ble (p.hbtTb + 40000000) s.time
  bif !(s.flag PST_RPOL_PEERREL && s.counts.carafe) || s.flag RING_CFG_MODE || m == memberNo s || !(members s).contains m || !due || bitAt (s.get RING_OREL_ASSERT) m then s
  else offerFree 27 (orelPut (putBits (s.get RING_OREL_ASSERT) m 1 1) s)

/-- PERC asserts a peer's OREL_N (R355). -/
def execPeerOrelAssert (m : Fin 4) (s : State) : Host.Outcome State Fault Refusal := done (byPerc s (inAngle · (peerRelease m)))

end Sys2Proof.Machine
end

