-- ==== Sys2Proof/Machine/Xfer.lean ====
section
/-! DEFINITION. The transfer of a DMA descriptor: its beats, its waits for queues and its errors (R319 to R325, R329). -/

namespace Sys2Proof.Machine

open Fields

/-- Bytes of a beat: 8, or 4 where a queue or a fixed address takes part (R319, R320). Beats are moved one by one, each read and written before
the next: which bursts they are grouped into shows in no register (log entry 81). -/
def beatSize (d : Dma) : Nat := bif d.fromQueue || d.toQueue || bitAt (d.word 0) 27 || bitAt (d.word 0) 26 then 4 else 8

/-- Bytes of the beat at offset `off`. -/
def beatBytes (d : Dma) (off : Nat) : Nat := min (beatSize d) (d.len - off)

/-- Source and destination address of the byte at offset `off` (R320). -/
def srcAt (d : Dma) (off : Nat) : Nat := bif bitAt (d.word 0) 27 then d.word 1 else (d.word 1 + off) % 2 ^ 32
def dstAt (d : Dma) (off : Nat) : Nat := bif bitAt (d.word 0) 26 then d.word 2 else (d.word 2 + off) % 2 ^ 32

/-- `k` words read from `a`, word by word; none when one fails. -/
def beatRead (mid : Nat) : Nat → Nat → State → Option (List Word) × State
  | 0, _, s => (some [], s)
  | k + 1, a, s =>
    match busRead mid a .word s with
    | (none, t) => (none, t)
    | (some w, t) =>
      match beatRead mid k (a + 4) t with
      | (none, u) => (none, u)
      | (some ws, u) => (some (w :: ws), u)

/-- Words written from `a` in one beat: all of them, or none where one is refused. -/
def beatWrite (mid : Nat) (ws : List Word) (a : Nat) (s : State) : Bool × State :=
  match ws.zipIdx.find? fun p => !(busWrite mid (a + 4 * p.2) .word p.1 s).1 with
  | some p => (false, (busWrite mid (a + 4 * p.2) .word p.1 s).2)
  | none => (true, ws.zipIdx.foldl (fun u p => (busWrite mid (a + 4 * p.2) .word p.1 u).2) s)

/-- The data of a beat of channel `n` at offset `off` go to their destination, and the progress is kept (R308, R323). -/
def beatStore (n off bytes : Nat) (d : Dma) (ws : List Word) (s : State) : State :=
  let go (t : State) : State := t.putDma n { t.dma n with done := off + bytes }
  bif d.toQueue then
    go (ws.foldl (fun u w => queuePush (dmaMid n) (d.word 2 % 32) w u) s)
  else
    match beatWrite (dmaMid n) ws (dstAt d off) s with
    | (false, t) => dmaFinish n 2 off (dstAt d off) t
    | (true, t) => go t

/-- The data of the next beat of channel `n`, read or popped; or the state in which its read has failed (R323, R329). -/
def beatFetch (n : Nat) (s : State) : Sum State (List Word × State) :=
  let d := s.dma n
  let off := d.done
  bif d.fromQueue then
    match queueTake (d.word 1 % 32) s with
    | (none, t) => .inl t
    | (some x, t) => .inr ([x.data], whenS (x.ue || x.poison) (fun u => u.putDma n { u.dma n with poison := true }) t)
  else
    match beatRead (dmaMid n) (beatBytes d off / 4) (srcAt d off) s with
    | (none, t) => .inl (dmaFinish n 1 off (srcAt d off) t)
    | (some ws, t) => .inr (ws, t)

/-- One beat of channel `n`, where it does not wait (R323, R324, R329). -/
def beat (n : Nat) (s : State) : State :=
  let d := s.dma n
  bif beatWaits s d then s
  else match beatFetch n s with
    | .inl t => t
    | .inr x => beatStore n d.done (beatBytes d d.done) d x.1 x.2

/-- Beats of channel `n` up to offset `limit`, while the channel is in XFER and does not wait. -/
def beats (n limit : Nat) : Nat → State → State
  | 0, s => s
  | k + 1, s =>
    bif dmaState s n != dmaXfer || Nat.ble limit (s.dma n).done || beatWaits s (s.dma n) then s else beats n limit k (beat n s)

/-- The transfer of channel `n` runs as far as it can; when every beat is done it goes to WB with status OK (R322, R325). -/
def dmaTransfer (n : Nat) (s : State) : State :=
  bif dmaState s n != dmaXfer then s
  else
    let len := (s.dma n).len
    let t := beats n len (len / 4 + 1) s
    bif dmaState t n == dmaXfer && Nat.ble len (t.dma n).done then dmaFinish n 0 len 0 t else t

/-- The beat of channel `n` that holds the byte at `offset` receives an error response, to its write or to its read; the beats before it
are done, and what a failing write was to store has been read or popped (R323). -/
def dmaErrorAt (n : Nat) (write : Bool) (offset : Nat) (s : State) : State :=
  let d := s.dma n
  bif dmaState s n != dmaXfer || Nat.ble d.len offset || Nat.blt offset d.done || (bif write then d.toQueue else d.fromQueue) then s
  else
    let t := beats n (offset / beatSize d * beatSize d) (d.len / 4 + 1) s
    let off := (t.dma n).done
    bif dmaState t n != dmaXfer || beatWaits t (t.dma n) then t
    else match beatFetch n t with
      | .inl u => u
      | .inr x =>
        let u := beatStore n off (beatBytes d off) d x.1 x.2
        bif !write then dmaFinish n 1 off (srcAt d off) t
        else bif dmaState u n == dmaWb then u
        else dmaFinish n 2 off (dstAt d off) x.2

/-- Every response of the transfer has returned (R322). -/
def execDmaTransferComplete (n : Fin 16) (s : State) : Host.Outcome State Fault Refusal := done (dmaTransfer n s)

/-- A beat receives an error response (R323). -/
def execDmaErrorResponse (n : Fin 16) (write : Bool) (offset : Nat) (s : State) : Host.Outcome State Fault Refusal :=
  done (dmaErrorAt n write offset s)

end Sys2Proof.Machine
end

