-- ==== Sys2Proof/Machine/Dispatch.lean ====
section
/-! DEFINITION. The meaning of every command: one arm per constructor of `Instr`. -/

namespace Sys2Proof.Machine

def exec (i : Instr) (s : State) : Host.Outcome State Fault Refusal :=
  match i with
  | .registerWrite mid addr size val => Sys2Proof.Machine.execRegisterWrite mid addr size val s
  | .rcFieldRead mid addr => Sys2Proof.Machine.execRcFieldRead mid addr s
  | .lowWordRead mid addr => Sys2Proof.Machine.execLowWordRead mid addr s
  | .toothEntryWrite mid entry word1 val => Sys2Proof.Machine.execToothEntryWrite mid entry word1 val s
  | .tiPinEdge n level => Sys2Proof.Machine.execTiPinEdge n level s
  | .filteredEdge n => Sys2Proof.Machine.execFilteredEdge n s
  | .dirpwWidthSaturate n => Sys2Proof.Machine.execDirpwWidthSaturate n s
  | .inputEnable n => Sys2Proof.Machine.execInputEnable n s
  | .inputDisable n => Sys2Proof.Machine.execInputDisable n s
  | .vrGenuineCrossing n risingTHR => Sys2Proof.Machine.execVrGenuineCrossing n risingTHR s
  | .vrZeroCrossing n peak => Sys2Proof.Machine.execVrZeroCrossing n peak s
  | .vrTimeout n => Sys2Proof.Machine.execVrTimeout n s
  | .capTslRead mid n => Sys2Proof.Machine.execCapTslRead mid n s
  | .toothEntryPop n => Sys2Proof.Machine.execToothEntryPop n s
  | .virtualTooth n => Sys2Proof.Machine.execVirtualTooth n s
  | .catchupComplete n => Sys2Proof.Machine.execCatchupComplete n s
  | .accumulatorHalt n => Sys2Proof.Machine.execAccumulatorHalt n s
  | .toothPeriodStall n => Sys2Proof.Machine.execToothPeriodStall n s
  | .cammiss n => Sys2Proof.Machine.execCammiss n s
  | .angleCycleWrap n => Sys2Proof.Machine.execAngleCycleWrap n s
  | .wcylWrite mid n c work => Sys2Proof.Machine.execWcylWrite mid n c work s
  | .trackerEnable n => Sys2Proof.Machine.execTrackerEnable n s
  | .trackerDisable n => Sys2Proof.Machine.execTrackerDisable n s
  | .wheelSwitchRequest n => Sys2Proof.Machine.execWheelSwitchRequest n s
  | .syncRestart n => Sys2Proof.Machine.execSyncRestart n s
  | .syncDrop n => Sys2Proof.Machine.execSyncDrop n s
  | .setph0 n => Sys2Proof.Machine.execSetph0 n s
  | .setph1 n => Sys2Proof.Machine.execSetph1 n s
  | .passStrobe parity => Sys2Proof.Machine.execPassStrobe parity s
  | .coastExpiry n => Sys2Proof.Machine.execCoastExpiry n s
  | .committedEdgeOutput c => Sys2Proof.Machine.execCommittedEdgeOutput c s
  | .maxdurCut c => Sys2Proof.Machine.execMaxdurCut c s
  | .outputUnitSyncLoss n => Sys2Proof.Machine.execOutputUnitSyncLoss n s
  | .directionChangeCancel n => Sys2Proof.Machine.execDirectionChangeCancel n s
  | .outenWrite high val => Sys2Proof.Machine.execOutenWrite high val s
  | .bankSwitchRequest image => Sys2Proof.Machine.execBankSwitchRequest image s
  | .bankCopyStart image => Sys2Proof.Machine.execBankCopyStart image s
  | .bankCopyDone => Sys2Proof.Machine.execBankCopyDone s
  | .stagedWriteApply n => Sys2Proof.Machine.execStagedWriteApply n s
  | .esqNop n => Sys2Proof.Machine.execEsqNop n s
  | .esqAdd n dst sa sb => Sys2Proof.Machine.execEsqAdd n dst sa sb s
  | .esqSub n dst sa sb => Sys2Proof.Machine.execEsqSub n dst sa sb s
  | .esqAnd n dst sa sb => Sys2Proof.Machine.execEsqAnd n dst sa sb s
  | .esqOr n dst sa sb => Sys2Proof.Machine.execEsqOr n dst sa sb s
  | .esqXor n dst sa sb => Sys2Proof.Machine.execEsqXor n dst sa sb s
  | .esqShl n dst sa sb => Sys2Proof.Machine.execEsqShl n dst sa sb s
  | .esqShr n dst sa sb => Sys2Proof.Machine.execEsqShr n dst sa sb s
  | .esqSra n dst sa sb => Sys2Proof.Machine.execEsqSra n dst sa sb s
  | .esqMul n dst sa sb => Sys2Proof.Machine.execEsqMul n dst sa sb s
  | .esqAddi n dst sa imm => Sys2Proof.Machine.execEsqAddi n dst sa imm s
  | .esqAndi n dst sa imm => Sys2Proof.Machine.execEsqAndi n dst sa imm s
  | .esqOri n dst sa imm => Sys2Proof.Machine.execEsqOri n dst sa imm s
  | .esqXori n dst sa imm => Sys2Proof.Machine.execEsqXori n dst sa imm s
  | .esqShli n dst sa imm => Sys2Proof.Machine.execEsqShli n dst sa imm s
  | .esqShri n dst sa imm => Sys2Proof.Machine.execEsqShri n dst sa imm s
  | .esqSrai n dst sa imm => Sys2Proof.Machine.execEsqSrai n dst sa imm s
  | .esqLui n dst imm => Sys2Proof.Machine.execEsqLui n dst imm s
  | .esqLd n dst sa imm => Sys2Proof.Machine.execEsqLd n dst sa imm s
  | .esqSt n dst sa imm => Sys2Proof.Machine.execEsqSt n dst sa imm s
  | .esqLde n dst sa imm => Sys2Proof.Machine.execEsqLde n dst sa imm s
  | .esqAbr n dst imm => Sys2Proof.Machine.execEsqAbr n dst imm s
  | .esqTbr n dst imm => Sys2Proof.Machine.execEsqTbr n dst imm s
  | .esqFlg n dst imm => Sys2Proof.Machine.execEsqFlg n dst imm s
  | .esqEres n dst => Sys2Proof.Machine.execEsqEres n dst s
  | .esqBeq n sa sb tgt => Sys2Proof.Machine.execEsqBeq n sa sb tgt s
  | .esqBne n sa sb tgt => Sys2Proof.Machine.execEsqBne n sa sb tgt s
  | .esqBlt n sa sb tgt => Sys2Proof.Machine.execEsqBlt n sa sb tgt s
  | .esqBge n sa sb tgt => Sys2Proof.Machine.execEsqBge n sa sb tgt s
  | .esqBltu n sa sb tgt => Sys2Proof.Machine.execEsqBltu n sa sb tgt s
  | .esqBgeu n sa sb tgt => Sys2Proof.Machine.execEsqBgeu n sa sb tgt s
  | .esqJmp n tgt => Sys2Proof.Machine.execEsqJmp n tgt s
  | .esqCall n tgt => Sys2Proof.Machine.execEsqCall n tgt s
  | .esqJr n sa => Sys2Proof.Machine.execEsqJr n sa s
  | .esqWpass n => Sys2Proof.Machine.execEsqWpass n s
  | .esqEval n imm => Sys2Proof.Machine.execEsqEval n imm s
  | .esqEdrain n => Sys2Proof.Machine.execEsqEdrain n s
  | .esqChsafe n imm => Sys2Proof.Machine.execEsqChsafe n imm s
  | .esqSwi n imm => Sys2Proof.Machine.execEsqSwi n imm s
  | .esqHalt n => Sys2Proof.Machine.execEsqHalt n s
  | .esqWtb n sa => Sys2Proof.Machine.execEsqWtb n sa s
  | .illegalInstruction n word => Sys2Proof.Machine.execIllegalInstruction n word s
  | .esqRun n => Sys2Proof.Machine.execEsqRun n s
  | .esqStop n => Sys2Proof.Machine.execEsqStop n s
  | .esqFclr n => Sys2Proof.Machine.execEsqFclr n s
  | .esqUbreq n => Sys2Proof.Machine.execEsqUbreq n s
  | .esqSelftestStart n => Sys2Proof.Machine.execEsqSelftestStart n s
  | .esqSelftestDone n pass => Sys2Proof.Machine.execEsqSelftestDone n pass s
  | .esqOwnWrite n image => Sys2Proof.Machine.execEsqOwnWrite n image s
  | .crlComparatorCrossing k upper level => Sys2Proof.Machine.execCrlComparatorCrossing k upper level s
  | .blankingEnd k => Sys2Proof.Machine.execBlankingEnd k s
  | .phaseTimeElapsed k => Sys2Proof.Machine.execPhaseTimeElapsed k s
  | .deadTimeEnd k => Sys2Proof.Machine.execDeadTimeEnd k s
  | .ovcTimeout k => Sys2Proof.Machine.execOvcTimeout k s
  | .watchWindowOpen k => Sys2Proof.Machine.execWatchWindowOpen k s
  | .traceSample k code => Sys2Proof.Machine.execTraceSample k code s
  | .analyseComplete k => Sys2Proof.Machine.execAnalyseComplete k s
  | .loopEnable k => Sys2Proof.Machine.execLoopEnable k s
  | .loopDisable k => Sys2Proof.Machine.execLoopDisable k s
  | .loopFclr k => Sys2Proof.Machine.execLoopFclr k s
  | .crlCalreq k => Sys2Proof.Machine.execCrlCalreq k s
  | .idleTimerCalStart k => Sys2Proof.Machine.execIdleTimerCalStart k s
  | .crlCalComplete k sum => Sys2Proof.Machine.execCrlCalComplete k sum s
  | .crlCalStarved k => Sys2Proof.Machine.execCrlCalStarved k s
  | .programBankRequest n => Sys2Proof.Machine.execProgramBankRequest n s
  | .samplingMark => Sys2Proof.Machine.execSamplingMark s
  | .padcConversionDone core raw => Sys2Proof.Machine.execPadcConversionDone core raw s
  | .padcEnable => Sys2Proof.Machine.execPadcEnable s
  | .padcCalreq core => Sys2Proof.Machine.execPadcCalreq core s
  | .padcCalComplete core zeroSum refSum => Sys2Proof.Machine.execPadcCalComplete core zeroSum refSum s
  | .padcCalRotation => Sys2Proof.Machine.execPadcCalRotation s
  | .caeAnalysisComplete c => Sys2Proof.Machine.execCaeAnalysisComplete c s
  | .phaseTrimReply c => Sys2Proof.Machine.execPhaseTrimReply c s
  | .caeAnalysisTimeout c => Sys2Proof.Machine.execCaeAnalysisTimeout c s
  | .caeRun => Sys2Proof.Machine.execCaeRun s
  | .caeStop => Sys2Proof.Machine.execCaeStop s
  | .caeFclr => Sys2Proof.Machine.execCaeFclr s
  | .kernelBankRequest => Sys2Proof.Machine.execKernelBankRequest s
  | .gptPeriodEnd t => Sys2Proof.Machine.execGptPeriodEnd t s
  | .gptCompareEvent t x => Sys2Proof.Machine.execGptCompareEvent t x s
  | .gptWidthSaturate t x => Sys2Proof.Machine.execGptWidthSaturate t x s
  | .gptCaptureRead mid t x => Sys2Proof.Machine.execGptCaptureRead mid t x s
  | .gptPerImmediate t reg val => Sys2Proof.Machine.execGptPerImmediate t reg val s
  | .brewMaskWrite mask => Sys2Proof.Machine.execBrewMaskWrite mask s
  | .ringBrewWrite => Sys2Proof.Machine.execRingBrewWrite s
  | .ringBrewStart => Sys2Proof.Machine.execRingBrewStart s
  | .hadcSwtrg seqs => Sys2Proof.Machine.execHadcSwtrg seqs s
  | .hadcSeqStop seqs => Sys2Proof.Machine.execHadcSeqStop seqs s
  | .hadcAngleTrigger q => Sys2Proof.Machine.execHadcAngleTrigger q s
  | .hadcEntryDelayEnd q => Sys2Proof.Machine.execHadcEntryDelayEnd q s
  | .hadcConversionDone code => Sys2Proof.Machine.execHadcConversionDone code s
  | .resRead mid j => Sys2Proof.Machine.execResRead mid j s
  | .hadcCalreq => Sys2Proof.Machine.execHadcCalreq s
  | .hadcCalStep code => Sys2Proof.Machine.execHadcCalStep code s
  | .hadcCalStarved => Sys2Proof.Machine.execHadcCalStarved s
  | .hadcDisable => Sys2Proof.Machine.execHadcDisable s
  | .comparatorCrossing n input => Sys2Proof.Machine.execComparatorCrossing n input s
  | .thresholdWrite n val => Sys2Proof.Machine.execThresholdWrite n val s
  | .comparatorEnable n input => Sys2Proof.Machine.execComparatorEnable n input s
  | .hspiRequestTransaction p bytes => Sys2Proof.Machine.execHspiRequestTransaction p bytes s
  | .hspiReadTransaction p complete => Sys2Proof.Machine.execHspiReadTransaction p complete s
  | .ethFrameReceive p frame => Sys2Proof.Machine.execEthFrameReceive p frame s
  | .canFrameReceive p frame => Sys2Proof.Machine.execCanFrameReceive p frame s
  | .canReassemblyTimeout p => Sys2Proof.Machine.execCanReassemblyTimeout p s
  | .uartFrameReceive p bytes lineError => Sys2Proof.Machine.execUartFrameReceive p bytes lineError s
  | .uartReplySend p => Sys2Proof.Machine.execUartReplySend p s
  | .mailboxWrite box word => Sys2Proof.Machine.execMailboxWrite box word s
  | .chainTimeout src => Sys2Proof.Machine.execChainTimeout src s
  | .percWriteGroup => Sys2Proof.Machine.execPercWriteGroup s
  | .ping r => Sys2Proof.Machine.execPing r s
  | .info r => Sys2Proof.Machine.execInfo r s
  | .status r => Sys2Proof.Machine.execStatus r s
  | .regRead r => Sys2Proof.Machine.execRegRead r s
  | .regWrite r => Sys2Proof.Machine.execRegWrite r s
  | .jobQuery r => Sys2Proof.Machine.execJobQuery r s
  | .resetUnit r => Sys2Proof.Machine.execResetUnit r s
  | .trkCfg r => Sys2Proof.Machine.execTrkCfg r s
  | .trkEn r => Sys2Proof.Machine.execTrkEn r s
  | .wheelStage r => Sys2Proof.Machine.execWheelStage r s
  | .wheelLoad r => Sys2Proof.Machine.execWheelLoad r s
  | .wheelSwitch r => Sys2Proof.Machine.execWheelSwitch r s
  | .syncCtl r => Sys2Proof.Machine.execSyncCtl r s
  | .corrLoad r => Sys2Proof.Machine.execCorrLoad r s
  | .profLoad r => Sys2Proof.Machine.execProfLoad r s
  | .trkRead r => Sys2Proof.Machine.execTrkRead r s
  | .pstoreRead r => Sys2Proof.Machine.execPstoreRead r s
  | .tiCfg r => Sys2Proof.Machine.execTiCfg r s
  | .tiRead r => Sys2Proof.Machine.execTiRead r s
  | .evtWrite r => Sys2Proof.Machine.execEvtWrite r s
  | .evtEn r => Sys2Proof.Machine.execEvtEn r s
  | .trimWrite r => Sys2Proof.Machine.execTrimWrite r s
  | .trimAdd r => Sys2Proof.Machine.execTrimAdd r s
  | .evtFire r => Sys2Proof.Machine.execEvtFire r s
  | .evtWriteN r => Sys2Proof.Machine.execEvtWriteN r s
  | .evtRead r => Sys2Proof.Machine.execEvtRead r s
  | .chRead r => Sys2Proof.Machine.execChRead r s
  | .envWrite r => Sys2Proof.Machine.execEnvWrite r s
  | .bankSwitch r => Sys2Proof.Machine.execBankSwitch r s
  | .bankCopy r => Sys2Proof.Machine.execBankCopy r s
  | .bankAng r => Sys2Proof.Machine.execBankAng r s
  | .horizon r => Sys2Proof.Machine.execHorizon r s
  | .esqAssign r => Sys2Proof.Machine.execEsqAssign r s
  | .esqCtl r => Sys2Proof.Machine.execEsqCtl r s
  | .esqUbank r => Sys2Proof.Machine.execEsqUbank r s
  | .crlCfg r => Sys2Proof.Machine.execCrlCfg r s
  | .crlCtl r => Sys2Proof.Machine.execCrlCtl r s
  | .cseProf r => Sys2Proof.Machine.execCseProf r s
  | .csePbank r => Sys2Proof.Machine.execCsePbank r s
  | .crlRead r => Sys2Proof.Machine.execCrlRead r s
  | .cseRing r => Sys2Proof.Machine.execCseRing r s
  | .gptCfg r => Sys2Proof.Machine.execGptCfg r s
  | .brew r => Sys2Proof.Machine.execBrew r s
  | .brewRing r => Sys2Proof.Machine.execBrewRing r s
  | .gptRead r => Sys2Proof.Machine.execGptRead r s
  | .workWrite r => Sys2Proof.Machine.execWorkWrite r s
  | .caeParam r => Sys2Proof.Machine.execCaeParam r s
  | .caeCyl r => Sys2Proof.Machine.execCaeCyl r s
  | .caeCtl r => Sys2Proof.Machine.execCaeCtl r s
  | .padcCfg r => Sys2Proof.Machine.execPadcCfg r s
  | .recRead r => Sys2Proof.Machine.execRecRead r s
  | .caeKbank r => Sys2Proof.Machine.execCaeKbank r s
  | .hadcSeq r => Sys2Proof.Machine.execHadcSeq r s
  | .hadcRead r => Sys2Proof.Machine.execHadcRead r s
  | .hadcTrg r => Sys2Proof.Machine.execHadcTrg r s
  | .cmpCfg r => Sys2Proof.Machine.execCmpCfg r s
  | .cmpRead r => Sys2Proof.Machine.execCmpRead r s
  | .hadcCtl r => Sys2Proof.Machine.execHadcCtl r s
  | .qCfg r => Sys2Proof.Machine.execQCfg r s
  | .qStat r => Sys2Proof.Machine.execQStat r s
  | .dmaCtl r => Sys2Proof.Machine.execDmaCtl r s
  | .dmaStat r => Sys2Proof.Machine.execDmaStat r s
  | .pwrEnter r => Sys2Proof.Machine.execPwrEnter r s
  | .pwrRead r => Sys2Proof.Machine.execPwrRead r s
  | .outenSet r => Sys2Proof.Machine.execOutenSet r s
  | .outenClr r => Sys2Proof.Machine.execOutenClr r s
  | .outRead r => Sys2Proof.Machine.execOutRead r s
  | .logRead r => Sys2Proof.Machine.execLogRead r s
  | .logCfg r => Sys2Proof.Machine.execLogCfg r s
  | .sensorRead r => Sys2Proof.Machine.execSensorRead r s
  | .alarmSub r => Sys2Proof.Machine.execAlarmSub r s
  | .kettleRead r => Sys2Proof.Machine.execKettleRead r s
  | .updBegin r => Sys2Proof.Machine.execUpdBegin r s
  | .updData r => Sys2Proof.Machine.execUpdData r s
  | .updVerify r => Sys2Proof.Machine.execUpdVerify r s
  | .updActivate r => Sys2Proof.Machine.execUpdActivate r s
  | .updRevert r => Sys2Proof.Machine.execUpdRevert r s
  | .updAbort r => Sys2Proof.Machine.execUpdAbort r s
  | .carCfg r => Sys2Proof.Machine.execCarCfg r s
  | .carRead r => Sys2Proof.Machine.execCarRead r s
  | .carHandover r => Sys2Proof.Machine.execCarHandover r s
  | .carUbank r => Sys2Proof.Machine.execCarUbank r s
  | .orelSet r => Sys2Proof.Machine.execOrelSet r s
  | .sessOpen r => Sys2Proof.Machine.execSessOpen r s
  | .sessClose r => Sys2Proof.Machine.execSessClose r s
  | .dbgChal r => Sys2Proof.Machine.execDbgChal r s
  | .dbgResp r => Sys2Proof.Machine.execDbgResp r s
  | .secRead r => Sys2Proof.Machine.execSecRead r s
  | .keyRevoke r => Sys2Proof.Machine.execKeyRevoke r s
  | .calCrl r => Sys2Proof.Machine.execCalCrl r s
  | .calPadc r => Sys2Proof.Machine.execCalPadc r s
  | .calHadc r => Sys2Proof.Machine.execCalHadc r s
  | .testEsq r => Sys2Proof.Machine.execTestEsq r s
  | .testLock r => Sys2Proof.Machine.execTestLock r s
  | .sramOffline r => Sys2Proof.Machine.execSramOffline r s
  | .testSram r => Sys2Proof.Machine.execTestSram r s
  | .trkGen r => Sys2Proof.Machine.execTrkGen r s
  | .generatorEdge n => Sys2Proof.Machine.execGeneratorEdge n s
  | .jobSlotTimeout job => Sys2Proof.Machine.execJobSlotTimeout job s
  | .stagingBufferTimeout => Sys2Proof.Machine.execStagingBufferTimeout s
  | .coreInstruction core word => Sys2Proof.Machine.execCoreInstruction core word s
  | .fence core => Sys2Proof.Machine.execFence core s
  | .fenceI core => Sys2Proof.Machine.execFenceI core s
  | .wfi core => Sys2Proof.Machine.execWfi core s
  | .mret core => Sys2Proof.Machine.execMret core s
  | .cacheOperation core val => Sys2Proof.Machine.execCacheOperation core val s
  | .dzmattWrite core k val => Sys2Proof.Machine.execDzmattWrite core k val s
  | .exceptionTrap core cause tval => Sys2Proof.Machine.execExceptionTrap core cause tval s
  | .interruptDeliveryCommit target => Sys2Proof.Machine.execInterruptDeliveryCommit target s
  | .coreWake core => Sys2Proof.Machine.execCoreWake core s
  | .irqEnset w bits => Sys2Proof.Machine.execIrqEnset w bits s
  | .irqEnclr w bits => Sys2Proof.Machine.execIrqEnclr w bits s
  | .irqPndset w bits => Sys2Proof.Machine.execIrqPndset w bits s
  | .irqPndclr w bits => Sys2Proof.Machine.execIrqPndclr w bits s
  | .irqTargetWrite src image => Sys2Proof.Machine.execIrqTargetWrite src image s
  | .lockstepMismatch p cause => Sys2Proof.Machine.execLockstepMismatch p cause s
  | .pairHeartbeat p => Sys2Proof.Machine.execPairHeartbeat p s
  | .pairHeartbeatTimeout p => Sys2Proof.Machine.execPairHeartbeatTimeout p s
  | .pairPowerOn p => Sys2Proof.Machine.execPairPowerOn p s
  | .pairPowerOff p => Sys2Proof.Machine.execPairPowerOff p s
  | .pairRun p => Sys2Proof.Machine.execPairRun p s
  | .pairRunClear p => Sys2Proof.Machine.execPairRunClear p s
  | .pairTest p => Sys2Proof.Machine.execPairTest p s
  | .pairTestComplete p pass => Sys2Proof.Machine.execPairTestComplete p pass s
  | .pairRoleWrite p role => Sys2Proof.Machine.execPairRoleWrite p role s
  | .ckcommit seq => Sys2Proof.Machine.execCkcommit seq s
  | .ckack seq => Sys2Proof.Machine.execCkack seq s
  | .tkack p => Sys2Proof.Machine.execTkack p s
  | .takeoverTimeout => Sys2Proof.Machine.execTakeoverTimeout s
  | .scrubRead b => Sys2Proof.Machine.execScrubRead b s
  | .bankOffline b offl => Sys2Proof.Machine.execBankOffline b offl s
  | .bankBistStart b => Sys2Proof.Machine.execBankBistStart b s
  | .bankBistDone b pass => Sys2Proof.Machine.execBankBistDone b pass s
  | .actBankSwitch => Sys2Proof.Machine.execActBankSwitch s
  | .midRevoke mid => Sys2Proof.Machine.execMidRevoke mid s
  | .arbiterGrant target beats raised => Sys2Proof.Machine.execArbiterGrant target beats raised s
  | .lockAcquire mid lock => Sys2Proof.Machine.execLockAcquire mid lock s
  | .lockTry mid lock => Sys2Proof.Machine.execLockTry mid lock s
  | .lockRelease mid lock => Sys2Proof.Machine.execLockRelease mid lock s
  | .lockWaitTimeout mid => Sys2Proof.Machine.execLockWaitTimeout mid s
  | .dmaKick n => Sys2Proof.Machine.execDmaKick n s
  | .dmaRst n => Sys2Proof.Machine.execDmaRst n s
  | .dmaClrerr n => Sys2Proof.Machine.execDmaClrerr n s
  | .dmaDescriptorFetch n => Sys2Proof.Machine.execDmaDescriptorFetch n s
  | .dmaTransferComplete n => Sys2Proof.Machine.execDmaTransferComplete n s
  | .dmaErrorResponse n write offset => Sys2Proof.Machine.execDmaErrorResponse n write offset s
  | .dmaWritebackComplete n errResp => Sys2Proof.Machine.execDmaWritebackComplete n errResp s
  | .queuePush mid q val => Sys2Proof.Machine.execQueuePush mid q val s
  | .queuePop mid q => Sys2Proof.Machine.execQueuePop mid q s
  | .queueGrant mid q k => Sys2Proof.Machine.execQueueGrant mid q k s
  | .queueEnable q => Sys2Proof.Machine.execQueueEnable q s
  | .sensorSample => Sys2Proof.Machine.execSensorSample s
  | .sensorSeqTimeout => Sys2Proof.Machine.execSensorSeqTimeout s
  | .percFaultObserve ev => Sys2Proof.Machine.execPercFaultObserve ev s
  | .logRecordOffer ev => Sys2Proof.Machine.execLogRecordOffer ev s
  | .logItemTake => Sys2Proof.Machine.execLogItemTake s
  | .coalesceWindowClose slot => Sys2Proof.Machine.execCoalesceWindowClose slot s
  | .logBucketRefill src => Sys2Proof.Machine.execLogBucketRefill src s
  | .incidentInterval => Sys2Proof.Machine.execIncidentInterval s
  | .incidentSummary => Sys2Proof.Machine.execIncidentSummary s
  | .flashLogCopy => Sys2Proof.Machine.execFlashLogCopy s
  | .logLossIncrement bits => Sys2Proof.Machine.execLogLossIncrement bits s
  | .kettleHeartbeat => Sys2Proof.Machine.execKettleHeartbeat s
  | .kettleWarn => Sys2Proof.Machine.execKettleWarn s
  | .kettleReset cause => Sys2Proof.Machine.execKettleReset cause s
  | .percFirmwareRun => Sys2Proof.Machine.execPercFirmwareRun s
  | .recoveryPairRestart p => Sys2Proof.Machine.execRecoveryPairRestart p s
  | .recoveryEsqSpare n => Sys2Proof.Machine.execRecoveryEsqSpare n s
  | .recoveryCaeRestart => Sys2Proof.Machine.execRecoveryCaeRestart s
  | .peerOrelAssert m => Sys2Proof.Machine.execPeerOrelAssert m s
  | .slotEraseDone comp unit => Sys2Proof.Machine.execSlotEraseDone comp unit s
  | .trialPeriodEnd => Sys2Proof.Machine.execTrialPeriodEnd s
  | .romBoot => Sys2Proof.Machine.execRomBoot s
  | .ringEnable => Sys2Proof.Machine.execRingEnable s
  | .ringDisable => Sys2Proof.Machine.execRingDisable s
  | .linkTrained link delay => Sys2Proof.Machine.execLinkTrained link delay s
  | .linkDown link => Sys2Proof.Machine.execLinkDown link s
  | .ringFrameStart => Sys2Proof.Machine.execRingFrameStart s
  | .ringFrameReceive link frame => Sys2Proof.Machine.execRingFrameReceive link frame s
  | .frameClose => Sys2Proof.Machine.execFrameClose s
  | .handoverAtTbs => Sys2Proof.Machine.execHandoverAtTbs s
  | .ringUbankStart => Sys2Proof.Machine.execRingUbankStart s
  | .oreldWrite val => Sys2Proof.Machine.execOreldWrite val s
  | .orelNAssert => Sys2Proof.Machine.execOrelNAssert s
  | .orelNRelease => Sys2Proof.Machine.execOrelNRelease s
  | .powerStateRequest image => Sys2Proof.Machine.execPowerStateRequest image s
  | .powerEntryComplete => Sys2Proof.Machine.execPowerEntryComplete s
  | .wakeRequest src => Sys2Proof.Machine.execWakeRequest src s
  | .powerExitComplete => Sys2Proof.Machine.execPowerExitComplete s
  | .aonTimerExpire => Sys2Proof.Machine.execAonTimerExpire s
  | .powerOnReset => Sys2Proof.Machine.execPowerOnReset s
  | .undervoltageReset rail => Sys2Proof.Machine.execUndervoltageReset rail s
  | .resetPin => Sys2Proof.Machine.execResetPin s
  | .softwareReset => Sys2Proof.Machine.execSoftwareReset s
  | .debugReset => Sys2Proof.Machine.execDebugReset s
  | .startupSequence step => Sys2Proof.Machine.execStartupSequence step s
  | .pllLock pll => Sys2Proof.Machine.execPllLock pll s
  | .railWindowViolation rail => Sys2Proof.Machine.execRailWindowViolation rail s
  | .vsupLowWarning => Sys2Proof.Machine.execVsupLowWarning s
  | .currentLimit => Sys2Proof.Machine.execCurrentLimit s
  | .pllsLossOfLock => Sys2Proof.Machine.execPllsLossOfLock s
  | .plltLossOfLock => Sys2Proof.Machine.execPlltLossOfLock s
  | .angleDomainResetRelease => Sys2Proof.Machine.execAngleDomainResetRelease s
  | .pllaLossOfLock => Sys2Proof.Machine.execPllaLossOfLock s
  | .crystalLoss => Sys2Proof.Machine.execCrystalLoss s
  | .crystalHoldoverExpire => Sys2Proof.Machine.execCrystalHoldoverExpire s
  | .mclkOutOfRange => Sys2Proof.Machine.execMclkOutOfRange s
  | .aonclkOutOfRange => Sys2Proof.Machine.execAonclkOutOfRange s
  | .pspiListStart p => Sys2Proof.Machine.execPspiListStart p s
  | .pspiListDone p => Sys2Proof.Machine.execPspiListDone p s
  | .sentMessageReceive p msg => Sys2Proof.Machine.execSentMessageReceive p msg s
  | .i2cBusStuck => Sys2Proof.Machine.execI2cBusStuck s
  | .ospiXipSuspend => Sys2Proof.Machine.execOspiXipSuspend s
  | .traceOverflow discarded => Sys2Proof.Machine.execTraceOverflow discarded s
  | .jtagTapReset => Sys2Proof.Machine.execJtagTapReset s
  | .failedReadAccess mid addr size => Sys2Proof.Machine.execFailedReadAccess mid addr size s
  | .memoryBitError addr uncorrectable => Sys2Proof.Machine.execMemoryBitError addr uncorrectable s
  | .vsupRampThreshold mv => Sys2Proof.Machine.execVsupRampThreshold mv s
  | .clockRestored clk => Sys2Proof.Machine.execClockRestored clk s
  | .debugHalt core => Sys2Proof.Machine.execDebugHalt core s
  | .debugStep core word => Sys2Proof.Machine.execDebugStep core word s
  | .dbgChallengeExpiry => Sys2Proof.Machine.execDbgChallengeExpiry s
  | .verifyJobFinal job => Sys2Proof.Machine.execVerifyJobFinal job s
  | .ethFrameTransmit p => Sys2Proof.Machine.execEthFrameTransmit p s
  | .canFrameTransmit p => Sys2Proof.Machine.execCanFrameTransmit p s

end Sys2Proof.Machine
end

