-- ==== Sys2Proof/Machine/Tick.lean ====
section
/-! DEFINITION. What happens in one tk with no command (R6, R7, R145, R238, R361). -/

namespace Sys2Proof.Machine

/-- What the hardware and PERC do of themselves in a tk: an output unit takes the safe state that is due after a fault (R145), an angle
trigger waits for synchronisation (R212), a loop enters the first phase of a start it has accepted (R154), the target of a handover drives
(R386), the command path takes the requests that have come (R238, R239, R245), PERC goes on with the activations under way (R361). -/
def unaided (s : State) : State :=
  updPoll (requestsTake (bif s.angleRuns then handoversDone (entersDue (drains (safes (hadcAims s)))) else s))

/-- One tk passes with no command (R6, R7): TB advances while the angle domain runs. An edge of a comparator reaches its latch at the end
of its tk, after the clears of that tk (R14, R222), PERC takes the reset for an error in its memory (R350), the reply to OUTEN_SET shows
the bits as its tk has left them (R261), and what the trackers then publish is what a sequencer sees in the next tk (R20).
DESIGN CHOICE (log entry 1): this is what an empty queue does; every other event that time or an input brings about is a command. -/
def tick (s0 : State) : State :=
  let s := lateReplies (fun _ => true) (memoryTrap (cmpLatchesDue s0))
  let t := { s with clock := s.clock + 1 }
  State.settle (unaided (bif s.angleRuns then
    boundary (s.now + 1) s { t with tb := s.tb + 1, published := (List.range 4).map (abusNow s) } else t))

end Sys2Proof.Machine
end

