-- ==== Sys2Proof/Safety.lean ====
section
/-! DEFINITION. What the statements speak of: well-formed memory, interrupt sources that have taken effect, and the conditions under
which a command of each family takes its effect. -/

namespace Sys2Proof.Machine

/-- The canonical form of memory: addresses strictly rising, no listed byte equal to what an unlisted address reads as. -/
def Memory.wf (m : List Host.Cell) : Bool := tableWf memDefault m

/-- Source `n` is enabled, pending, active (R284). -/
def State.enabled (s : State) (n : Nat) : Bool := bitAt (s.rdn (Reg.IRQC_ENSET (n / 32))) (n % 32)
def State.isPending (s : State) (n : Nat) : Bool := bitAt (s.rdn (Reg.IRQC_PNDSET (n / 32))) (n % 32)
def State.isActive (s : State) (n : Nat) : Bool := bitAt (s.rdn (Reg.IRQC_ACTV (n / 32))) (n % 32)

/-- The address is none of the eight pending words of the interrupt controller, which every command may change (R284). -/
def notPending (a : Nat) : Bool := (List.range 8).all fun w => a != Reg.IRQC_PNDSET w

/-- Every source that is raised and enabled is pending or active (R284), and the requests that stand on their fallback are those that
R291 moves there. -/
def Settled (s : State) : Prop :=
  (∀ n, n < 256 → levelOf s n = true → s.enabled n = true → s.isPending n = true ∨ s.isActive n = true) ∧
    ∀ n, n ∈ s.moved → s.isPending n = true

/-- Master `mid` issues requests, and the access tables grant it the access at `a`; a read by the debug port has its effects only with
side-effect inhibit clear (R25, R299, R310). -/
def Granted (s : State) (mid a : Nat) (write : Bool) : Prop :=
  issues s mid = true ∧ actAllows s mid a write = true ∧ (mid = 20 → s.power.inhibit = false)

/-- The angle domain runs, and tracker `n` acts on its own input: it does not follow a ring master (R390, R407). -/
def TrackerRuns (s : State) (n : Nat) : Prop :=
  s.angleRuns = true ∧ s.ring.follows.find? (fun p => p.1 == n) = none

/-- Sequencer `n` starts an instruction: the angle domain runs, the sequencer is RUNNING and waits for nothing, and the microcode word
at its PC reads without an uncorrectable error (R137, R142). -/
def EsqFetches (s : State) (n : Nat) : Prop :=
  s.angleRuns = true ∧ esqReady s n = true ∧ s.ecc.contains (ucodeAddr s n) = false

/-- Core `n` runs in the RUN power state and may fetch the instruction `w` at its pc, of which four bytes may reach into the next word
of memory; `t` is the state after the fetch (R269, R275, R299). -/
def CoreFetches (s : State) (n : Nat) (w : Word) (t : State) : Prop :=
  targetPower s n = 0 ∧ fetchInstr n (s.core n).pc.toNat w s = (none, t) ∧ coreRuns t n = true

/-- PERC firmware runs and has its clock: what it does by itself takes effect (R352, R397). -/
def PercActs (s : State) : Prop := s.perc.running = true ∧ s.get Fields.CPR_PWRSTAT_STATE < 3

/-- What waits for a lock is one of the 64 MIDs. -/
def LocksNamed (s : State) : Prop := ∀ l x, x ∈ (s.lock l).waiters → x < 64

/-- What the units and the loops hold names one of the 1024 events, and no calibration image waits to be applied when a loop is idle
(R103, R364): no step of the output units then writes a register that belongs to something else. -/
def EventsNamed (s : State) : Prop :=
  s.update.calib = [] ∧ (∀ c, (∀ x ∈ (s.unit c).edges, x.ev < 1024) ∧ ∀ p, (s.unit c).pulse = some p → p.ev < 1024) ∧
    ∀ k m, (s.loop k).msg = some m → m.ev < 1024

/-! ### Requests (R226 to R247) -/

/-- Request `q` arrives in state `s`, alone and to be executed at once, on the state `u`. Once the requests before it are taken (R244,
R245), its requester is heard, its length agrees, the checks of R240 pass (a session keeps SEQ and tag), and the angle domain is not in
reset where the opcode acts on it. A fast request then runs; a slow one finds PERC running with nothing before it, and runs behind the fast
requests of the same cycle. -/
def Accepted (q : Req) (s u : State) : Prop :=
  let t := requestsBefore q.src s
  listening t q.src = true ∧ lengthAgrees q = true ∧ bitAt q.flg.toNat 7 = false ∧ isChained q = false ∧ isStaged q = false ∧
    chainOf t q.src = none ∧ (frontCheck q t).1 = .pass ∧ (t.power.angleReset = true → opcAngle q.opc.toNat = false) ∧
    (isFast q = true ∧ u = (frontCheck q t).2 ∨
      isFast q = false ∧ t.perc.running = true ∧ t.gnorum.slow = [] ∧ u = requestsTake (frontCheck q t).2 ∧
        (u.power.angleReset = true → opcAngle q.opc.toNat = false))

/-- The command `c` gives request `q` the answer `a`, and leaves `t` before the reply is sent (R228, R247). -/
def Replies (c : Instr) (q : Req) (s : State) (a : Ans) (t : State) : Prop :=
  exec c s = .next (State.settle (if isFast q then afterReply a (answer q a t) else updPoll (afterReply a (answer q a t))))

/-- The reply is OK with the words `ws` from reply word 1 on. -/
def RepliesOk (c : Instr) (q : Req) (s : State) (ws : List Word) (t : State) : Prop := Replies c q s { status := 0, words := ws } t

/-- The reply is of the status `st` alone; a status that fails leaves `t` as it was (R247). -/
def RepliesStatus (c : Instr) (q : Req) (s : State) (st : Nat) (t : State) : Prop := Replies c q s { status := st } t

/-- The images `imgs`, from parameter word `i` on, are written in order; where none is refused the reply holds the registers `reply` as
they then read, and otherwise the status that `st` gives for the refused word, with its index (R253). -/
def RepliesWrites (c : Instr) (q : Req) (s u : State) (i : Nat) (imgs : List (Nat × Nat)) (reply : List Nat) (st : Nat → Nat) : Prop :=
  match writeImages u i imgs u with
  | .inr t => RepliesOk c q s (peeks t reply) t
  | .inl k => Replies c q s { status := st k.1, detail := k.1 } k.2

/-- Parameter words `i`, `i + 1`, … are written as images of the registers `regs` (R253). -/
def RepliesImages (c : Instr) (q : Req) (s u : State) (i : Nat) (regs reply : List Nat) (st : Nat → Nat) : Prop :=
  RepliesWrites c q s u i (q.images i regs) reply st

/-- Each of these commands, its request accepted with the opcode beside it, completes: it gives the answer that the operation of its
opcode gives on the state the checks leave, and the effect goes with it (R228, R247). -/
def AllAnswered (r : Req) (s u : State) (l : List (Instr × BitVec 8)) : Prop :=
  ∀ p ∈ l, Accepted { r with opc := p.2 } s u →
    Replies p.1 { r with opc := p.2 } s (runReq { r with opc := p.2 } u).1 (runReq { r with opc := p.2 } u).2

/-- A long-running opcode takes the lowest free job `j`, answers STARTED with its number and does `go j`; with all in use it answers
NO_SLOT (R252). -/
def RepliesJob (c : Instr) (q : Req) (s u : State) (go : Nat → State → State) : Prop :=
  (∀ j, freeJob u = some j → Replies c q s { status := 1, detail := j } (go j (startJob j q.src q.opc q.u u))) ∧
    (freeJob u = none → RepliesStatus c q s 0x0504 u)

end Sys2Proof.Machine
end

