-- ==== Sys2Proof/Certificates/Slice0/Obligations.lean ====
section
/-! DEFINITION. The statements about the block: what a step does, what each command does, what every step keeps. In a statement about a
command, `State.settle` is the last part of every command's effect: the sources that the command has raised become pending, nothing
else changes. -/

open Sys2Proof Sys2Proof.Machine Sys2Proof.Machine.Fields

/-! ### The step, the reset, the interrupt sources -/

/-- With `c` at the front of the queue, a step is `exec` of `c` on the state with the queue's rest: commands are taken first in, first
out. -/
def Obligations.StepTakesFrontCommand : Prop :=
  ∀ (s : State) (c : Instr) (rest : List Instr), s.pending = c :: rest →
    step s = exec c { s with pending := rest }

/-- With nothing queued and nothing in the block that waits for a tk to pass, one tk passes: the clock counts it; while the angle domain
runs TB counts it and the published values are kept for the next tk, and for the frame of a boundary that comes; and nothing else changes
but what raised sources make pending. That an empty queue lets a tk pass is the model's choice (log entry 1). -/
def Obligations.IdleStepIsOneTick : Prop :=
  ∀ s : State, s.pending = [] → (∀ b : Fin 5, (s.queue (2 * b)).items = []) → (∀ k, (s.port k).rx = []) → s.gnorum.late = [] →
    s.perc.memBad = false → s.update.active = [] → s.ring.handing = [] → (∀ p ∈ s.units, p.2.drain = false ∧ p.2.safeAt = none) →
    (∀ p ∈ s.loops, p.2.enterAt = none) → (∀ n, (s.cmp n).edges = []) →
    (∀ q : Fin 4, s.get (HADC_SEQCFG_TTYP q) = 4 → synced (syncState s (s.get (HADC_SEQANG_TRK q))) = true) →
    step s = .next (State.settle (if s.angleRuns = true then
      boundary (s.now + 1) s { s with clock := s.clock + 1, tb := s.tb + 1, published := (List.range 4).map (abusNow s) }
    else { s with clock := s.clock + 1 }))

/-- What reset leaves, where the register tables give it. -/
def Obligations.ResetValues : Prop :=
  State.reset.tb = 0 ∧ State.reset.get CPR_RSTCAUSE_POR = 1 ∧ State.reset.get KTL_CFG_HBT = 50 ∧
  State.reset.rd Reg.SCH_OUTENL = 0 ∧ State.reset.rd Reg.SCH_OUTENH = 0 ∧
  (∀ n : Fin 4, State.reset.get (AT_SSTAT_STATE n) = 0 ∧ State.reset.rd (Reg.AT_GSPD n) = 0x35AFE5 ∧
    State.reset.get (AT_PSTAT_MODE n) = 1) ∧
  (∀ n : Fin 8, State.reset.get (ESQ_OWN_GRP n) = n ∧ State.reset.get (ESQ_EVRNG_BASE n) = 128 * n ∧
    State.reset.get (ESQ_EVRNG_CNT n) = 128) ∧
  (∀ p : Fin 2, State.reset.get (CPR_PAIRSTAT_STATE p) = 0 ∧ State.reset.get (CPR_PAIRCTL_HBT p) = 10) ∧
  (∀ n : Fin 256, State.reset.get (IRQC_SRCCFG_TARGET n) = 0) ∧
  ∀ n : Fin 16, (State.reset.inp n).queue = []

/-- The reset state satisfies the invariant of `SettledKept`. -/
def Obligations.ResetSettled : Prop := Settled State.reset

/-- Whatever the command, no raised source is lost: after a step every source that is raised and enabled is pending or active, and the
requests moved to a fallback are pending ones. -/
def Obligations.SettledKept : Prop :=
  ∀ s s' : State, Settled s → step s = .next s' → Settled s'

/-- The whole of R333. -/
def Obligations.QueueSource : Prop :=
  ∀ (s : State) (q : Fin 32), levelOf s (152 + q) = true ↔
    (s.get (Q_CFG2_IE q) = 1 ∧ s.get (Q_CFG2_WM q) ≠ 0 ∧ s.get (Q_CFG2_WM q) ≤ (s.queue q).items.length) ∨
      (s.get (Q_CFG2_EIE q) = 1 ∧ ∃ i, 28 ≤ i ∧ i ≤ 31 ∧ bitAt (s.rdn (Reg.Q_STAT q)) i = true)

/-- The whole of R326; state 4 is ERROR. -/
def Obligations.DmaSource : Prop :=
  ∀ (s : State) (n : Fin 16), levelOf s (136 + n) = true ↔
    (s.get (DMA_STAT_DONEF n) = 1 ∧ s.get (DMA_CTL_DIE n) = 1) ∨
      (s.get (DMA_CTL_EIE n) = 1 ∧ (s.get (DMA_STAT_STATE n) = 4 ∨ s.get (DMA_STAT_WBERR n) = 1))

/-- The whole of R148; FLT holds its flags in bits 7 to 1, and a sequencer owns a group while OWN.VALID is 1. -/
def Obligations.EsqSources : Prop :=
  ∀ (s : State) (n : Fin 8),
    (levelOf s (40 + 2 * n) = true ↔
      (∃ i, 1 ≤ i ∧ i ≤ 7 ∧ bitAt (s.rdn (Reg.ESQ_FLT n)) i = true) ∨
        (s.get (ESQ_STAT_SWI n) = 1 ∧ s.get (ESQ_INTEN_SWIEN n) = 1)) ∧
    (levelOf s (41 + 2 * n) = true ↔
      s.get (ESQ_OWN_VALID n) = 1 ∧
        ∃ i b, i < 8 ∧ b < 8 ∧ bitAt (s.rdn (Reg.SCH_CHSTAT (8 * s.get (ESQ_OWN_GRP n) + i))) (b + 1) = true ∧
          bitAt (s.get (ESQ_INTEN_CHF n)) b = true)

/-! ### The bus: reads, writes, errors (R11, R15, R41, R60, R100, R199, R215, R295, R296, R301) -/

/-- A granted word write to a shared SRAM bank that is online stores the word and nothing else (REGISTER_WRITE). -/
def Obligations.SramWordWrite : Prop :=
  ∀ (s : State) (mid : Fin 64) (addr v : Word),
    0x10000000 ≤ addr.toNat → addr.toNat < 0x10600000 → addr.toNat % 4 = 0 →
    bankOff s addr.toNat = false → Granted s mid addr.toNat true →
    let u : State := { s.putWord addr.toNat v with
      ecc := s.ecc.filter (· != addr.toNat), soft := s.soft.filter (· != addr.toNat) }
    exec (.registerWrite mid addr .word v) s = .next u.settle ∧ u.word addr.toNat = v ∧
      ∀ b, b < addr.toNat ∨ addr.toNat + 4 ≤ b → u.byte b = s.byte b

/-- What a bus error records, and which source it raises: 253 for an uncorrectable word (cause 3), else 254.
FAILED_READ_ACCESS and REGISTER_WRITE at an address where nothing stands (R294, R295). -/
def Obligations.BusErrors : Prop :=
  (∀ (s : State) (mid : Fin 64) (a c : Nat) (w : Bool), a < 2 ^ 32 → c < 16 →
    let t := recordError mid a c w s
    let src := if c = 3 then 253 else 254
    (s.get ACT_BERR0_VALID = 0 → t.get ACT_BERR0_VALID = 1 ∧ t.get ACT_BERR0_WRITE = w.toNat ∧ t.get ACT_BERR0_MID = mid ∧
      t.get ACT_BERR0_CAUSE = c ∧ t.rdn Reg.ACT_BERR1 = a ∧ t.get ACT_BERR0_CNT = s.get ACT_BERR0_CNT) ∧
    (s.get ACT_BERR0_VALID = 1 → t.rd Reg.ACT_BERR1 = s.rd Reg.ACT_BERR1 ∧ t.get ACT_BERR0_MID = s.get ACT_BERR0_MID ∧
      t.get ACT_BERR0_CNT = min 65535 (s.get ACT_BERR0_CNT + 1)) ∧
    (∀ r, r ≠ Reg.ACT_BERR0 → r ≠ Reg.ACT_BERR1 → notPending r = true → t.rd r = s.rd r) ∧
    t.mem = s.mem ∧ (s.enabled src = true → s.isActive src = false → t.isPending src = true)) ∧
  (∀ (s : State) (mid : Fin 64) (addr v : Word) (size : AccSize),
    issues s mid = true → busAddr mid addr.toNat = addr.toNat → placeOf mid addr.toNat = .unmapped →
    exec (.registerWrite mid addr size v) s = .next (State.settle (recordError mid addr.toNat 1 true s)) ∧
    exec (.failedReadAccess mid addr size) s =
      .next (State.settle { recordError mid addr.toNat 1 false s with resp := { mid := mid, data := 0, err := true } }))

/-- The whole of R11, with what `BusErrors` says of `recordError`: the record of cause 2 is the only effect of the write; the read
is answered with an error response. -/
def Obligations.RegisterTransferSize : Prop :=
  ∀ (s : State) (mid : Fin 64) (addr v : Word) (size : AccSize),
    issues s mid = true → placeOf mid addr.toNat = .words → (size ≠ .word ∨ addr.toNat % 4 ≠ 0) →
    exec (.registerWrite mid addr size v) s = .next (State.settle (recordError mid addr.toNat 2 true s)) ∧
    exec (.failedReadAccess mid addr size) s =
      .next (State.settle { recordError mid addr.toNat 2 false s with resp := { mid := mid, data := 0, err := true } })

/-- The reads that have an effect, for a master that the access tables grant. -/
def Obligations.ReadsWithEffect : Prop :=
  (∀ (s : State) (mid : Fin 64) (n : Fin 16), Granted s mid (Reg.TI_STAT n) false →
    exec (.rcFieldRead mid (BitVec.ofNat 32 (Reg.TI_STAT n))) s = .next (State.settle
      { s.wrn (Reg.TI_STAT n) (s.rdn (Reg.TI_STAT n) % 2 ^ 16) with
        resp := { mid := mid, data := s.rd (Reg.TI_STAT n), err := false } })) ∧
  (∀ (s : State) (mid : Fin 64) (n : Fin 4), Granted s mid (Reg.AT_PHASEL n) false →
    let ph := (trackerAt s n s.now).phase
    exec (.lowWordRead mid (BitVec.ofNat 32 (Reg.AT_PHASEL n))) s = .next (State.settle
      { putHold mid (Reg.AT_PHASEH n) (BitVec.ofNat 32 (ph / 2 ^ 32)) s with
        resp := { mid := mid, data := BitVec.ofNat 32 ph, err := false } })) ∧
  (∀ (s : State) (mid : Fin 64) (n : Fin 16) (e : CapEntry) (rest : List CapEntry),
    Granted s mid (Reg.CAP_TSL n) false → s.get (TI_CFG_DEST n) = 0 → (s.inp n).queue = e :: rest →
    ∃ t, exec (.capTslRead mid n) s = .next t ∧ t.resp = { mid := mid, data := BitVec.ofNat 32 e.ts, err := false } ∧
      (∀ m, m ≠ n.val → t.inp m = s.inp m) ∧
      findAt (fun _ => none) (holdKey mid (Reg.CAP_TSH n)) t.hold = some (BitVec.ofNat 32 (e.ts / 2 ^ 32)) ∧
      findAt (fun _ => none) (holdKey mid (Reg.CAP_INFO n)) t.hold = some (infoWord e) ∧
      (∀ r, r ≠ Reg.CAP_STAT n → notPending r = true → t.rd r = s.rd r) ∧ t.mem = s.mem ∧
      ((∀ d, (s.inp n).lateDrop = some d → d.tb ≠ s.now) → (t.inp n).queue = rest ∧ t.rd (Reg.CAP_STAT n) = s.rd (Reg.CAP_STAT n)) ∧
      ∀ d, (s.inp n).lateDrop = some d → d.tb = s.now → (t.inp n).queue = rest ++ [{ d.entry with ovrb := d.dropped }] ∧
        (d.more = 0 → t.flag (CAP_STAT_OVR n) = d.ovr)) ∧
  (∀ (s : State) (mid : Fin 64) (t : Fin 32) (x : Fin 2) (v : Word) (rest : List Word),
    Granted s mid (Reg.GPTt_CAP t x) false → ((s.gpt t).chan x).queue = v :: rest →
    let c := (s.gpt t).chan x
    ((∀ d, c.lateDrop = some d → d.tb ≠ s.now) → exec (.gptCaptureRead mid t x) s = .next (State.settle
      { s.putGpt t ((s.gpt t).putChan x { c with queue := rest }) with resp := { mid := mid, data := v, err := false } })) ∧
    ∀ d, c.lateDrop = some d → d.tb = s.now → ∃ u, exec (.gptCaptureRead mid t x) s = .next u ∧
      u.resp = { mid := mid, data := v, err := false } ∧ ((u.gpt t).chan x).queue = rest ++ [d.val] ∧
      u.flag (GPTt_CSTAT_OVR t x) = d.ovr ∧ u.get (GPTt_CSTAT_DROP t x) = d.count % 2 ^ 16 ∧
      (∀ r, r ≠ Reg.GPTt_CSTAT t x → notPending r = true → u.rd r = s.rd r) ∧ u.mem = s.mem) ∧
  (∀ (s : State) (mid : Fin 64) (j : Fin 32), Granted s mid (Reg.HADC_RES j) false →
    exec (.resRead mid j) s = .next (State.settle
      { s.set (HADC_RES_NEW j) 0 with resp := { mid := mid, data := s.rd (Reg.HADC_RES j), err := false } }))

/-- Bus writes of tooth table entries (R41) and work values (R100) by a master that the access tables allow, in the running angle
domain, and an error that arises in a memory word (R296). -/
def Obligations.AngleTableWrites : Prop :=
  (∀ (s : State) (mid : Fin 64) (e : Fin 8192) (v : Word), s.angleRuns = true →
    Granted s mid (toothAddr e + 4) true → entryInUse s e = false →
    exec (.toothEntryWrite mid e true v) s = .next (State.settle
      { s.wr (toothAddr e + 4) v with ecc := s.ecc.filter (· != toothAddr e + 4) })) ∧
  (∀ (s : State) (mid : Fin 64) (e : Fin 8192) (v : Word), s.angleRuns = true →
    Granted s mid (toothAddr e) true → entryInUse s e = true →
    exec (.toothEntryWrite mid e false v) s = .next (State.settle (recordError mid (toothAddr e) 5 true s))) ∧
  (∀ (s : State) (mid : Fin 64) (n : Fin 4) (c : Fin 24) (v : Word), s.angleRuns = true → s.ring.follows = [] →
    mid = 15 ∨ mid = 16 → Granted s mid (Reg.AT_WCYL n c) true →
    ∃ t, exec (.wcylWrite mid n c v) s = .next t ∧ t.rd (Reg.AT_WCYL n c) = v ∧
      bitAt (t.get (AT_WVAL_VALID n)) c = true ∧ findAt (fun _ => 0) c (t.trk n).ages = 0 ∧
      (∀ d : Fin 24, d ≠ c → t.rd (Reg.AT_WCYL n d) = s.rd (Reg.AT_WCYL n d) ∧
        bitAt (t.get (AT_WVAL_VALID n)) d = bitAt (s.get (AT_WVAL_VALID n)) d) ∧
      (∀ r, r ≠ Reg.AT_WCYL n c → r ≠ Reg.AT_WVAL n → notPending r = true → t.rd r = s.rd r) ∧ t.mem = s.mem) ∧
  (∀ (s : State) (addr : Word), (∀ w ∈ eccWords (addr.toNat / 4 * 4), s.ecc.contains w = false) →
    exec (.memoryBitError (.memory addr) true) s = .next (State.settle { s with ecc := s.ecc ++ eccWords (addr.toNat / 4 * 4) })) ∧
  (∀ (s : State) (addr : Word), (sramBank (addr.toNat / 4 * 4)).isSome = true ∨ (tcmWindow (addr.toNat / 4 * 4)).isSome = true →
    s.soft.contains (addr.toNat / 4 * 4) = false →
    exec (.memoryBitError (.memory addr) false) s = .next (State.settle { s with soft := s.soft ++ [addr.toNat / 4 * 4] })) ∧
  (∀ (s : State) (q : Fin 32) (i : Nat) (x : QItem) (u : Bool), (s.queue q).items[i]? = some x →
    ∃ t, exec (.memoryBitError (.item q i) u) s = .next t ∧
      (t.queue q).items[i]? = some
        (if queueLarge s q = true then { x with poison := true } else if u = true then { x with ue := true } else { x with ce := true }) ∧
      t.mem = s.mem) ∧
  (∀ (s : State) (n : Fin 4) (addr : Word), (s.core n).ilines.contains (addr.toNat / 4 * 4 / 64) = true →
    ∃ t, exec (.memoryBitError (.icache n addr) true) s = .next t ∧ (t.core n).ibad.contains (addr.toNat / 4 * 4) = true ∧ t.mem = s.mem)

/-! ### Timed inputs (R45 to R61) -/

/-- TI_PIN_EDGE, FILTERED_EDGE (of an EDGE input) and DIRPW_WIDTH_SATURATE, in the running angle domain. -/
def Obligations.InputEdges : Prop :=
  (∀ (s : State) (n : Fin 16) (level : Bool), s.angleRuns = true → s.flag (TI_CFG_EN n) = true → s.get (TI_CFG_MODE n) ≠ 1 →
    (s.inp n).pin ≠ level →
    exec (.tiPinEdge n level) s = .next (State.settle (s.putInp n { filterAt s n s.now with pin := level, pinTb := s.now }))) ∧
  (∀ (s : State) (n : Fin 16) (ts : Nat) (level : Bool) (rest : List (Nat × Bool)), s.angleRuns = true → s.get (TI_CFG_EN n) = 1 →
    s.get (TI_CFG_MODE n) = 0 → (s.get (TI_CFG_POL n) = 2 ∨ (s.get (TI_CFG_POL n) = 0 ↔ level = true)) →
    (s.inp n).passed = (ts, level) :: rest → ts + captureDelay s n ≤ s.now →
    (∀ t0, (s.inp n).lastPass = some t0 → t0 + s.get (TI_FLT_BLNK (filterOwner s n)) ≤ ts) →
    (s.inp n).queue.length < 4 → s.get (TI_CFG_IDXEN n) = 0 →
    let e : CapEntry := { ts := ts, ovrb := (s.inp n).dropped, index := false, dir := false, dirv := false, level := level, wsat := false,
                          width := 0 }
    ∃ t, exec (.filteredEdge n) s = .next t ∧
      t.inp n = { ({ s.inp n with passed := rest }).remember ts level with lastPass := some ts, queue := (s.inp n).queue ++ [e], stored := some e, dropped := false } ∧
      (∀ m, m ≠ n.val → t.inp m = s.inp m) ∧ t.get (TI_STAT_LVL n) = level.toNat ∧
      (∀ r, r ≠ Reg.TI_STAT n → notPending r = true → (r < 0x40040000 ∨ 0x40050000 ≤ r) → t.rd r = s.rd r) ∧ t.mem = s.mem) ∧
  (∀ (s : State) (n : Fin 16) (ts : Nat), s.angleRuns = true → s.get (TI_CFG_MODE n) = 3 → s.get (TI_CFG_EN n) = 1 →
    (s.inp n).pulse = some ts → (s.inp n).pulseSat = false → ts + 0xFFFF + captureDelay s n ≤ s.now →
    (s.inp n).queue.length < 4 →
    ∃ t e, exec (.dirpwWidthSaturate n) s = .next t ∧ e.ts = ts ∧ e.wsat = true ∧ e.dirv = false ∧ e.width = 0xFFFF ∧
      e.ovrb = (s.inp n).dropped ∧
      t.inp n = { s.inp n with pulseSat := true, queue := (s.inp n).queue ++ [e], stored := some e, dropped := false } ∧
      (∀ m, m ≠ n.val → t.inp m = s.inp m) ∧ (∀ r, notPending r = true → t.rd r = s.rd r) ∧ t.mem = s.mem)

/-- INPUT_ENABLE and INPUT_DISABLE in the running angle domain.
FILTERED_EDGE with a full queue. -/
def Obligations.InputQueues : Prop :=
  ((∀ (s : State) (n : Fin 16), s.angleRuns = true → s.get (TI_CFG_EN n) = 0 → s.get (TI_CFG_LOCK n) = 0 → inputRefused s n = false →
    s.get (TI_CFG_MODE n) ≠ 1 →
    let t := (((s.setb (TI_CFG_EN n) true).setb (CAP_STAT_OVR n) false).setb (TI_STAT_LVL n) (s.inp n).pin).putInp n
      { (s.inp n).restarted s.now with
        queue := [], stored := none, dropped := false, pulse := none, pulseSat := false, lateDrop := none, timedOut := none }
    exec (.inputEnable n) s = .next (State.settle (if s.get (TI_CFG_MODE n) = 2 then quadStart t n else t))) ∧
  (∀ (s : State) (n : Fin 16), s.angleRuns = true → s.get (TI_CFG_EN n) = 0 → s.get (TI_CFG_LOCK n) = 0 → inputRefused s n = true →
    exec (.inputEnable n) s = .next (State.settle (inputRefuse s n))) ∧
  (∀ (s : State) (n : Fin 16), s.angleRuns = true → s.get (TI_CFG_EN n) = 1 → s.get (TI_CFG_LOCK n) = 0 → 4 ≤ n.val →
    let t := (s.setb (TI_CFG_EN n) false).putInp n
      { s.inp n with run := none, passed := [], pulse := none, pulseSat := false, vrFrom := none }
    exec (.inputDisable n) s = .next (State.settle (if s.get (TI_CFG_MODE n) = 2 then quadStop t n else t)))) ∧
  (∀ (s : State) (n : Fin 16), s.angleRuns = true → filterRuns s n = false →
    exec (.filteredEdge n) s = .next s.settle) ∧
  (∀ (s : State) (n : Fin 16) (ts : Nat) (level : Bool) (rest : List (Nat × Bool)), s.angleRuns = true → s.get (TI_CFG_EN n) = 1 →
    s.get (TI_CFG_MODE n) = 0 → (s.get (TI_CFG_POL n) = 2 ∨ (s.get (TI_CFG_POL n) = 0 ↔ level = true)) →
    (s.inp n).passed = (ts, level) :: rest → ts + captureDelay s n ≤ s.now → (s.inp n).lastPass = none →
    (s.inp n).queue.length = 4 →
    ∃ t, exec (.filteredEdge n) s = .next t ∧ (t.inp n).queue = (s.inp n).queue ∧ (t.inp n).dropped = true ∧
      t.get (CAP_STAT_OVR n) = 1 ∧ t.get (CAP_STAT_DROP n) = min 65535 (s.get (CAP_STAT_DROP n) + 1) ∧
      (∀ m, m ≠ n.val → t.inp m = s.inp m) ∧
      (∀ r, r ≠ Reg.TI_STAT n → r ≠ Reg.CAP_STAT n → notPending r = true → (r < 0x40040000 ∨ 0x40050000 ≤ r) → t.rd r = s.rd r) ∧
      t.mem = s.mem)

/-- VR_GENUINE_CROSSING, VR_ZERO_CROSSING and VR_TIMEOUT; after a change of THR the comparator is resolved against it. -/
def Obligations.VrFrontEnds : Prop :=
  (∀ (s : State) (n : Fin 4) (b : Bool), s.angleRuns = true →
    let rearms := b = true ∧ (s.inp n).rearmed = false ∧ s.get (TI_VRCFG_INV n) = 0 ∧
      s.get (TI_VRCFG_ZHYS n) ≤ 2 * s.get (TI_VRSTAT_THR n)
    let v := if rearms then vrRearm s n else s
    let st := s.get (TI_VRSTAT_STATE n)
    let cnt := s.get (TI_VRSTAT_PCNT n)
    (cmpPowered s n = false ∨ cmpVr s n = false →
      (st = 1 → cnt = 0 → exec (.vrGenuineCrossing n b) s = .next (State.settle (v.set (TI_VRSTAT_PCNT n) 1))) ∧
      (st = 1 → cnt ≠ 0 → exec (.vrGenuineCrossing n b) s = .next (State.settle
        (((v.set (TI_VRSTAT_PCNT n) 2).set (TI_VRSTAT_STATE n) 2).putInp n { v.inp n with armed := false }))) ∧
      (st = 2 → b = true → exec (.vrGenuineCrossing n b) s = .next (State.settle (v.putInp n { v.inp n with armed := true })))) ∧
    (cmpPowered s n = true → cmpVr s n = true →
      ((s.cmp n).fresh = true ∨ s.flag (CMP_STAT_OUT n) ≠ b ∨ s.get (CMP_STAT_INBAND n) = 1 →
        ∃ t, exec (.vrGenuineCrossing n b) s = .next t ∧ t.flag (CMP_STAT_OUT n) = b ∧ t.mem = s.mem ∧
          (st = 1 → cnt = 0 → t.get (TI_VRSTAT_PCNT n) = 1 ∧ t.get (TI_VRSTAT_STATE n) = 1) ∧
          (st = 1 → cnt ≠ 0 → t.get (TI_VRSTAT_PCNT n) = 2 ∧ t.get (TI_VRSTAT_STATE n) = 2 ∧ (t.inp n).armed = false) ∧
          (st = 2 → b = true → (t.inp n).armed = true) ∧ (∀ m, m ≠ n.val → t.inp m = s.inp m) ∧
          ∀ r, r ≠ Reg.TI_VRSTAT n → r ≠ Reg.CMP_STAT n → notPending r = true → t.rd r = s.rd r) ∧
      ((s.cmp n).fresh = false → s.flag (CMP_STAT_OUT n) = b → s.get (CMP_STAT_INBAND n) = 0 →
        exec (.vrGenuineCrossing n b) s = .next v.settle))) ∧
  (∀ (s : State) (n : Fin 4) (peak : BitVec 16), s.angleRuns = true → s.get (TI_VRSTAT_STATE n) = 2 → (s.inp n).armed = true →
    (s.inp n).rearmed = true → (∀ x, (s.inp n).timedOut = some x → x.tb ≠ s.now) →
    let pk := min (max (s.inp n).peak peak.toNat) 255
    let thr := max (max (s.get (TI_VRCFG_THMIN n)) (s.get (TI_VRSTAT_THR n) / 2)) ((pk * s.get (TI_VRCFG_FRAC n) + 8) / 16)
    let u := pinLevel ((s.set (TI_VRSTAT_THR n) (thr % 256)).set (TI_VRSTAT_PK n) pk) n (s.flag (TI_VRCFG_INV n))
    exec (.vrZeroCrossing n peak) s = .next (State.settle (cmpResolve n
      (u.putInp n { u.inp n with armed := false, rearmed := false, peak := 0, vrFrom := some s.now })))) ∧
  (∀ (s : State) (n : Fin 4) (peak : BitVec 16), s.angleRuns = true → (s.inp n).rearmed = false →
    exec (.vrZeroCrossing n peak) s = .next (State.settle (s.putInp n { s.inp n with peak := max (s.inp n).peak peak.toNat }))) ∧
  (∀ (s : State) (n : Fin 4) (t0 : Nat), s.angleRuns = true → s.get (TI_VRSTAT_STATE n) = 2 → (s.inp n).vrFrom = some t0 →
    s.get (TI_VRTO_VRTO n) ≠ 0 → t0 + s.get (TI_VRTO_VRTO n) * 4096 ≤ s.now →
    ∃ x : VrUndo, x.tb = s.now ∧ exec (.vrTimeout n) s = .next (State.settle (cmpResolve n
      (((s.set (TI_VRSTAT_THR n) (s.get (TI_VRCFG_ARM n))).setb (TI_VRSTAT_TOUT n) true).putInp n
        { s.inp n with vrFrom := none, peak := 0, timedOut := some x })))) ∧
  ∀ (s u : State) (n : Fin 4) (peak : BitVec 16) (t0 : Nat), s.angleRuns = true → s.get (TI_VRSTAT_STATE n) = 2 →
    (s.inp n).armed = true → (s.inp n).rearmed = true → (s.inp n).vrFrom = some t0 → s.get (TI_VRTO_VRTO n) ≠ 0 →
    t0 + s.get (TI_VRTO_VRTO n) * 4096 ≤ s.now → cmpPowered s n = false →
    exec (.vrTimeout n) s = .next u → ∃ t, exec (.vrZeroCrossing n peak) u = .next t ∧
      t.get (TI_VRSTAT_TOUT n) = s.get (TI_VRSTAT_TOUT n) ∧ t.get (TI_VRSTAT_THR n) = vrThreshold s n (min (max (s.inp n).peak peak.toNat) 255)

/-! ### Trackers (R40, R43, R62 to R102)

`TrackerRuns s n`: the angle domain runs and tracker `n` does not follow a ring master. -/

/-- TRACKER_ENABLE and WHEEL_SWITCH_REQUEST, taken and refused. -/
def Obligations.TrackerRequests : Prop :=
  (∀ (s : State) (n : Fin 4), TrackerRuns s n → s.get (AT_CTL_EN n) = 0 → rangeRefused s n (s.get (AT_WCFG_ACTSEL n)) = false →
    s.get (AT_SCFG_DIRSRC n) ≠ 2 →
    exec (.trackerEnable n) s = .next (State.settle
      ((s.setb (AT_CTL_EN n) true).putTrk n { s.trk n with edgeSeen := false, window := [] }))) ∧
  (∀ (s : State) (n : Fin 4), TrackerRuns s n → s.get (AT_CTL_EN n) = 0 → rangeRefused s n (s.get (AT_WCFG_ACTSEL n)) = true →
    exec (.trackerEnable n) s = .next (State.settle (s.setb (AT_ERRINFO_PARAM n) true))) ∧
  (∀ (s : State) (n : Fin 4), TrackerRuns s n → s.get (AT_WCFG_SWREQ n) = 0 →
    rangeRefused s n (1 - s.get (AT_WCFG_ACTSEL n)) = false → s.get (AT_SCFG_DIRSRC n) ≠ 2 →
    exec (.wheelSwitchRequest n) s = .next (State.settle
      ((s.setb (AT_WCFG_SWREQ n) true).putTrk n { s.trk n with swreqTb := s.now }))) ∧
  (∀ (s : State) (n : Fin 4), TrackerRuns s n → s.get (AT_WCFG_SWREQ n) = 0 →
    rangeRefused s n (1 - s.get (AT_WCFG_ACTSEL n)) = true →
    exec (.wheelSwitchRequest n) s = .next (State.settle (s.setb (AT_ERRINFO_PARAM n) true)))

/-- SYNC_RESTART, TRACKER_DISABLE, SYNC_DROP and TOOTH_PERIOD_STALL. -/
def Obligations.TrackerToFinder : Prop :=
  ∀ (s : State) (n : Fin 4), TrackerRuns s n →
    let there (c : Instr) (st en : Nat) : Prop := ∃ t, exec c s = .next t ∧ t.get (AT_SSTAT_STATE n) = st ∧
      t.get (AT_CTL_EN n) = en ∧ (t.trk n).phase = (trackerAt s n s.now).phase ∧
      t.get (AT_RATE_RATE n) = 0 ∧ t.get (AT_ACC_ACC n) = 0 ∧ t.get (AT_SSTAT_PHV n) = 0 ∧ t.get (AT_SSTAT_ADOPTED n) = 0 ∧
      t.get (AT_PSTAT_SUSP n) = 0 ∧ t.get (AT_PSTAT_CATCH n) = 0 ∧ t.get (AT_PSTAT_HALT n) = 0 ∧ (t.trk n).window = [] ∧
      (st = 5 → t.get (AT_SSTAT_CAUSE n) = 9 ∧ t.get (AT_SFLT_LOSTCNT n) = min 255 (s.get (AT_SFLT_LOSTCNT n) + 1)) ∧
      (s.get (AT_SSTAT_STATE n) ≠ st → t.get (AT_SSTAT_CHG n) = 1) ∧
      (∀ r, r ∉ [Reg.AT_SSTAT n, Reg.AT_SFLT n, Reg.AT_RATE n, Reg.AT_ACC n, Reg.AT_PSTAT n, Reg.AT_LSTAT n, Reg.AT_CTL n,
        Reg.PADC_STAT] → notPending r = true → t.rd r = s.rd r) ∧
      (∀ m, m ≠ n.val → t.trk m = s.trk m) ∧ t.mem = s.mem
    there (.syncRestart n) 0 (s.get (AT_CTL_EN n)) ∧
    (s.get (AT_CTL_EN n) = 1 → there (.trackerDisable n) 0 0) ∧
    (1 ≤ s.get (AT_SSTAT_STATE n) → s.get (AT_SSTAT_STATE n) ≤ 4 → there (.syncDrop n) 5 (s.get (AT_CTL_EN n))) ∧
    (saturated s n = true → s.get (AT_SSTAT_STATE n) ≠ 0 → s.get (AT_SSTAT_STATE n) ≠ 6 →
      (∀ i, sourceOf s n = some i → (s.inp i).queue = [] ∨ (s.trk n).lastPop + 0xFFFFFFFF < s.now) → there (.toothPeriodStall n) 6 1)

/-- SETPH0 and SETPH1 in SYNC360 (taken) and in SYNC720 (refused).
VIRTUAL_TOOTH in SYNC360 or SYNC720 with the conditions of R88 met. -/
def Obligations.PhaseSetAndVirtualTooth : Prop :=
  (∀ (s : State) (n : Fin 4) (b : Bool), TrackerRuns s n →
    let c : Instr := if b then .setph1 n else .setph0 n
    (s.get (AT_SSTAT_STATE n) = 3 → s.get (AT_WCFG_CYCLE n) = 0 → ∃ t, exec c s = .next t ∧ t.get (AT_SSTAT_STATE n) = 4 ∧ t.get (AT_SSTAT_PHV n) = 1 ∧
      t.get (AT_SSTAT_CHG n) = 1 ∧ (trackerAt s n s.now).phase % 2 ^ 47 = (t.trk n).phase % 2 ^ 47 ∧
      (t.trk n).phase / 2 ^ 47 = b.toNat ∧
      (∀ r, r ≠ Reg.AT_SSTAT n → notPending r = true → t.rd r = s.rd r) ∧ (∀ m, m ≠ n.val → t.trk m = s.trk m) ∧ t.mem = s.mem) ∧
    (s.get (AT_SSTAT_STATE n) = 4 → exec c s = .next (State.settle (s.setb (AT_ERRINFO_PARAM n) true)))) ∧
  (∀ (s : State) (n : Fin 4) (i : Nat), TrackerRuns s n → s.get (AT_CTL_EN n) = 1 → sourceOf s n = some i → (s.inp i).queue = [] →
    (s.trk n).suspect = none → 3 ≤ s.get (AT_SSTAT_STATE n) → s.get (AT_SSTAT_STATE n) ≤ 4 → s.get (AT_PSTAT_MODE n) = 0 →
    (s.trk n).adoptLeft = 0 → (s.trk n).tref + (s.trk n).thi + captureDelay s i ≤ s.now → toothBad s n = false →
    ∃ t, exec (.virtualTooth n) s = .next t ∧ t.get (AT_CFLT_VIRT n) = 1 ∧
      t.get (AT_CCNT0_VIRTCNT n) = min 65535 (s.get (AT_CCNT0_VIRTCNT n) + 1) ∧ t.get (AT_PSTAT_LCLS n) = 5 ∧
      (t.trk n).phase = (trackerAt s n s.now).phase ∧ (t.trk n).tref = (s.trk n).tref + s.get (AT_PEXP_PHAT n) ∧
      ((t.trk n).segK : Int) = ((s.trk n).segK + dirStep (s.flag (AT_SSTAT_DIR n))) % (max (activeWheel s n).cnt 1 : Nat) ∧
      t.mem = s.mem ∧ ∀ m, m ≠ n.val → t.trk m = s.trk m)

/-- TOOTH_ENTRY_POP of a tracker with no direction sensor, no edge generator and no memory error, whose oldest entry `e` carries no
overrun mark. -/
def Obligations.ToothEntries : Prop :=
  ∀ (s : State) (n : Fin 4) (i : Nat) (e : CapEntry) (rest : List CapEntry), TrackerRuns s n → s.get (AT_CTL_EN n) = 1 →
    sourceOf s n = some i → (s.inp i).queue = e :: rest → (s.trk n).gen = none → s.ecc = [] → s.get (AT_SCFG_DIRSRC n) = 0 →
    e.ovrb = false → saturated s n = false → (∀ d, (s.inp i).lateDrop = some d → d.tb ≠ s.now) →
    let u := trackerSync n (s.putInp i { s.inp i with queue := rest })
    let v := u.putTrk n { u.trk n with lastPop := s.now, edgeSeen := true, satPast := false }
    let k := s.trk n
    (s.get (AT_SSTAT_STATE n) = 0 → (activeWheel s n).cnt ≠ 1 → k.window.length < min (s.get (AT_SCFG_K n)) (activeWheel s n).cnt →
      exec (.toothEntryPop n) s = .next (State.settle
        (v.putTrk n { v.trk n with window := windowPush v n e }))) ∧
    (3 ≤ s.get (AT_SSTAT_STATE n) → s.get (AT_SSTAT_STATE n) ≤ 4 → k.suspect = none → k.adoptLeft = 0 →
      (s.get (AT_PSTAT_MODE n) = 1 ∨ e.ts < k.tref + k.thi) →
      (e.ts - k.tref < k.tb → ∃ t, exec (.toothEntryPop n) s = .next t ∧ (t.inp i).queue = rest ∧
        t.get (AT_CFLT_NOISE n) = 1 ∧ t.get (AT_CCNT0_NOISECNT n) = min 65535 (s.get (AT_CCNT0_NOISECNT n) + 1) ∧
        t.get (AT_PSTAT_LCLS n) = 1 ∧ (t.trk n).phase = (trackerAt s n s.now).phase ∧ (t.trk n).tref = k.tref ∧
        t.rd (Reg.AT_RATE n) = s.rd (Reg.AT_RATE n) ∧ t.rd (Reg.AT_SSTAT n) = s.rd (Reg.AT_SSTAT n)) ∧
      (k.tb ≤ e.ts - k.tref → e.ts - k.tref < k.tlo → ∃ t, exec (.toothEntryPop n) s = .next t ∧ (t.inp i).queue = rest ∧
        t.get (AT_PSTAT_SUSP n) = 1 ∧ (t.trk n).suspect = some e ∧ t.get (AT_PSTAT_LCLS n) = 2 ∧
        (t.trk n).phase = (trackerAt s n s.now).phase ∧ t.rd (Reg.AT_RATE n) = s.rd (Reg.AT_RATE n)) ∧
      (k.tb ≤ e.ts - k.tref → k.tlo ≤ e.ts - k.tref →
        exec (.toothEntryPop n) s = .next (State.settle (acceptNext n e v))))

/-- CATCHUP_COMPLETE, ACCUMULATOR_HALT, CAMMISS and ANGLE_CYCLE_WRAP; `trackerSync` brings the phase up to this tk. -/
def Obligations.AccumulatorEvents : Prop :=
  (∀ (s : State) (n : Fin 4) (c : Catchup), TrackerRuns s n → (trackerAt s n s.now).catchup = some c →
    c.lead + ((c.rate * (s.now - c.ts) : Nat) : Int) ≤ 0 →
    exec (.catchupComplete n) s = .next (State.settle
      (((trackerSync n s).setb (AT_PSTAT_CATCH n) false).putTrk n { trackerAt s n s.now with catchup := none }))) ∧
  (∀ (s : State) (n : Fin 4), TrackerRuns s n → (trackerAt s n s.now).haltAt = some 0 → s.get (AT_RATE_RATE n) ≠ 0 →
    exec (.accumulatorHalt n) s = .next (State.settle ((trackerSync n s).setb (AT_PSTAT_HALT n) true))) ∧
  (∀ (s : State) (n : Fin 4), TrackerRuns s n → s.get (AT_SSTAT_STATE n) = 4 → s.get (AT_CAMCFG_CAMSRC n) ≠ 0 →
    cycleLen s n * 2 ^ 24 ≤ (trackerAt s n s.now).camAdv →
    exec (.cammiss n) s = .next (State.settle (((trackerSync n s).setb (AT_SFLT_CAMMISS n) true).putTrk n
      { trackerAt s n s.now with camAdv := (trackerAt s n s.now).camAdv - cycleLen s n * 2 ^ 24 }))) ∧
  (∀ (s : State) (n : Fin 4), TrackerRuns s n → s.get (AT_SSTAT_STATE n) ≠ 4 → 0 < (trackerAt s n s.now).wraps →
    ∃ t, exec (.angleCycleWrap n) s = .next t ∧ (t.trk n).wraps = (trackerAt s n s.now).wraps - 1 ∧
      (t.trk n).phase = (trackerAt s n s.now).phase ∧
      (∀ c : Fin 64, t.unit c = if s.get (SCH_CHCFG_TRK c) = n then { s.unit c with starts := 0 } else s.unit c) ∧
      (∀ r, notPending r = true → t.rd r = s.rd r) ∧ t.mem = s.mem)

/-! ### Output units and event banks (R107, R111 to R127) -/

/-- COMMITTED_EDGE_OUTPUT of a start and of an end, and MAXDUR_CUT. A start in the tk in which OUTEN was set counts as during a pulse; one
in the tk in which it was cleared does not begin (R127), which is why the first clause asks for another tk. -/
def Obligations.OutputEdges : Prop :=
  ∀ (s : State) (c : Fin 64), s.angleRuns = true →
    (∀ x rest, (s.unit c).edges = x :: rest → x.tb ≤ s.now → x.start = true → (s.unit c).chsafeTb = some s.now →
      exec (.committedEdgeOutput c) s = .next (State.settle (safeTake c s))) ∧
    (∀ x rest, (s.unit c).edges = x :: rest → x.tb ≤ s.now → x.start = true → (s.unit c).outTb ≠ some s.now →
      (s.unit c).chsafeTb ≠ some s.now → ∃ u, exec (.committedEdgeOutput c) s = .next (State.settle (hadcOutputEdge c true (tellStart c x.ev x.tb u))) ∧
        u.unit c = { s.unit c with edges := rest, shown := outen s c,
                                   pulse := some { start := x.tb, ev := x.ev, maxdur := s.get (SCH_MAXDUR_MAXDUR c) } } ∧
        (u.occ x.ev).st = (if rest.any (fun y => y.ev == x.ev && !y.start) then .ending else .on) ∧
        (∀ e, e ≠ x.ev → u.occ e = s.occ e) ∧ (∀ d, d ≠ c.val → u.unit d = s.unit d) ∧ (∀ r, u.rd r = s.rd r) ∧ u.mem = s.mem) ∧
    (∀ x rest p, (s.unit c).edges = x :: rest → x.tb ≤ s.now → x.start = false → (s.unit c).pulse = some p → p.ev = x.ev →
      ∃ t, exec (.committedEdgeOutput c) s = .next t ∧ (t.unit c).pulse = none ∧ (t.unit c).shown = false ∧
        (t.unit c).prevEnd = some s.now ∧ (t.unit c).edges = rest.filter (fun y => y.ev != x.ev) ∧ (t.occ x.ev).st = .done ∧
        (s.ecc = [] → (∀ e, e ≠ x.ev → t.occ e = s.occ e) ∧ ∀ d, d ≠ c.val → t.unit d = s.unit d)) ∧
    (∀ p, (s.unit c).pulse = some p → p.start + p.maxdur ≤ s.now →
      (∀ x ∈ (s.unit c).edges, x.ev = p.ev → x.start = false → p.start + p.maxdur < x.tb) → EventsNamed s →
      ∃ t, exec (.maxdurCut c) s = .next t ∧ t.get (SCH_CHSTAT_MAXCUT c) = 1 ∧ (t.unit c).pulse = none ∧
        (t.unit c).shown = false ∧ (t.occ p.ev).st = .done ∧
        ({ chan := c, level := false, cut := true, tb := p.start + p.maxdur, pass := s.now } : DigRec) ∈ t.ring.digs ∧
        (s.ecc = [] → ∀ d, d ≠ c.val → t.unit d = s.unit d))

/-- OUTPUT_UNIT_SYNC_LOSS, DIRECTION_CHANGE_CANCEL and OUTEN_WRITE.
BANK_SWITCH_REQUEST, BANK_COPY_START and BANK_COPY_DONE. -/
def Obligations.OutputControl : Prop :=
  ((∀ (s : State) (n : Fin 4), s.angleRuns = true → s.get (AT_SSTAT_STATE n) ≠ 4 → EventsNamed s →
    ∃ t, exec (.outputUnitSyncLoss n) s = .next t ∧ ∀ c : Fin 64, s.get (SCH_CHCFG_TRK c) = n →
      (∀ x ∈ (t.unit c).edges, x.start = true → s.now ≤ x.tb → (t.occ x.ev).desc.mode = 3) ∧
      ∀ p, (t.unit c).pulse = some p → (t.occ p.ev).desc.mode = 3 ∨ hasEnd t c p.ev = true) ∧
  (∀ (s : State) (n : Fin 4), s.angleRuns = true → s.get (AT_SSTAT_STATE n) = 4 →
    exec (.outputUnitSyncLoss n) s = .next s.settle) ∧
  (∀ (s : State) (n : Fin 4), s.angleRuns = true → EventsNamed s →
    ∃ t, exec (.directionChangeCancel n) s = .next t ∧ ∀ c : Fin 64, s.get (SCH_CHCFG_TRK c) = n →
      (∀ x ∈ (t.unit c).edges, x.start = true → s.now ≤ x.tb → disallows (s.flag (AT_SSTAT_DIR n)) (t.occ x.ev).desc = false) ∧
      ∀ p, (t.unit c).pulse = some p → disallows (s.flag (AT_SSTAT_DIR n)) (t.occ p.ev).desc = false) ∧
  (∀ (s : State) (high : Bool) (v : Word), s.angleRuns = true → EventsNamed s → s.ecc = [] →
    ∃ t, exec (.outenWrite high v) s = .next t ∧ ∀ c : Fin 64,
      (decide (32 ≤ c.val) = high → outen t c = (bitAt v.toNat (c % 32) && (outen s c || s.hasPin c)) ∧
        (outen s c = true → bitAt v.toNat (c % 32) = false → (t.unit c).pulse = none ∧
          ((s.unit c).pulse ≠ none → (t.unit c).shown = false ∧ t.get (SCH_CHSTAT_CANCEL c) = 1)) ∧
        (outen s c = false → s.hasPin c = true → bitAt v.toNat (c % 32) = true →
          (t.unit c).outTb = some s.now ∧ (t.unit c).shown = false ∧ (t.unit c).pulse = (s.unit c).pulse)) ∧
      (decide (32 ≤ c.val) ≠ high → outen t c = outen s c ∧ t.unit c = s.unit c))) ∧
  ((∀ (s : State) (v : Word), s.angleRuns = true → bitAt v.toNat 30 = false → switchRefused s (bitsAt v.toNat 0 4) = false →
    ∃ t, exec (.bankSwitchRequest v) s = .next t ∧ t.get SCH_BCTL_REQ = 1 ∧ t.get SCH_BSTAT_PEND = bitsAt v.toNat 0 4 ∧
      t.get SCH_BCTL_TRKMSK = bitsAt v.toNat 0 4 ∧ t.get SCH_BCTL_CMODE = (bitAt v.toNat 8).toNat ∧
      t.get SCH_BCTL_SRC = (bitAt v.toNat 4).toNat ∧ t.get SCH_BSTAT_ACT = s.get SCH_BSTAT_ACT ∧
      t.switched = ((List.range 4).filter fun n => bitAt (bitsAt v.toNat 0 4) n && syncState s n != 4).map (fun n => 32 * n + 31) ∧
      t.bankCyl = bitAt v.toNat 8 ∧ (∀ r, r ≠ Reg.SCH_BCTL → r ≠ Reg.SCH_BSTAT → notPending r = true → t.rd r = s.rd r) ∧
      t.mem = s.mem) ∧
  (∀ (s : State) (v : Word), s.angleRuns = true → bitAt v.toNat 31 = false → s.get SCH_BSTAT_COPYBUSY = 0 →
    ∃ t, exec (.bankCopyStart v) s = .next t ∧ t.get SCH_BCTL_COPY = 1 ∧ t.get SCH_BSTAT_COPYBUSY = 1 ∧ t.copyTb = s.now ∧
      t.copySrc = bitAt v.toNat 4 ∧ (∀ r, r ≠ Reg.SCH_BCTL → r ≠ Reg.SCH_BSTAT → notPending r = true → t.rd r = s.rd r) ∧
      t.mem = s.mem) ∧
  (∀ (s : State) (v : Word), s.angleRuns = true → bitAt v.toNat 30 = true ∨ switchRefused s (bitsAt v.toNat 0 4) = true →
    exec (.bankSwitchRequest v) s = .next (State.settle (s.setb SCH_BSTAT_REFUSED true))) ∧
  (∀ (s : State) (v : Word), s.angleRuns = true → bitAt v.toNat 31 = true ∨ s.get SCH_BSTAT_COPYBUSY = 1 →
    exec (.bankCopyStart v) s = .next (State.settle (s.setb SCH_BSTAT_REFUSED true))) ∧
  (∀ (s : State), s.angleRuns = true → s.get SCH_BSTAT_COPYBUSY = 1 → s.copyTb + 2731 ≤ s.now →
    exec .bankCopyDone s = .next (State.settle { endJob s.copyJob 0 0
      (((bankCopied s.copySrc s).setb SCH_BSTAT_COPYBUSY false).setb SCH_BCTL_COPY false) with copyJob := 0 })))

/-! ### Event sequencers (R129 to R148)

`EsqFetches s n`: sequencer `n` starts an instruction. `esqAdvance n c` moves the PC on and counts `c` cycles. -/

/-- ESQ_NOP, and so the part of every instruction that is not its own effect.
ESQ_HALT without channels to react, and ESQ_FCLR. -/
def Obligations.EsqAdvanceAndFault : Prop :=
  (∀ (s : State) (n : Fin 8), EsqFetches s n → ∃ t, exec (.esqNop n) s = .next t ∧ t = State.settle (esqAdvance n 1 s) ∧
    t.get (ESQ_STAT_PC n) = (s.get (ESQ_STAT_PC n) + 1) % 2048 ∧
    t.esq n = { s.esq n with wait := .none, cycle := max (s.esq n).cycle (2 * (s.now - (s.esq n).retTb)) + 1 } ∧
    (∀ m, m ≠ n.val → t.esq m = s.esq m) ∧ (∀ f : Fld, f.reg ≠ Reg.ESQ_STAT n → notPending f.reg = true → t.get f = s.get f) ∧
    t.get (ESQ_STAT_STATE n) = 1 ∧ t.mem = s.mem ∧ t.units = s.units ∧ t.occs = s.occs) ∧
  ((∀ (s : State) (n : Fin 8), EsqFetches s n → s.get (ESQ_OWN_VALID n) = 0 →
    ∃ t, exec (.esqHalt n) s = .next t ∧ t.get (ESQ_CTL_RUN n) = 0 ∧ t.get (ESQ_STAT_STATE n) = 2 ∧
      t.get ⟨Reg.ESQ_FLT n, 5, 1⟩ = 1 ∧
      t.get (ESQ_FLT_CAUSE n) = (if s.get (ESQ_FLT_CAUSE n) = 0 then 5 else s.get (ESQ_FLT_CAUSE n)) ∧ (t.esq n).wait = .none ∧
      (∀ r, r ∉ [Reg.ESQ_CTL n, Reg.ESQ_STAT n, Reg.ESQ_FLT n] → notPending r = true → t.rd r = s.rd r) ∧ t.mem = s.mem ∧
      t.units = s.units ∧ ∀ m, m ≠ n.val → t.esq m = s.esq m) ∧
  (∀ (s : State) (n : Fin 8), s.angleRuns = true → s.get (ESQ_STAT_STATE n) = 2 →
    exec (.esqFclr n) s = .next (State.settle ((s.wr (Reg.ESQ_FLT n) 0).set (ESQ_STAT_STATE n) 0))))

/-- The computing instructions. -/
def Obligations.EsqCompute : Prop :=
  ∀ (s : State) (n : Fin 8) (d a b : Fin 16) (imm : BitVec 18), EsqFetches s n →
    let does (c : Instr) (cost : Nat) (v : Word) : Prop := exec c s = .next (State.settle (setGp n d v (esqAdvance n cost s)))
    let x := gp s n a
    let y := gp s n b
    (gp s n 0 = 0 ∧ ∀ v u, setGp n 0 v u = u) ∧
    does (.esqAdd n d a b) 1 (x + y) ∧ does (.esqSub n d a b) 1 (x - y) ∧ does (.esqAnd n d a b) 1 (x &&& y) ∧
    does (.esqOr n d a b) 1 (x ||| y) ∧ does (.esqXor n d a b) 1 (x ^^^ y) ∧ does (.esqShl n d a b) 1 (x <<< (y.toNat % 32)) ∧
    does (.esqShr n d a b) 1 (x >>> (y.toNat % 32)) ∧ does (.esqSra n d a b) 1 (x.sshiftRight (y.toNat % 32)) ∧
    does (.esqMul n d a b) 2 (x * y) ∧ does (.esqAddi n d a imm) 1 (x + imm.signExtend 32) ∧
    does (.esqAndi n d a imm) 1 (x &&& imm.zeroExtend 32) ∧ does (.esqOri n d a imm) 1 (x ||| imm.zeroExtend 32) ∧
    does (.esqXori n d a imm) 1 (x ^^^ imm.zeroExtend 32) ∧ does (.esqShli n d a imm) 1 (x <<< (imm.toNat % 32)) ∧
    does (.esqShri n d a imm) 1 (x >>> (imm.toNat % 32)) ∧ does (.esqSrai n d a imm) 1 (x.sshiftRight (imm.toNat % 32)) ∧
    does (.esqLui n d imm) 1 (imm.zeroExtend 32 <<< (14 : Nat)) ∧
    does (.esqLd n d a imm) 1 (s.rd (Reg.ESQ_LDM n ((x.toNat + imm.toNat) % 256))) ∧
    does (.esqAbr n d imm) 1 (abusField (if imm.getLsbD 4 then snapOf s (imm.toNat % 4) else (s.esq n).snaps.getD (imm.toNat % 4) {})
      (imm.toNat / 4 % 4)) ∧
    does (.esqEres n d) 1 (passResult (s.esq n))

/-- The branches, JMP, CALL and JR. -/
def Obligations.EsqBranches : Prop :=
  ∀ (s : State) (n : Fin 8) (a b : Fin 16) (tgt : BitVec 11), EsqFetches s n →
    let next := (s.get (ESQ_STAT_PC n) + 1) % 2048
    let base := max (s.esq n).cycle (2 * (s.now - (s.esq n).retTb))
    let goes (c : Instr) (pc cycles : Nat) : Prop := ∃ t, exec c s = .next t ∧ t.get (ESQ_STAT_PC n) = pc ∧
      (t.esq n).cycle = base + cycles ∧ (∀ r, r ≠ Reg.ESQ_STAT n → notPending r = true → t.rd r = s.rd r) ∧ t.mem = s.mem
    let branches (c : Instr) (p : Bool) : Prop := goes c (if p then tgt.toNat else next) (if p then 2 else 1)
    let x := gp s n a
    let y := gp s n b
    branches (.esqBeq n a b tgt) (decide (x = y)) ∧ branches (.esqBne n a b tgt) (decide (x ≠ y)) ∧
    branches (.esqBlt n a b tgt) (decide (x.toInt < y.toInt)) ∧ branches (.esqBge n a b tgt) (decide (y.toInt ≤ x.toInt)) ∧
    branches (.esqBltu n a b tgt) (decide (x.toNat < y.toNat)) ∧ branches (.esqBgeu n a b tgt) (decide (y.toNat ≤ x.toNat)) ∧
    goes (.esqJmp n tgt) tgt.toNat 2 ∧ (x.toNat < 2048 → goes (.esqJr n a) x.toNat 2) ∧
    (2048 ≤ x.toNat → exec (.esqJr n a) s = .next (State.settle (esqFault n 2 (esqAdvance n 2 s)))) ∧
    ∃ t, exec (.esqCall n tgt) s = .next t ∧ t.get (ESQ_STAT_PC n) = tgt.toNat ∧ (t.esq n).cycle = base + 2 ∧
      (t.rd (Reg.ESQ_GP n 15)).toNat = next ∧
      (∀ r, r ≠ Reg.ESQ_STAT n → r ≠ Reg.ESQ_GP n 15 → notPending r = true → t.rd r = s.rd r) ∧ t.mem = s.mem

/-- ST, LDE, TBR, FLG, WPASS, EVAL, EDRAIN, CHSAFE, SWI, HALT, WTB and an illegal word. -/
def Obligations.EsqOthers : Prop :=
  ∀ (s : State) (n : Fin 8) (d a : Fin 16) (imm : BitVec 18), EsqFetches s n →
    let x := gp s n a
    let adv (c : Nat) : State := esqAdvance n c s
    let does (c : Instr) (t : State) : Prop := exec c s = .next t.settle
    let off := ((x + imm.zeroExtend 32) <<< (2 : Nat)).toNat
    let flags := s.get (ESQ_FLAGS_FLAGS n)
    let cyc := max (s.esq n).cycle (2 * (s.now - (s.esq n).retTb))
    does (.esqSt n d a imm) ((adv 1).wr (Reg.ESQ_LDM n ((x.toNat + imm.toNat) % 256)) (gp s n d)) ∧
    (off < 0xB000 → does (.esqLde n d a imm) (setGp n d (schWord (passView s) (0x50060000 + off)) (adv 2))) ∧
    (0xB000 ≤ off → does (.esqLde n d a imm) (esqFault n 3 (adv 2))) ∧
    (imm.getLsbD 0 = false → does (.esqTbr n d imm) (setGp n d (s.tb.setWidth 32)
      ((adv 1).putEsq n { (adv 1).esq n with tbHigh := s.tb.extractLsb' 32 32 }))) ∧
    (imm.getLsbD 0 = true → does (.esqTbr n d imm) (setGp n d (s.esq n).tbHigh (adv 1))) ∧
    does (.esqFlg n d imm) (setGp n d (BitVec.ofNat 32 flags)
      ((adv 1).set (ESQ_FLAGS_FLAGS n) (flags &&& (0x1F ^^^ (imm.toNat &&& 0x17))))) ∧
    does (.esqWpass n) (((adv 0).set (ESQ_PERF_HWM n) (max (s.get (ESQ_PERF_HWM n)) (min 255 cyc))).putEsq n
      { (adv 0).esq n with wait := .wpass }) ∧
    (imm.toNat = 0 → does (.esqEval n imm)
      (issueAll n ((List.range (s.get (ESQ_EVRNG_CNT n))).map (s.get (ESQ_EVRNG_BASE n) + ·)) false (adv 0))) ∧
    (imm.toNat / 1024 = 0 → imm.toNat ≠ 0 → does (.esqEval n imm) (adv 0)) ∧
    (imm.toNat / 1024 ≠ 0 → s.get (ESQ_EVRNG_BASE n) ≤ imm.toNat % 1024 →
      imm.toNat % 1024 + imm.toNat / 1024 ≤ s.get (ESQ_EVRNG_BASE n) + s.get (ESQ_EVRNG_CNT n) →
      does (.esqEval n imm) (issueAll n ((List.range (imm.toNat / 1024)).map (imm.toNat % 1024 + ·)) false (adv 0))) ∧
    (imm.toNat / 1024 ≠ 0 → (imm.toNat % 1024 < s.get (ESQ_EVRNG_BASE n) ∨
      s.get (ESQ_EVRNG_BASE n) + s.get (ESQ_EVRNG_CNT n) < imm.toNat % 1024 + imm.toNat / 1024) →
      does (.esqEval n imm) (esqFault n 3 (adv 0))) ∧
    does (.esqEdrain n) ((adv 0).putEsq n { (adv 0).esq n with
      cycle := max (cyc + 1) (min (cyc + 16) ((s.esq n).issueEnd + 16)) }) ∧
    (groupOf s n = none → does (.esqChsafe n imm) (adv 2)) ∧
    (∀ g, groupOf s n = some g → does (.esqChsafe n imm) (upTo 8 (fun i u =>
      if bitAt imm.toNat i && u.hasChan (8 * g + i) then chanSafe (8 * g + i) u else u) (adv 2))) ∧
    (imm.getLsbD 0 = true → does (.esqSwi n imm) ((adv 1).setb (ESQ_STAT_SWI n) true)) ∧
    (imm.getLsbD 0 = false → does (.esqSwi n imm) (adv 1)) ∧
    does (.esqHalt n) (esqFault n 5 (adv 1)) ∧
    does (.esqWtb n a) ((adv 1).putEsq n { (adv 1).esq n with wait := .wtb x }) ∧
    (∀ w : Word, ucodeIllegal w.toNat = true → does (.illegalInstruction n w) (esqFault n 2 s)) ∧
    -- the words of R136: one of each format, and which are no instruction
    (∀ w : Word, ucodeIllegal w.toNat = true ↔ ucodeInstr n w.toNat = .illegalInstruction n w) ∧
    (∀ b : Fin 16, ucodeInstr n (0x01 * 2 ^ 26 + d * 2 ^ 22 + a * 2 ^ 18 + b * 2 ^ 14) = .esqAdd n d a b) ∧
    ucodeInstr n (0x10 * 2 ^ 26 + d * 2 ^ 22 + a * 2 ^ 18 + imm.toNat) = .esqAddi n d a imm ∧
    ∀ tgt : BitVec 11, ucodeInstr n (0x20 * 2 ^ 26 + d * 2 ^ 22 + a * 2 ^ 18 + tgt.toNat) = .esqBeq n d a tgt ∧
      ucodeInstr n (0x28 * 2 ^ 26 + tgt.toNat) = .esqJmp n tgt

/-- ESQ_RUN, ESQ_STOP, ESQ_UBREQ, ESQ_SELFTEST_START, ESQ_SELFTEST_DONE, ESQ_OWN_WRITE, PASS_STROBE and COAST_EXPIRY. -/
def Obligations.EsqControl : Prop :=
  ∀ (s : State) (n : Fin 8), s.angleRuns = true →
    let refuse : State := s.setb (ESQ_ERRINFO_PARAM n) true
    (s.hasEsq n = true → s.get (ESQ_CTL_RUN n) = 0 → runRefused s n = false →
      ∃ t, exec (.esqRun n) s = .next t ∧ t.get (ESQ_CTL_RUN n) = 1 ∧ t.get (ESQ_STAT_STATE n) = 1 ∧ t.get (ESQ_STAT_PC n) = 0 ∧
        t.get (ESQ_STAT_UBANK n) = s.get (ESQ_CFG_SBANK n) ∧ t.get (ESQ_FLAGS_FLAGS n) = 0 ∧
        (∀ i : Fin 16, t.rd (Reg.ESQ_GP n i) = 0) ∧ (t.esq n).misses = 0 ∧ passResult (t.esq n) = 0 ∧
        t.rd (Reg.ESQ_PERF n) = s.rd (Reg.ESQ_PERF n) ∧ t.mem = s.mem) ∧
    (s.hasEsq n = true → s.get (ESQ_CTL_RUN n) = 0 → runRefused s n = true → exec (.esqRun n) s = .next refuse.settle) ∧
    (s.get (ESQ_CTL_RUN n) = 1 → exec (.esqStop n) s = .next (State.settle
      (((s.setb (ESQ_CTL_RUN n) false).set (ESQ_STAT_STATE n) 0).putEsq n { s.esq n with wait := .none }))) ∧
    (s.hasEsq n = true → s.get (ESQ_CTL_UBREQ n) = 0 → exec (.esqUbreq n) s = .next (State.settle
      ((s.setb (ESQ_CTL_UBREQ n) true).putEsq n { s.esq n with ubreqTb := s.now }))) ∧
    (s.hasEsq n = true → s.get (ESQ_STAT_STATE n) = 0 → s.get (ESQ_OWN_VALID n) = 0 →
      exec (.esqSelftestStart n) s = .next (State.settle
        (((s.setb (ESQ_CTL_STEST n) true).set (ESQ_STAT_STATE n) 3).putEsq n { s.esq n with testTb := s.now }))) ∧
    (s.hasEsq n = true → s.get (ESQ_STAT_STATE n) ≠ 0 ∨ s.get (ESQ_OWN_VALID n) = 1 →
      exec (.esqSelftestStart n) s = .next refuse.settle) ∧
    (∀ pass, s.get (ESQ_STAT_STATE n) = 3 → (s.esq n).testTb + 50000 ≤ s.now →
      ∃ t, exec (.esqSelftestDone n pass) s = .next t ∧ t.get (ESQ_STAT_STATE n) = 0 ∧ t.get (ESQ_CTL_STEST n) = 0 ∧
        t.get (ESQ_STAT_STRES n) = (if pass = true ∧ ∀ a ∈ s.ecc, ¬(0x500D0000 + n * 0x4000 ≤ a ∧ a < 0x500D4000 + n * 0x4000)
          then 1 else 2) ∧ (∀ i : Fin 256, t.rd (Reg.ESQ_LDM n i) = 0) ∧ t.mem = s.mem) ∧
    (∀ v : Word, s.hasEsq n = true → ownRefused s n (bitAt v.toNat 8) (bitsAt v.toNat 0 3) = false →
      exec (.esqOwnWrite n v) s = .next (State.settle
        ((s.setb (ESQ_OWN_VALID n) (bitAt v.toNat 8)).set (ESQ_OWN_GRP n) (bitsAt v.toNat 0 3)))) ∧
    (∀ v : Word, s.hasEsq n = true → ownRefused s n (bitAt v.toNat 8) (bitsAt v.toNat 0 3) = true →
      exec (.esqOwnWrite n v) s = .next refuse.settle) ∧
    (∀ parity : BitVec 8, parity.getLsbD n = false → s.now % 64 = 0 → (s.esq 0).passTb ≠ some s.now → s.hasEsq n = true →
      (∀ m : Fin 8, m ≠ n → s.get (ESQ_STAT_STATE m) ≠ 1) →
      (s.get (ESQ_STAT_STATE n) = 1 → (s.esq n).wait = .wpass ∧ (s.esq n).cycle ≤ 2 * (s.now - (s.esq n).retTb)) →
      s.get (ESQ_CTL_UBREQ n) = 0 →
      ∃ t, exec (.passStrobe parity) s = .next t ∧ (t.esq n).snaps = (List.range 4).map (snapOf s) ∧ (t.esq n).prev = (s.esq n).snaps ∧
        (t.esq n).passTb = some s.now ∧ t.get (ESQ_STAT_PC n) = s.get (ESQ_STAT_PC n) ∧
        (s.get (ESQ_STAT_STATE n) = 1 → (t.esq n).wait = .none ∧ (t.esq n).cycle = 2 ∧ (t.esq n).misses = 0 ∧
          passResult (t.esq n) = 0)) ∧
    (∀ parity : BitVec 8, parity.getLsbD n = true → s.now % 64 = 0 → (s.esq 0).passTb ≠ some s.now → s.hasEsq n = true →
      (∀ m : Fin 8, m ≠ n → s.get (ESQ_STAT_STATE m) ≠ 1) → s.get (ESQ_STAT_STATE n) = 1 → EventsNamed s →
      ∃ t, exec (.passStrobe parity) s = .next t ∧ t.get (ESQ_STAT_STATE n) = 2 ∧ t.get (ESQ_CTL_RUN n) = 0 ∧
        t.get (ESQ_FLT_ABUSP n) = 1 ∧ (t.esq n).snaps = (s.esq n).snaps) ∧
    (s.get (ESQ_STAT_STATE n) = 1 → coasting s = true → s.get (ESQ_CFG_COASTMAX n) ≤ s.get (ESQ_STAT_COASTCNT n) →
      exec (.coastExpiry n) s = .next (State.settle (esqFault n 6 s)))

/-! ### Current regulation loops (R149 to R171) -/

/-- Start messages, CRL_COMPARATOR_CROSSING, BLANKING_END, PHASE_TIME_ELAPSED, DEAD_TIME_END and OVC_TIMEOUT. -/
def Obligations.LoopRegulation : Prop :=
  ∀ (s : State) (k : Fin 12), s.angleRuns = true →
    let l := s.loop k
    let st := s.get (CRL_STAT_STATE k)
    let prof := loopProf s k
    let p := s.get (CRL_STAT_PHASE k)
    let up := s.flag (CMP_STAT_OUT (4 + 2 * k))
    let lo := s.flag (CMP_STAT_OUT (5 + 2 * k))
    (∀ m : StartMsg, s.hasLoop k = true → startAllowed s m.chan = true → m.prof < 12 → st = 1 → EventsNamed s →
      (profBad s (profAddr k (s.flag (CRL_STAT_PBK k)) m.prof) = false →
        (startMessage k m s).get (CRL_STAT_STATE k) = 2 ∧ ((startMessage k m s).loop k).msg = some m ∧
        ((startMessage k m s).loop k).enterAt = some (s.now + 2)) ∧
      (profBad s (profAddr k (s.flag (CRL_STAT_PBK k)) m.prof) = true →
        (startMessage k m s).get ⟨Reg.CRL_FLT k, 5, 1⟩ = 1)) ∧
    (∀ x, l.enterAt = some x → x ≤ s.now → wordsBad s (phaseWords prof 0) = false →
      (enterDue k s).get (CRL_STAT_PHASE k) = 0 ∧ ((enterDue k s).loop k).phaseTb = s.now ∧ ((enterDue k s).loop k).enterAt = none ∧
        ((enterDue k s).loop k).srcOn = decide (phaseKind s prof 0 ≠ 2)) ∧
    (∀ upper level, cmpLoop s (if upper then 4 + 2 * k else 5 + 2 * k) = true → s.hasLoop k = true →
      ∃ u, u.flag (CMP_STAT_OUT (if upper then 4 + 2 * k else 5 + 2 * k)) = level ∧ u.mem = s.mem ∧ u.units = s.units ∧
        u.loops = s.loops ∧ (u.cmp (4 + 2 * k)).input = (u.cmp (5 + 2 * k)).input ∧
        (∀ r, r ≠ Reg.CMP_STAT (4 + 2 * k) → r ≠ Reg.CMP_STAT (5 + 2 * k) → u.rd r = s.rd r) ∧
        (st ≠ 2 ∨ l.enterAt ≠ none ∨ s.now < l.blankTo ∨ endDue s k = true →
          exec (.crlComparatorCrossing k upper level) s = .next u.settle) ∧
        (st = 2 → l.enterAt = none → l.blankTo ≤ s.now → endDue s k = false →
          (phaseKind s prof p = 0 → upper = true → level = true → exec (.crlComparatorCrossing k upper level) s =
            .next (State.settle (if s.now < l.phaseTb + s.get (CRL_LIM_TMIN k) then loopFaulted k 2 u else nextPhase k u))) ∧
          (phaseKind s prof p = 1 → upper = true → level = true → l.srcOn = true →
            exec (.crlComparatorCrossing k upper level) s = .next (State.settle (source k p false u))) ∧
          (phaseKind s prof p = 1 → upper = false → level = false → l.srcOn = false →
            exec (.crlComparatorCrossing k upper level) s = .next (State.settle (source k p true u))) ∧
          (phaseKind s prof p = 2 → upper = false → level = false →
            exec (.crlComparatorCrossing k upper level) s = .next (State.settle (nextPhase k u))))) ∧
    (endDue s k = true → exec (.blankingEnd k) s = .next s.settle) ∧
    (st = 2 → l.enterAt = none → l.blankTo ≤ s.now → endDue s k = false →
      (phaseKind s prof p = 0 → up = true → l.phaseTb + s.get (CRL_LIM_TMIN k) ≤ s.now →
        exec (.blankingEnd k) s = .next (State.settle (nextPhase k s))) ∧
      (phaseKind s prof p = 0 → up = true → s.now < l.phaseTb + s.get (CRL_LIM_TMIN k) →
        exec (.blankingEnd k) s = .next (State.settle (loopFaulted k 2 s))) ∧
      (phaseKind s prof p = 1 → up = true → l.srcOn = true → exec (.blankingEnd k) s = .next (State.settle (source k p false s))) ∧
      (phaseKind s prof p = 1 → lo = false → l.srcOn = false →
        exec (.blankingEnd k) s = .next (State.settle (source k p true s))) ∧
      (phaseKind s prof p = 2 → lo = false → exec (.blankingEnd k) s = .next (State.settle (nextPhase k s)))) ∧
    (st = 2 → l.enterAt = none → bitsAt (phaseWord s prof p 1) 0 24 ≠ 0 → l.phaseTb + bitsAt (phaseWord s prof p 1) 0 24 ≤ s.now →
      exec (.phaseTimeElapsed k) s = .next (State.settle
        (if phaseKind s prof p = 0 ∧ bitAt (phaseWord s prof p 0) 26 = true ∧ (up = false ∨ s.now < l.blankTo) then loopFaulted k 1 s else nextPhase k s))) ∧
    (p + 1 = profPhases s prof → (nextPhase k s).get (CRL_STAT_STATE k) = 3 ∧ ((nextPhase k s).loop k).srcOn = false) ∧
    (l.wait0 || l.wait1 || l.wait2 = true → exec (.deadTimeEnd k) s = .next (State.settle
      (driveGates k (l.g0 || l.wait0) (l.g1 || l.wait1) (l.g2 || l.wait2) s))) ∧
    (∀ x, l.ovcTo = some x → x ≤ s.now → up = true → st ≠ 0 → st ≠ 6 → st ≠ 8 →
      exec (.ovcTimeout k) s = .next (State.settle (loopFaulted k 3 (s.putLoop k { l with ovcTo := none })))) ∧
    (∀ x, l.ovcTo = some x → x ≤ s.now → up = false → st ≠ 6 →
      exec (.ovcTimeout k) s = .next (State.settle (s.putLoop k { l with ovcTo := none }))) ∧
    (st = 6 → exec (.ovcTimeout k) s = .next s.settle)

/-- WATCH_WINDOW_OPEN, TRACE_SAMPLE and ANALYSE_COMPLETE. -/
def Obligations.LoopWatch : Prop :=
  ∀ (s : State) (k : Fin 12), s.angleRuns = true →
    let l := s.loop k
    let st := s.get (CRL_STAT_STATE k)
    let prof := loopProf s k
    (∀ m, l.msg = some m → st = 2 ∨ st = 3 → wordsBad s (endWords s prof) = false → bitAt (endWord s prof 0) 31 = true →
      let u := endMessage k m.chan s
      u.get (CRL_STAT_STATE k) = 4 ∧ (u.loop k).tEnd = s.now ∧ (u.loop k).elen = s.now - m.start ∧ (u.loop k).g0 = false ∧
        (u.loop k).g1 = false ∧ (u.loop k).g2 = false ∧ (u.loop k).tw0 = s.now + bitsAt (endWord s prof 2) 0 16 ∧
        (u.loop k).opened = false) ∧
    (st = 4 → l.opened = false → l.tw0 ≤ s.now → watchCount s prof = 0 → exec (.watchWindowOpen k) s =
      .next (State.settle ((s.putLoop k { l with opened := true }).set (CRL_STAT_STATE k) 5))) ∧
    (st = 4 → l.opened = false → l.tw0 ≤ s.now → watchCount s prof ≠ 0 →
      exec (.watchWindowOpen k) s = .next (State.settle (s.putLoop k { l with opened := true }))) ∧
    (∀ code : BitVec 10, st = 4 → l.opened = true → l.tw0 + 10 * l.convs ≤ s.now → l.convs % bitsAt (endWord s prof 0) 24 4 = 0 →
      l.stored < 1024 → ∃ t, exec (.traceSample k code) s = .next t ∧
        traceAt t k l.stored = (if bitAt (s.get CPR_CLKSTAT_OK) 2 then code.toNat else 0) ∧
        (∀ j, j ≠ l.stored → j < 1024 → traceAt t k j = traceAt s k j) ∧
        t.loop k = { l with convs := l.convs + 1, stored := l.stored + 1 } ∧
        t.get (CRL_STAT_STATE k) = (if l.stored + 1 = watchCount s prof then 5 else 4) ∧ t.mem = s.mem) ∧
    (∀ code : BitVec 10, st = 4 → l.opened = true → l.tw0 + 10 * l.convs ≤ s.now → l.convs % bitsAt (endWord s prof 0) 24 4 ≠ 0 →
      exec (.traceSample k code) s = .next (State.settle (s.putLoop k { l with convs := l.convs + 1 }))) ∧
    (∀ m, st = 5 → l.msg = some m → wordsBad s (endWords s prof) = false → EventsNamed s → m.start < 2 ^ 32 → m.prof < 16 → m.pulse < 8 → m.cyl < 32 →
      ∃ t, exec (.analyseComplete k) s = .next t ∧ t.get (CRL_STAT_STATE k) = 1 ∧ (t.loop k).msg = none ∧
        (bitAt (t.rdn (Reg.CRL_LRES0 k)) 31 = true ↔ (closureTime s k).isSome = true) ∧ t.rdn (Reg.CRL_LRES1 k) = m.start ∧
        (∀ tc, closureTime s k = some tc → t.rd (Reg.CRL_LRES2 k) = BitVec.ofInt 32 (tc - m.start)) ∧
        (closureTime s k = none → t.rd (Reg.CRL_LRES2 k) = 0 ∧ bitAt (t.rdn (Reg.CSE_EVT (k / 6))) (8 + k % 6) = true))

/-- LOOP_ENABLE, LOOP_DISABLE, LOOP_FCLR, CRL_CALREQ, IDLE_TIMER_CAL_START, CRL_CAL_COMPLETE, CRL_CAL_STARVED and
PROGRAM_BANK_REQUEST. -/
def Obligations.LoopControl : Prop :=
  (∀ (s : State) (k : Fin 12), s.angleRuns = true →
    let l := s.loop k
    let st := s.get (CRL_STAT_STATE k)
    let calst := s.get (CRL_STAT_CALST k)
    (s.hasLoop k = true → s.get (CRL_CFG_EN k) = 0 → st = 0 → s.update.calib = [] →
      ∃ t, exec (.loopEnable k) s = .next t ∧ t.get (CRL_CFG_EN k) = 1 ∧ t.get (CRL_STAT_STATE k) = 1 ∧
        (t.loop k).g0 = false ∧ (t.loop k).g1 = false ∧ (t.loop k).g2 = false ∧ (t.loop k).idleTb = s.now) ∧
    (s.hasLoop k = true → s.get (CRL_CFG_EN k) = 0 → st = 7 → ∃ t, exec (.loopEnable k) s = .next t ∧ t.get (CRL_CFG_EN k) = 1 ∧
      t.get (CRL_STAT_STATE k) = 7 ∧ (t.loop k).calRetIdle = true) ∧
    (s.get (CRL_CFG_EN k) = 1 → ∃ t, exec (.loopDisable k) s = .next t ∧ t.get (CRL_CFG_EN k) = 0 ∧ t.get (CRL_STAT_STATE k) = 0 ∧
      t.loop k = { trimmed := l.trimmed } ∧ t.get (CRL_STAT_CALST k) = (if calst = 1 ∨ calst = 2 ∨ calst = 4 then 0 else calst)) ∧
    (st = 8 → s.update.calib = [] → ∃ t, exec (.loopFclr k) s = .next t ∧ t.rd (Reg.CRL_FLT k) = 0 ∧ t.get (CRL_STAT_STATE k) = 1 ∧
      (t.loop k).msg = none ∧ (t.loop k).idleTb = s.now) ∧
    (s.hasLoop k = true → s.get (CRL_CTL_CALREQ k) = 0 → st ≠ 7 → st ≠ 8 →
      ∃ t, exec (.crlCalreq k) s = .next t ∧ t.get (CRL_CTL_CALREQ k) = 1 ∧
        (if st = 0 ∨ loopRested s k = true then t.get (CRL_STAT_CALST k) = 2 ∧ t.get (CRL_STAT_STATE k) = 7 ∧ (t.loop k).calTb = s.now
          else t.get (CRL_STAT_CALST k) = 1 ∧ t.get (CRL_STAT_STATE k) = st) ∧ t.mem = s.mem) ∧
    (loopRested s k = true → calst = 1 ∨ calst = 4 → ∃ t, exec (.idleTimerCalStart k) s = .next t ∧ t.get (CRL_STAT_CALST k) = 2 ∧
      t.get (CRL_STAT_STATE k) = 7 ∧ (t.loop k).calRetIdle = true) ∧
    (∀ sum : Int, st = 7 → l.calTb + 840 ≤ s.now → s.update.calib = [] →
      ∃ t, exec (.crlCalComplete k sum) s = .next t ∧ t.get (CRL_CTL_CALREQ k) = 0 ∧
        t.get (CRL_STAT_STATE k) = l.calRetIdle.toNat ∧
        bitAt (t.rdn (Reg.CSE_EVT (k / 6))) (16 + k % 6) = true ∧
        (if -128 ≤ rnd sum 64 ∧ rnd sum 64 ≤ 127 then t.geti (CRL_IOFS_IOFS k) = rnd sum 64 ∧ t.get (CRL_STAT_CALST k) = 3
          else t.geti (CRL_IOFS_IOFS k) = s.geti (CRL_IOFS_IOFS k) ∧ t.get (CRL_STAT_CALST k) = 5)) ∧
    (calst = 1 → l.calReqTb + 200000000 ≤ s.now → ∃ t, exec (.crlCalStarved k) s = .next t ∧ t.get (CRL_STAT_CALST k) = 4 ∧
      bitAt (t.rdn (Reg.CSE_EVT (k / 6))) (16 + k % 6) = true ∧ t.get (CRL_STAT_STATE k) = st)) ∧
  ∀ (s : State) (n : Fin 2), s.angleRuns = true → s.hasCse n = true → s.get (CSE_CTL_PBREQ n) = 0 → s.get (CSE_STAT_PBPEND n) = 0 →
    let waits (i : Fin 6) : Bool := s.hasLoop (6 * n + i) && decide (2 ≤ s.get (CRL_STAT_STATE (6 * n + i)))
    ∃ t, exec (.programBankRequest n) s = .next t ∧ (∀ i : Fin 6, bitAt (t.get (CSE_STAT_PBPEND n)) i = waits i) ∧
      (∀ i : Fin 6, t.get (CRL_STAT_PBK (6 * n + i)) =
        if s.hasLoop (6 * n + i) && !waits i then 1 - s.get (CRL_STAT_PBK (6 * n + i)) else s.get (CRL_STAT_PBK (6 * n + i))) ∧
      (if ∃ i, waits i = true then t.get (CSE_CTL_PBREQ n) = 1 ∧ t.get (CSE_STAT_PBANK n) = s.get (CSE_STAT_PBANK n)
        else t.get (CSE_CTL_PBREQ n) = 0 ∧ t.get (CSE_STAT_PBANK n) = 1 - s.get (CSE_STAT_PBANK n) ∧ t.get (CSE_EVT_PBSW n) = 1)

/-! ### Pressure path (R172 to R192) -/

/-- PADC_CONVERSION_DONE, PADC_ENABLE, PADC_CALREQ, PADC_CAL_COMPLETE, PADC_CAL_ROTATION and SAMPLING_MARK. -/
def Obligations.PressureConverters : Prop :=
  (∀ (s : State) (k : Fin 4) (raw : Int) (x : Conv) (rest : List Conv) (v : Window), s.angleRuns = true →
    s.padc.queue k = x :: rest → x.more = false → x.fill = false → s.padc.window x.win = some v → x.idx + 1 ≠ padcN s →
    x.tb + 56 + 50 * x.ord ≤ s.now →
    ∃ t, exec (.padcConversionDone k raw) s = .next t ∧ t.padc.queue k = rest ∧
      sampleAt t (x.win / 2) v.seq x.idx =
        clampInt (-32768) 32767 (rndAway ((raw - s.geti (PADC_CORE_OFS k)) * s.get (PADC_CORE_GC k)) 32768) ∧
      (∀ a, a ≠ sampleAddr s (x.win / 2) v.seq x.idx → a ≠ sampleAddr s (x.win / 2) v.seq x.idx + 1 → t.byte a = s.byte a) ∧
      ∀ r, notPending r = true → t.rd r = s.rd r) ∧
  (∀ s : State, s.hasCae = true → s.get PADC_CFG_EN = 0 →
    (padcRefused s = false → exec .padcEnable s = .next (State.settle
      { (s.setb PADC_CFG_EN true).set PADC_LOAD_LOAD (padcLoad s) with padc := { s.padc with lastMark := none } })) ∧
    (padcRefused s = true → exec .padcEnable s = .next (State.settle (s.setb PADC_ERRINFO_PARAM true)))) ∧
  (∀ (s : State) (k : Fin 4), s.hasCae = true → s.get PADC_CAL_BUSY = 0 → s.get PADC_CAL_PEND = 0 →
    (s.get PADC_CFG_EN = 0 ∨ s.get PADC_LOAD_LOAD ≤ 9) →
    (s.clockOk 2 = false → ∃ t, exec (.padcCalreq k) s = .next t ∧ t.get PADC_CAL_BUSY = 0 ∧ bitAt (t.get PADC_CAL_FAIL) k = true ∧
      bitAt (t.get PADC_LOAD_INSVC) k = true ∧ bitAt (t.get PADC_CAL_CALREQ) k = false ∧ t.mem = s.mem) ∧
    (s.clockOk 2 = true → ∃ t, exec (.padcCalreq k) s = .next t ∧ t.get PADC_CAL_BUSY = 2 ^ k.val ∧ bitAt (t.get PADC_LOAD_INSVC) k = false ∧
      bitAt (t.get PADC_CAL_CALREQ) k = true ∧ t.padc.calTb = s.time ∧
      (∀ r, r ≠ Reg.PADC_CAL → r ≠ Reg.PADC_LOAD → notPending r = true → t.rd r = s.rd r) ∧ t.mem = s.mem)) ∧
  (∀ (s : State) (k : Fin 4) (z r : Int), bitAt (s.get PADC_CAL_BUSY) k = true → s.get PADC_CAL_PEND = 0 →
    s.padc.calTb + 600000 ≤ s.time →
    let ofs := rndAway z 4096
    let gc := if 0 < r - z then (rndAway (32768 * 29491 * 4096) (r - z).toNat).toNat else 0
    ∃ t, exec (.padcCalComplete k z r) s = .next t ∧ t.get PADC_CAL_BUSY = 0 ∧ bitAt (t.get PADC_LOAD_INSVC) k = true ∧
      bitAt (t.get PADC_CAL_CALREQ) k = false ∧
      (if s.clockOk 2 = true ∧ ofs.natAbs ≤ 512 ∧ 0x7800 ≤ gc ∧ gc ≤ 0x8800 then
        t.geti (PADC_CORE_OFS k) = ofs ∧ t.get (PADC_CORE_GC k) = gc ∧ bitAt (t.get PADC_CAL_DONE) k = true
      else t.geti (PADC_CORE_OFS k) = s.geti (PADC_CORE_OFS k) ∧ t.get (PADC_CORE_GC k) = s.get (PADC_CORE_GC k) ∧
        bitAt (t.get PADC_CAL_FAIL) k = true)) ∧
  (∀ s : State, s.hasCae = true → s.get PADC_CAL_ROTP ≠ 0 → s.padc.rotTb + 2000000 * s.get PADC_CAL_ROTP ≤ s.time →
    let k := s.padc.rotNext
    let res := padcCalRequest k s
    let t := { res.2 with padc := { res.2.padc with rotTb := s.time } }
    exec .padcCalRotation s = .next (State.settle
      (if res.1 = 0x0208 then t.set PADC_CAL_STARVED (t.get PADC_CAL_STARVED ||| 2 ^ k)
        else { t with padc := { t.padc with rotNext := (k + 1) % 4 } }))) ∧
  ∀ (s : State) (p : Nat), s.angleRuns = true → s.hasCae = true → s.get PADC_CFG_EN = 1 →
    s.get (AT_SSTAT_STATE (s.get PADC_CFG_TRK)) = 4 → s.get (AT_SSTAT_DIR (s.get PADC_CFG_TRK)) = 0 → s.padc.lastMark = some p →
    let u := trackerSync (s.get PADC_CFG_TRK) s
    let per := marksPerCycle s
    let k := markPlace s (angleOf u (s.get PADC_CFG_TRK))
    let d := (k + per - p) % per
    (d ≠ 0 → 2 * d < per → exec .samplingMark s = .next (State.settle
      (emitMarks ((List.range d).map fun i => (p + 1 + i) % per * padcSdiv s) { u with padc := { u.padc with lastMark := some k } }))) ∧
    (d = 0 → exec .samplingMark s = .next u.settle)

/-- CAE_RUN, CAE_STOP, CAE_FCLR, CAE_ANALYSIS_COMPLETE, CAE_ANALYSIS_TIMEOUT, KERNEL_BANK_REQUEST and PHASE_TRIM_REPLY. -/
def Obligations.CombustionAnalysis : Prop :=
  (∀ s : State, s.angleRuns = true → s.hasCae = true → s.get CAE_CTL_RUN = 0 →
    (s.get CAE_STAT2_STATE = 0 → caeRunFault s = none → padcN s ≤ 4096 →
      ∃ t, exec .caeRun s = .next t ∧ t.get CAE_CTL_RUN = 1 ∧ t.get CAE_STAT2_STATE = 1 ∧ t.cae.closed = [] ∧
        ∀ i, i < padcN s → t.word (volumeAddr i) = volumeOf s i) ∧
    (s.get CAE_STAT2_STATE ≠ 0 ∨ caeRunFault s ≠ none →
      exec .caeRun s = .next (State.settle (s.setb CAE_ERRINFO_PARAM true)))) ∧
  (∀ s : State, s.angleRuns = true → s.get CAE_STAT2_STATE = 1 →
    ∃ t, exec .caeStop s = .next t ∧ t.get CAE_CTL_RUN = 0 ∧ t.get CAE_STAT2_STATE = 0 ∧ t.cae.closed = []) ∧
  (∀ s : State, s.angleRuns = true → s.get CAE_STAT2_STATE = 2 →
    ∃ t, exec .caeFclr s = .next t ∧ t.get CAE_CTL_RUN = 0 ∧ t.get CAE_STAT2_STATE = 0) ∧
  (∀ (s : State) (c : Fin 24) (w : Closed) (rest : List Closed), s.angleRuns = true → s.sysClock = true →
    s.get CAE_STAT2_STATE = 1 → s.cae.closed = w :: rest → w.cyl = c → kernelEcc s = false →
    let ovspd := overspeed s w
    let ecc := !ovspd && slotEcc s w
    let f := if ovspd || ecc then {} else analysis (paramView s w) w
    ∃ t, exec (.caeAnalysisComplete c) s = .next t ∧ t.cae.closed = analysesBegin s rest ∧ t.get CAE_EVT_REC = 1 ∧
      t.get CAE_STAT_RWIDX = (s.get CAE_STAT_RWIDX + 1) % 512 ∧
      t.word (0x140E0000 + 64 * s.get CAE_STAT_RWIDX) = recordHead w f ovspd ecc ∧ t.get CAE_STAT2_STATE = 1) ∧
  (∀ (s : State) (c : Fin 24) (w : Closed), s.angleRuns = true → s.get CAE_STAT2_STATE = 1 → w ∈ s.cae.closed → w.cyl = c →
    w.tbStored + 8000 ≤ s.now →
    ∃ t, exec (.caeAnalysisTimeout c) s = .next t ∧ t.get CAE_STAT2_STATE = 2 ∧ t.get CAE_CTL_RUN = 0 ∧
      t.get CAE_ERRINFO_TOUT = 1 ∧ t.get CAE_EVT_FAULT = 1 ∧ t.cae.closed = []) ∧
  (∀ s : State, s.angleRuns = true → s.hasCae = true →
    (s.cae.closed = [] → ∃ t, exec .kernelBankRequest s = .next t ∧ t.get CAE_CTL_KBREQ = 0 ∧ t.get CAE_EVT_KBSW = 1 ∧
      t.get CAE_STAT2_KBANK = 1 - s.get CAE_STAT2_KBANK) ∧
    (s.cae.closed ≠ [] → exec .kernelBankRequest s = .next (State.settle (s.setb CAE_CTL_KBREQ true)))) ∧
  ∀ (s : State) (c : Fin 24) (st : BitVec 16), s.angleRuns = true → (s.phase c).reply = some st → s.get (CAE_CYLW3_PHST c) ≠ 0 →
      s.get CAE_STAT2_STATE ≠ 2 →
    let p := s.phase c
    (st = 0 ∨ st = 0x0310 → s.get (CAE_CYLW2_EVBV c) = 0 →
      exec (.phaseTrimReply c) s = .next (State.settle (State.seti
        ((s.putPhase c { p with reply := none }).putPhase c { p with reply := none, tc := p.written }) (CAE_CYLW3_TC c) p.written))) ∧
    (st = 0 ∨ st = 0x0310 → s.get (CAE_CYLW2_EVBV c) = 1 →
      let r := caeTrim (s.get (CAE_CYLW2_EVB c)) p.written (s.putPhase c { p with reply := none })
      (r.1 = 0 ∨ r.1 = 0x0310 → exec (.phaseTrimReply c) s = .next (State.settle (State.seti
        (r.2.putPhase c { p with reply := none, tc := p.written }) (CAE_CYLW3_TC c) p.written))) ∧
      (r.1 ≠ 0 → r.1 ≠ 0x0310 → ∃ t, exec (.phaseTrimReply c) s = .next t ∧ (t.phase c).tc = p.prevTc ∧ t.get CAE_EVT_PHREJ = 1)) ∧
    (st ≠ 0 → st ≠ 0x0310 → ∃ t, exec (.phaseTrimReply c) s = .next t ∧ t.get (CAE_CYLW3_PHST c) = 4 ∧ t.get CAE_EVT_PHREJ = 1 ∧
      t.get (CAE_CYLW3_TC c) = s.get (CAE_CYLW3_TC c) ∧ (t.phase c).tc = p.tc)

/-! ### Timers, housekeeping converter, comparators (R193 to R225) -/

/-- BREW_MASK_WRITE, GPT_PERIOD_END, GPT_COMPARE_EVENT, GPT_WIDTH_SATURATE, GPT_PER_IMMEDIATE, RING_BREW_WRITE and RING_BREW_START. -/
def Obligations.Timers : Prop :=
  (∀ (s : State) (mask : Word), s.angleRuns = true → ∃ t, exec (.brewMaskWrite mask) s = .next t ∧ t.mem = s.mem ∧ ∀ i : Fin 32,
    (mask.getLsbD i = true → t.get (GPTt_CTL_RUN i) = 1 ∧ gptCount t i = 0 ∧ (t.gpt i).per = s.rdn (Reg.GPTt_PER i) ∧
      (t.gpt i).ch0.cmp = s.rdn (Reg.GPTt_CMP i 0) ∧ (t.gpt i).ch1.cmp = s.rdn (Reg.GPTt_CMP i 1)) ∧
    (mask.getLsbD i = false → t.gpt i = s.gpt i ∧ t.rd (Reg.GPTt_CTL i) = s.rd (Reg.GPTt_CTL i))) ∧
  (∀ (s : State) (t : Fin 32), s.angleRuns = true → gptEndDue s t = true → exec (.gptPeriodEnd t) s = .next (State.settle
    (hadcTriggerAll 1 t (gptEndPeriod (gptCompare t 1 (gptCompare t 0 s)) t)))) ∧
  (∀ (s : State) (t : Fin 32), let u := gptEndPeriod s t
    u.get (GPTt_STAT_PEV t) = 1 ∧ (u.gpt t).base = 0 ∧ (u.gpt t).from_ = gptEndTb s t ∧ (u.gpt t).per = s.rdn (Reg.GPTt_PER t) ∧
    (u.gpt t).ch0.cmp = s.rdn (Reg.GPTt_CMP t 0) ∧ (u.gpt t).ch1.cmp = s.rdn (Reg.GPTt_CMP t 1) ∧
    u.get (GPTt_CTL_RUN t) = (if s.get (GPTt_CTL_MODE t) = 1 then 0 else s.get (GPTt_CTL_RUN t))) ∧
  (∀ (s : State) (t : Fin 32) (x : Fin 2), s.angleRuns = true → gptCompareDue s t x = true →
    let ch := (s.gpt t).chan x
    let u := (s.setb (GPTt_CSTAT_EVT t x) true).putGpt t
      ((s.gpt t).putChan x { ch with fired := !ch.zeroDue || ch.fired, zeroDue := false })
    (ch.zeroDue = false → gptCompareDue u t x = false) ∧
    exec (.gptCompareEvent t x) s = .next (State.settle (hadcTriggerAll 2 (2 * t + x) (if x = 0 then tdTrigger t u else u)))) ∧
  (∀ (s : State) (t : Fin 32) (x : Fin 2) (st : Nat), s.angleRuns = true → ((s.gpt t).chan x).widthFrom = some st →
    0xFFFFFFFF ≤ gptTicks s t s.now - gptTicks s t st → ((s.gpt t).chan x).queue.length < 4 →
    ∃ u, exec (.gptWidthSaturate t x) s = .next u ∧ u.get (GPTt_CSTAT_SAT t x) = 1 ∧ u.get (GPTt_CSTAT_EVT t x) = 1 ∧
      (u.gpt t).chan x = { (s.gpt t).chan x with widthFrom := none, queue := ((s.gpt t).chan x).queue ++ [0xFFFFFFFF] } ∧
      (∀ i, i ≠ t.val → u.gpt i = s.gpt i) ∧ u.mem = s.mem) ∧
  (∀ (s : State) (t : Fin 32) (v : Word), s.angleRuns = true →
    (v = 0 → ∃ u, exec (.gptPerImmediate t .per v) s = .next u ∧ u.get GPT_ERRINFO_PARAM = 1 ∧ u.get GPT_ERRINFO_TMR = t ∧
      u.rd (Reg.GPTt_PER t) = s.rd (Reg.GPTt_PER t) ∧ u.gpt t = s.gpt t) ∧
    (v ≠ 0 → ∃ u, exec (.gptPerImmediate t .per v) s = .next u ∧ u.rd (Reg.GPTt_PER t) = v ∧
      (u.gpt t).per = (if s.get (GPTt_CTL_IMM t) = 1 then v.toNat else (s.gpt t).per) ∧
      (∀ r, r ≠ Reg.GPTt_PER t → notPending r = true → u.rd r = s.rd r)) ∧
    (∃ u, exec (.gptPerImmediate t .cmp0 v) s = .next u ∧ u.rd (Reg.GPTt_CMP t 0) = v ∧
      (u.gpt t).ch0.cmp = (if s.get (GPTt_CTL_IMM t) = 1 then v.toNat else (s.gpt t).ch0.cmp) ∧ (u.gpt t).ch1 = (s.gpt t).ch1) ∧
    ∃ u, exec (.gptPerImmediate t .cmp1 v) s = .next u ∧ u.rd (Reg.GPTt_CMP t 1) = v ∧
      (u.gpt t).ch1.cmp = (if s.get (GPTt_CTL_IMM t) = 1 then v.toNat else (s.gpt t).ch1.cmp) ∧ (u.gpt t).ch0 = (s.gpt t).ch0) ∧
  ∀ s : State, s.angleRuns = true →
    (s.counts.carafe = false → exec .ringBrewWrite s = .next (State.settle (s.setb GPT_ERRINFO_PARAM true))) ∧
    (s.counts.carafe = true → ringBrewPending s = true → exec .ringBrewWrite s = .next (State.settle (s.setb GPT_BSTAT_RBBUSY true))) ∧
    (s.counts.carafe = true → ringBrewPending s = false → exec .ringBrewWrite s = .next (State.settle
      { s with ring := { s.ring with starts := s.ring.starts ++
        [{ kind := 0, target := 0, tbs := (s.now + 127) / 128 * 128 + 512, own := true, job := 0 }] } })) ∧
    (ringDue s 0 ≠ [] → exec .ringBrewStart s = .next (State.settle (gptBrewMask (s.rdn Reg.GPT_RBMSK) (ringTake 0 s)))) ∧
    (s.get RING_CTL_EN = 1 → ringBrewPending s = false →
      exec .ringBrewStart s = .next (State.settle (s.setb GPT_BSTAT_RBMISS true)))

/-- HADC_SWTRG, HADC_SEQ_STOP, HADC_ANGLE_TRIGGER, HADC_ENTRY_DELAY_END, HADC_CONVERSION_DONE, HADC_CALREQ, HADC_CAL_STEP,
HADC_CAL_STARVED and HADC_DISABLE. -/
def Obligations.HousekeepingConverter : Prop :=
  (∀ (s : State) (m : BitVec 4), s.get HADC_CTL_EN = 1 → ∃ t, exec (.hadcSwtrg m) s = .next t ∧ ∀ q : Fin 4,
    (m.getLsbD q = true → s.get (HADC_SEQCFG_EN q) = 1 → (s.seqOf q).active = false →
      (t.seqOf q).active = true ∧ (t.seqOf q).entry = s.get (HADC_SEQCFG_START q)) ∧
    (m.getLsbD q = true → s.get (HADC_SEQCFG_EN q) = 1 → (s.seqOf q).active = true →
      t.seqOf q = { s.seqOf q with gapUsed := (t.seqOf q).gapUsed } ∧ t.get (HADC_SEQSTAT_TOVR q) = 1) ∧
    (m.getLsbD q = false ∨ s.get (HADC_SEQCFG_EN q) = 0 → t.seqOf q = { s.seqOf q with gapUsed := (t.seqOf q).gapUsed })) ∧
  (∀ (s : State) (m : BitVec 4), ∃ t, exec (.hadcSeqStop m) s = .next t ∧ ∀ q : Fin 4, m.getLsbD q = true →
    (t.seqOf q).active = false ∨ (t.seqOf q).stop = true) ∧
  (∀ (s : State) (q : Fin 4), s.angleRuns = true → s.get (HADC_SEQCFG_TTYP q) = 4 → s.get (AT_PSTAT_HALT (s.get (HADC_SEQANG_TRK q))) = 0 →
    let n := s.get (HADC_SEQANG_TRK q)
    (synced (syncState s n) = false → exec (.hadcAngleTrigger q) s = .next (State.settle (seqAim q s))) ∧
    (synced (syncState s n) = true →
      (s.seqOf q).mark < (trackerAt s n s.now).travel - (pastBy s n (s.get (HADC_SEQANG_ANG q)) : Nat) →
      exec (.hadcAngleTrigger q) s = .next (State.settle (hadcTrigger q (seqAim q s))))) ∧
  (∀ (s : State) (q : Fin 4), (s.seqOf q).active = true → (s.seqOf q).ready = false → (s.seqOf q).held = false →
    (s.seqOf q).due ≤ s.time → s.get HADC_STAT_BUSY = 0 → s.get HADC_CTL_EN = 1 → s.clockOk 2 = true →
    (∀ r : Fin 4, r ≠ q → (s.seqOf r).active = false) →
    ∃ t, exec (.hadcEntryDelayEnd q) s = .next t ∧ t.get HADC_STAT_BUSY = 1 ∧ t.get HADC_STAT_ACTSEQ = q ∧
      t.hadc.convTb = s.time ∧ (t.seqOf q).begun = true ∧ (t.seqOf q).entry = (s.seqOf q).entry) ∧
  (∀ (s : State) (code : Int), s.get HADC_STAT_BUSY = 1 → s.hadc.paused = false → s.hadc.convTb + 100 ≤ s.time →
    let q := s.get HADC_STAT_ACTSEQ
    let x := s.seqOf q
    let sum := x.sum + entryCode s x.entry (applyCoef code (s.geti HADC_COEF_OFS) (s.get HADC_COEF_GC))
    (x.convs + 1 < 2 ^ s.get (HADC_ENT_RPT x.entry) → x.stop = false → exec (.hadcConversionDone code) s = .next (State.settle
      (State.putSeq { s with hadc := { s.hadc with convTb := s.hadc.convTb + 100, paused := !s.clockOk 2 } } q { x with convs := x.convs + 1, sum := sum }))) ∧
    (2 ^ s.get (HADC_ENT_RPT x.entry) ≤ x.convs + 1 → x.entry < 32 →
      ∃ t, exec (.hadcConversionDone code) s = .next t ∧ t.get (HADC_RES_NEW x.entry) = 1 ∧
        t.get (HADC_RES_CH x.entry) = s.get (HADC_ENT_CH x.entry) ∧
        t.get (HADC_RES_VALUE x.entry) = codeOf 16 (if s.get (HADC_ENT_ALIGN x.entry) = 1 then entryResult s x.entry sum * 16
          else entryResult s x.entry sum) ∧
        (s.get (HADC_RES_NEW x.entry) = 1 → t.get (HADC_RES_OVW x.entry) = 1) ∧
        (x.entry = s.get (HADC_SEQCFG_END q) → t.get (HADC_SEQSTAT_DONE q) = 1))) ∧
  (∀ s : State,
    (s.get HADC_STAT_CALST ≠ 1 → ∃ t, exec .hadcCalreq s = .next t ∧ t.get HADC_STAT_CALST = 1 ∧ t.get HADC_STAT_CALSTEP = 0 ∧
      t.get HADC_CTL_CALREQ = 1 ∧ t.hadc.zeroSum = 0 ∧ t.hadc.refSum = 0 ∧ t.hadc.calTb = s.time) ∧
    (∀ code : Int, s.get HADC_STAT_CALST = 1 → s.clockOk 2 = true → inGap s = true → max s.hadc.calTb (gapFrom s) + 100 ≤ s.time →
      let step := s.get HADC_STAT_CALSTEP
      (step < 31 → ∃ t, exec (.hadcCalStep code) s = .next t ∧ t.get HADC_STAT_CALSTEP = step + 1 ∧ t.get HADC_STAT_CALST = 1 ∧
        t.hadc.calTb = s.time ∧
        t.hadc.zeroSum = (if step < 16 then s.hadc.zeroSum + code else s.hadc.zeroSum) ∧
        t.hadc.refSum = (if step < 16 then s.hadc.refSum else s.hadc.refSum + code)) ∧
      (step = 31 → ∃ t, exec (.hadcCalStep code) s = .next t ∧ t.get HADC_STAT_CALX = 1 ∧ t.get HADC_CTL_CALREQ = 0 ∧
        let ofs := calOfs 16 s.hadc.zeroSum
        let gc := calGain 16 2731 s.hadc.zeroSum (s.hadc.refSum + code)
        if ofs < -64 ∨ 64 < ofs ∨ gc < 0x7800 ∨ 0x8800 < gc then
          t.get HADC_STAT_CALST = 3 ∧ t.rd Reg.HADC_COEF = s.rd Reg.HADC_COEF
        else t.get HADC_STAT_CALST = 2 ∧ t.geti HADC_COEF_OFS = ofs ∧ (t.get HADC_COEF_GC : Int) = gc)) ∧
    (s.get HADC_STAT_CALST = 1 → s.hadc.calTb + 2000000 ≤ s.time →
      exec .hadcCalStarved s = .next (State.settle (s.setb HADC_STAT_CALSTRV true))) ∧
    (s.get HADC_CTL_EN = 0 → exec .hadcDisable s = .next s.settle) ∧
    (s.get HADC_CTL_EN = 1 → ∃ t, exec .hadcDisable s = .next t ∧ t.get HADC_CTL_EN = 0 ∧ t.get HADC_CTL_CALREQ = 0 ∧ t.get HADC_STAT_BUSY = 0 ∧
      (∀ q : Fin 4, (t.seqOf q).active = false) ∧ (s.get HADC_STAT_CALST = 1 → t.get HADC_STAT_CALST = 0)))

/-- COMPARATOR_CROSSING, COMPARATOR_ENABLE and THRESHOLD_WRITE. -/
def Obligations.Comparators : Prop :=
  ∀ (s : State) (n : Fin 48) (x : Int),
    let old := s.flag (CMP_STAT_OUT n)
    let out (else_ : Bool) : Bool := if (cmpHigh s n : Int) < x then true else if x < (cmpLow s n : Int) then false else else_
    (cmpPowered s n = true → (s.cmp n).fresh = false → cmpLoop s n = false →
      ∃ t, exec (.comparatorCrossing n x) s = .next t ∧ t.flag (CMP_STAT_OUT n) = out old ∧ (t.cmp n).input = x ∧
        (old = false → out old = true → s.get (CMP_CFG_EDGE n) = 0 ∨ s.get (CMP_CFG_EDGE n) = 2 → (s.time + 3, true) ∈ (t.cmp n).edges) ∧
        (old = true → out old = false → s.get (CMP_CFG_EDGE n) = 1 ∨ s.get (CMP_CFG_EDGE n) = 2 → (s.time + 3, false) ∈ (t.cmp n).edges)) ∧
    (cmpLoop s n = true → cmpPresent s n = true → (s.cmp n).fresh = false → s.angleRuns = true →
      (cmpInput n x s).flag (CMP_STAT_OUT n) = out old ∧
      exec (.comparatorCrossing n x) s = .next (State.settle (regulate ((n - 4) / 2) (cmpInput n x s)))) ∧
    (∀ rising : Bool, let f := if rising then CMP_LAT_RISE n else CMP_LAT_FALL n
      (s.get f = 0 → (cmpLatch n rising s).get f = 1) ∧ (s.get f = 1 → cmpLatch n rising s = s.tally (CMP_STAT_ELOST n))) ∧
    (cmpPresent s n = true → s.get (CMP_CFG_EN n) = 0 → cmpLoop s n = false →
      s.get CPR_PWRSTAT_STATE < 3 ∨ s.get (CMP_CFG_AON n) = 1 →
      ∃ t, exec (.comparatorEnable n x) s = .next t ∧ t.get (CMP_CFG_EN n) = 1 ∧ (t.cmp n).input = x ∧ (t.cmp n).fresh = false ∧
        t.flag (CMP_STAT_OUT n) = out (s.flag (CMP_CFG_PUS n))) ∧
    ∀ v : Word, cmpPresent s n = true →
      (thrOk n v = true → ∃ t, exec (.thresholdWrite n v) s = .next t ∧ t.get (CMP_THR_THRH n) = bitsAt v.toNat 16 10 ∧
        t.get (CMP_THR_THRL n) = bitsAt v.toNat 0 10 ∧ t.mem = s.mem) ∧
      (thrOk n v = false → exec (.thresholdWrite n v) s = .next (State.settle (s.setb CMP_ERRINFO_PARAM true)))

/-! ### Requests: mailboxes, chains, ports (R226 to R247, R410 to R418)

`Accepted q s u`: request `q` is executed at once, on the state `u`. `Replies c q s a t`: the command gives it the answer `a`. -/

/-- MAILBOX_WRITE, CHAIN_TIMEOUT, PERC_WRITE_GROUP, STAGED_WRITE_APPLY, and what a reply to a mailbox is. -/
def Obligations.RequestPath : Prop :=
  (∀ (s : State) (b : Fin 5) (w : Word), boxOpen s b = false → exec (.mailboxWrite b w) s = .next s.settle) ∧
  (∀ (s : State) (b : Fin 5) (w : Word), listening s (.mailbox b) = true →
    s.get (Q_CFG_EN (2 * b)) = 1 → queueProducer s (2 * b) (boxMid b) = true → s.get (Q_CFG_MODE (2 * b)) = 0 →
    (s.queue (2 * b)).items = [] → (s.queue (2 * b)).cred ≠ 0 →
    (boxRequest b (s.box b ++ [w]) = none → ∃ t, exec (.mailboxWrite b w) s = .next t ∧ t.box b = s.box b ++ [w] ∧
      (t.queue (2 * b)).items = [] ∧ (∀ r, notPending r = true → t.rd r = s.rd r) ∧ t.mem = s.mem) ∧
    (∀ r, boxRequest b (s.box b ++ [w]) = some r → s.box (8 + b) = [] → bitAt r.flg.toNat 7 = false →
      exec (.mailboxWrite b w) s = .next (State.settle (((packet r
        (queueTake (2 * b) (queuePushTag (boxMid b) (2 * b) w 0 s)).2).putBox b []).putBox (8 + b) [])))) ∧
  (∀ (s : State) (x : Source) (c : Chain), chainOf s x = some c → c.lastTb + 200000 < s.time → exec (.chainTimeout x) s =
    .next (State.settle (answerAll (c.reqs.map fun r => (r, { status := 0x0202 })) (dropChain c.src s)))) ∧
  (∀ s : State, s.perc.running = true → s.get CPR_PWRSTAT_STATE < 3 → s.gnorum.slow ≠ [] → exec .percWriteGroup s = .next (State.settle
    (updPoll (perform (firstGroup s.gnorum.slow).1
      (requestsTake { s with gnorum := { s.gnorum with slow := (firstGroup s.gnorum.slow).2 } }))))) ∧
  (∀ (s : State) (n : Fin 4), s.angleRuns = true → s.get (AT_SSTAT_STATE n) ≠ 4 →
    let mine := (s.gnorum.staged.filter fun x => x.1 == n.val).map (·.2)
    exec (.stagedWriteApply n) s = .next (State.settle (calibTake (fun c => c.unit == 7 && chanTrk s c.part == n) (runGroups mine.length mine
      { s with gnorum := { s.gnorum with staged := s.gnorum.staged.filter fun x => x.1 != n.val } })))) ∧
  ∀ (s : State) (r : Req) (a : Ans) (b : Fin 5), r.src = .mailbox b → bitAt r.flg.toNat 1 = false →
    s.get (Q_CFG_EN (2 * b + 1)) = 1 → queueProducer s (2 * b + 1) 16 = true → s.get (Q_CFG_MODE (2 * b + 1)) = 0 →
    a.words.length + 3 ≤ (s.queue (2 * b + 1)).cred → (∀ x ∈ s.gnorum.late, x.src ≠ r.src) → (r.opc = 0x68 → a.status ≠ 0) →
    let t := answer r a s
    ((t.queue (2 * b + 1)).items.map (·.data)) = ((s.queue (2 * b + 1)).items.map (·.data)) ++
      [r.seq ++ ((0x80 : BitVec 8) ++ r.opc), r.sess ++ (r.unit ++ BitVec.ofNat 16 (a.words.length + 1)),
       BitVec.ofNat 16 a.detail ++ BitVec.ofNat 16 a.status] ++ a.words ∧
    (t.queue (2 * b + 1)).cred = (s.queue (2 * b + 1)).cred - (a.words.length + 3) ∧ (∀ x, t.rd x = s.rd x) ∧ t.mem = s.mem

/-- The commands of the host SPI, Ethernet, CAN FD and UART ports. -/
def Obligations.ExternalPorts : Prop :=
  (∀ (s : State) (p : Fin 2) (n : Nat) (body : List Byte), listening s (.hspi p) = true → body.length = n + 4 → 8 ≤ n → n ≤ 1016 →
    exec (.hspiRequestTransaction p (0x47#8 :: BitVec.ofNat 8 n :: BitVec.ofNat 8 (n / 256) :: body)) s =
      .next (State.settle (portPacket (.hspi p) p body s))) ∧
  (∀ (s : State) (src : Source) (k : Nat) (body crc : List Byte), 8 ≤ body.length → crc.length = 4 → crc ≠ wordBytes (crc32c body) →
    portTake k src (body ++ crc) s = portCrc k s) ∧
  (∀ (s : State) (src : Source) (k : Nat) (bs : List Byte),
    portPacket src k bs s = if (s.port k).rx.length < 8 then s.putPort k { s.port k with rx := (s.port k).rx ++ [(src, bs)] }
      else portFull k s) ∧
  (∀ (s : State) (src : Source) (k : Nat) (body : List Byte) (r : Req), 8 ≤ body.length → packetRequest src body = some r →
    portTake k src (body ++ wordBytes (crc32c body)) s = arrive r s) ∧
  (∀ (s : State) (p : Fin 2), listening s (.hspi p) = true → exec (.hspiReadTransaction p true) s = .next (State.settle
    (s.putPort p { s.port p with out := hspiBytes (s.port p).replies.head?, replies := (s.port p).replies.drop 1 })) ∧
    exec (.hspiReadTransaction p false) s = .next (State.settle
      (s.putPort p { s.port p with out := hspiBytes (s.port p).replies.head? }))) ∧
  (∀ (s : State) (p : Fin 2) (f : EthFrame), listening s (.eth p 0 0) = true →
    (f.badFcs = true → exec (.ethFrameReceive p f) s = .next (State.settle (portDisc (2 + p) s))) ∧
    (∀ a, f.badFcs = false → f.kind = .arp a → a = s.gnorum.ip → exec (.ethFrameReceive p f) s = .next (State.settle
      (s.putPort (2 + p) { s.port (2 + p) with hwTx := (s.port (2 + p)).hwTx + 1 })))) ∧
  (∀ (s : State) (p : Fin 2) (x : Reply) (rest : List Reply), listening s (.eth p 0 0) = true → (s.port (2 + p)).replies = x :: rest →
    exec (.ethFrameTransmit p) s = .next (State.settle (s.putPort (2 + p)
      { s.port (2 + p) with replies := rest, out := replyPacket x, outTo := requester x.src }))) ∧
  (∀ (s : State) (p : Fin 4) (f : CanFrame) (bs : List Byte), listening s (.can p) = true →
    f.id.toNat = s.get (CAN_GREQ_GREQ p) → f.ide = s.flag (CAN_GID_IDE p) → f.fd = true → f.data = 0x40#8 :: bs → bs.length = 63 →
    (s.port (4 + p)).part = none → exec (.canFrameReceive p f) s = .next (State.settle
      (s.putPort (4 + p) { s.port (4 + p) with part := some (bs, 1, s.time) }))) ∧
  (∀ (s : State) (p : Fin 4) (got : List Byte) (k last : Nat), (s.port (4 + p)).part = some (got, k, last) → last + 2000000 < s.time →
    exec (.canReassemblyTimeout p) s = .next (State.settle (portDisc (4 + p) (s.putPort (4 + p) { s.port (4 + p) with part := none })))) ∧
  (∀ (s : State) (p : Fin 4) (x : Reply) (rest : List Reply), listening s (.can p) = true → (s.port (4 + p)).replies = x :: rest →
    exec (.canFrameTransmit p) s = .next (State.settle (s.putPort (4 + p)
      (if replyFrames x ≤ (s.port (4 + p)).sent + 1 then
        { s.port (4 + p) with replies := rest, sent := 0, out := canBytes x (s.port (4 + p)).sent }
      else { s.port (4 + p) with sent := (s.port (4 + p)).sent + 1, out := canBytes x (s.port (4 + p)).sent })))) ∧
  (∀ (s : State) (p : Fin 2) (bytes rest : List Byte) (a : Byte), listening s (.uart p false) = true → unescape bytes = some (a :: rest) →
    (a.toNat = s.get (UART_ADDR_ADDR p) → a ≠ 0xFF → exec (.uartFrameReceive p bytes false) s =
      .next (State.settle (portPacket (.uart p false) (14 + p) rest s))) ∧
    exec (.uartFrameReceive p bytes true) s = .next (State.settle (portDisc (14 + p) s))) ∧
  ∀ (s : State) (p : Fin 2), listening s (.uart p false) = true →
    ((s.port (14 + p)).replies = [] → exec (.uartReplySend p) s = .next s.settle) ∧
    ∀ x rest, (s.port (14 + p)).replies = x :: rest → exec (.uartReplySend p) s = .next (State.settle
      (s.putPort (14 + p) { s.port (14 + p) with replies := rest, out := uartBytes (BitVec.ofNat 8 (s.get (UART_ADDR_ADDR p))) x }))

/-! ### Opcodes (R248 to R266)

`r` is any request, `q o` the same request with the row's opcode `o`; `s` the state in which it is accepted and `u` the state on which it
is executed. -/

/-- PING, INFO, STATUS, REG_READ, REG_WRITE, JOB_QUERY and RESET_UNIT. -/
def Obligations.SystemOpcodes : Prop :=
  ∀ (r : Req) (s u : State), let q (o : BitVec 8) : Req := { r with opc := o }
    let x := u.job (r.word 0 % 16)
    let mid := reqMid u r.src
    let a := busAddr mid (r.word 0)
    let val := maskedValue u a (r.word 1) (r.word 2)
    let part := (placeOf 15 a == .bytes || angleMemory a) && r.word 2 != 0xFFFFFFFF
    let u1 := if part then readMeet a u else u
    let reads (t : State) : Word := (readWord t 15 a).elim (fun _ => 0) id
    AllAnswered r s u [(.ping r, 0x00), (.info r, 0x01), (.status r, 0x02), (.regRead r, 0x03), (.regWrite r, 0x04), (.jobQuery r, 0x05),
      (.resetUnit r, 0x06)] ∧
    (Accepted (q 0x00) s u → RepliesOk (.ping r) (q 0x00) s [u.tb.extractLsb' 0 32, u.tb.extractLsb' 32 32] u) ∧
    (Accepted (q 0x01) s u → ∃ rom p va vb t, RepliesOk (.info r) (q 0x01) s
      [peek u Reg.CPR_PARTID, rom, p, va, vb, BitVec.ofNat 32 u.fuses.dbg.toNat] t ∧ { t with draws := u.draws } = u) ∧
    (Accepted (q 0x02) s u → RepliesOk (.status r) (q 0x02) s
      [halves (trackerHalf u 0) (trackerHalf u 1), halves (trackerHalf u 2) (trackerHalf u 3),
       BitVec.ofNat 32 (u.get CPR_DPXSTAT_ACT + 2 * (pairInService u 0).toNat + 4 * (pairInService u 1).toNat + 8 * (coasting u).toNat),
       BitVec.ofNat 32 (u.get KTL_STAT_SAFE + 256 * bitsAt (peek u Reg.KTL_STAT).toNat 24 8), u.rd Reg.SCH_OUTENL, u.rd Reg.SCH_OUTENH] u) ∧
    (Accepted (q 0x03) s u → 1 ≤ r.word 1 → r.word 1 ≤ 64 →
      (∀ ws, peekWords u mid (wordAddrs a (r.word 1)) 0 = .inr ws →
        RepliesOk (.regRead r) (q 0x03) s ws (readsMeet (wordAddrs a (r.word 1)) u)) ∧
      (∀ st i, peekWords u mid (wordAddrs a (r.word 1)) 0 = .inl (st, i) → RepliesStatus (.regRead r) (q 0x03) s st
        (readsMeet ((wordAddrs a (r.word 1)).take (if st = 0x0601 then i + 1 else i)) u))) ∧
    (Accepted (q 0x03) s u → (r.word 1 = 0 ∨ 64 < r.word 1) → RepliesStatus (.regRead r) (q 0x03) s 0x0105 u) ∧
    (Accepted (q 0x04) s u → mayWrite u mid a = false → mayClear u a = false → RepliesStatus (.regWrite r) (q 0x04) s 0x0402 u) ∧
    (Accepted (q 0x04) s u → mayWrite u mid a = false → mayClear u a = true →
      let t := (wordWrite mid a (r.word 1 &&& r.word 2) u).2
      RepliesOk (.regWrite r) (q 0x04) s [reads t] t) ∧
    (Accepted (q 0x04) s u → mayWrite u mid a = true → part = true → wordBad u a = true →
      RepliesStatus (.regWrite r) (q 0x04) s 0x0601 u1) ∧
    (Accepted (q 0x04) s u → mayWrite u mid a = true → placeOf 15 a ≠ .bytes → part = false ∨ wordBad u a = false →
      let w := imageWrite a val u1
      (w.1 = false → silentRefusal a val u1 w.2 = false → RepliesOk (.regWrite r) (q 0x04) s [reads w.2] w.2) ∧
      (w.1 = true ∨ silentRefusal a val u1 w.2 = true → RepliesStatus (.regWrite r) (q 0x04) s 0x0105 w.2)) ∧
    (Accepted (q 0x04) s u → mayWrite u mid a = true → placeOf 15 a = .bytes → part = false ∨ wordBad u a = false →
      let w := busWrite 15 a .word (BitVec.ofNat 32 val) u1
      (w.1 = true → RepliesOk (.regWrite r) (q 0x04) s [reads w.2] w.2) ∧
      (w.1 = false → RepliesStatus (.regWrite r) (q 0x04) s 0x0105 w.2)) ∧
    (Accepted (q 0x05) s u → x.st = .free → RepliesOk (.jobQuery r) (q 0x05) s [0, 0] u) ∧
    (Accepted (q 0x05) s u → x.st = .running ∨ x.st = .ended ∧ x.endTb = u.time → x.owner = r.src →
      RepliesOk (.jobQuery r) (q 0x05) s [BitVec.ofNat 32 (1 + x.opc.toNat * 65536), 0] u) ∧
    (Accepted (q 0x05) s u → x.st = .ended → x.endTb ≠ u.time → x.owner = r.src →
      RepliesOk (.jobQuery r) (q 0x05) s [BitVec.ofNat 32 (2 + x.opc.toNat * 65536), x.detail ++ x.status] (u.putJob (r.word 0 % 16) {})) ∧
    (Accepted (q 0x05) s u → x.st ≠ .free → x.owner ≠ r.src → RepliesStatus (.jobQuery r) (q 0x05) s 0x0105 u) ∧
    (Accepted (q 0x06) s u → r.u = 2 → Replies (.resetUnit r) (q 0x06) s { status := 0, after := .restart } u) ∧
    (Accepted (q 0x06) s u → r.u < 2 → pairInService u r.u = true → pairInService u (1 - r.u) = false → bitAt (r.word 0) 0 = false →
      RepliesStatus (.resetUnit r) (q 0x06) s 0x0218 u) ∧
    (Accepted (q 0x06) s u → r.u < 2 → pairInService u r.u = false ∨ pairInService u (1 - r.u) = true ∨ bitAt (r.word 0) 0 = true →
      RepliesOk (.resetUnit r) (q 0x06) s [] (pairRestart r.u u))

/-- TRK_CFG, TRK_EN, WHEEL_STAGE, WHEEL_LOAD, WHEEL_SWITCH, SYNC_CTL, CORR_LOAD, PROF_LOAD, TRK_READ, PSTORE_READ, TI_CFG, TI_READ. -/
def Obligations.TrackerOpcodes : Prop :=
  ∀ (r : Req) (s u : State), let q (o : BitVec 8) : Req := { r with opc := o }
    let n := r.u
    let act := u.get (AT_WCFG_ACTSEL n)
    let param : State := u.setb (AT_ERRINFO_PARAM n) true
    let cfg := [Reg.AT_SCFG n, Reg.AT_CAMCFG n, Reg.AT_PCFG n, Reg.AT_GSPD n, Reg.AT_WIN0 n, Reg.AT_WIN1 n, Reg.AT_WIN2 n, Reg.AT_RVOFS n,
      Reg.AT_LCFG n, Reg.AT_FF n, Reg.AT_WREF n]
    let on := u.flag (AT_CTL_EN n)
    AllAnswered r s u [(.trkCfg r, 0x10), (.trkEn r, 0x11), (.wheelStage r, 0x12), (.wheelLoad r, 0x13), (.wheelSwitch r, 0x14),
      (.syncCtl r, 0x15), (.corrLoad r, 0x16), (.profLoad r, 0x17), (.trkRead r, 0x18), (.pstoreRead r, 0x19), (.tiCfg r, 0x1A),
      (.tiRead r, 0x1B)] ∧
    (∀ k, Accepted (q 0x10) s u → writeImages u 0 ((q 0x10).images 0 cfg) (u.setb (AT_CTL_EN n) false) = .inl k →
      Replies (.trkCfg r) (q 0x10) s { status := 0x0105, detail := k.1 } k.2) ∧
    (∀ t, Accepted (q 0x10) s u → writeImages u 0 ((q 0x10).images 0 cfg) (u.setb (AT_CTL_EN n) false) = .inr t →
      RepliesImages (.trkCfg r) (q 0x10) s u 0 cfg cfg fun i =>
      if i = 0 ∧ on = true ∧ changes u [AT_SCFG_DIRSRC n, AT_SCFG_DIRTRK n] (r.word 0) = true ∨
        i = 1 ∧ on = true ∧ changes u [AT_CAMCFG_CAMSRC n] (r.word 1) = true then 0x0210 else 0x0105) ∧
    (Accepted (q 0x11) s u → bitAt (r.word 0) 0 = true → on = true ∨ wheelRefusal u n act = 0 →
      let t := ownTracking n (trackerEnable n) u
      RepliesOk (.trkEn r) (q 0x11) s [peek t (Reg.AT_SSTAT n)] t) ∧
    (Accepted (q 0x11) s u → bitAt (r.word 0) 0 = true → on = false → wheelRefusal u n act ≠ 0 →
      RepliesStatus (.trkEn r) (q 0x11) s (wheelRefusal u n act) param) ∧
    (Accepted (q 0x11) s u → bitAt (r.word 0) 0 = false → let t := ownTracking n (trackerDisable n) u
      RepliesOk (.trkEn r) (q 0x11) s [peek t (Reg.AT_SSTAT n)] t) ∧
    (Accepted (q 0x12) s u → 1 ≤ bitsAt (r.word 0) 16 13 → bitsAt (r.word 0) 16 13 ≤ 124 →
      bitsAt (r.word 0) 0 12 + bitsAt (r.word 0) 16 13 ≤ 4096 → stagingHeld u r.src = false →
      ∃ t, RepliesOk (.wheelStage r) (q 0x12) s [] t ∧ t.gnorum.staging.owner = some r.src ∧ t.gnorum.staging.lastTb = u.time ∧
        (∀ i, i < bitsAt (r.word 0) 16 13 → stagedEntry t (bitsAt (r.word 0) 0 12 + i) =
          (r.params.getD (1 + 2 * i) 0, r.params.getD (2 + 2 * i) 0)) ∧
        ({ t with gnorum := { t.gnorum with staging := u.gnorum.staging } } : State) = u) ∧
    (Accepted (q 0x12) s u → 1 ≤ bitsAt (r.word 0) 16 13 → bitsAt (r.word 0) 16 13 ≤ 124 →
      bitsAt (r.word 0) 0 12 + bitsAt (r.word 0) 16 13 ≤ 4096 → stagingHeld u r.src = true →
      RepliesStatus (.wheelStage r) (q 0x12) s 0x0206 u) ∧
    (Accepted (q 0x12) s u → bitsAt (r.word 0) 16 13 = 0 ∨ 124 < bitsAt (r.word 0) 16 13 ∨
      4096 < bitsAt (r.word 0) 0 12 + bitsAt (r.word 0) 16 13 → RepliesStatus (.wheelStage r) (q 0x12) s 0x0105 u) ∧
    (Accepted (q 0x13) s u → stagingHeld u r.src = true → RepliesStatus (.wheelLoad r) (q 0x13) s 0x0206 u) ∧
    (Accepted (q 0x13) s u → stagingHeld u r.src = false →
      let w0 := r.word 0
      let pend := bitAt w0 30
      let w : Wheel := { base := bitsAt w0 0 13, cnt := bitsAt w0 16 13, span720 := bitAt w0 31, ngap := r.word 1 }
      let es := (List.range w.cnt).map (stagedEntry u)
      let v : State := { u with gnorum := { u.gnorum with staging := { u.gnorum.staging with owner := none } } }
      (∀ i, checkWheel w.span720 (u.flag (AT_WCFG_CYCLE n)) es = some i →
        Replies (.wheelLoad r) (q 0x13) s { status := 0x0120, detail := i } v) ∧
      (checkWheel w.span720 (u.flag (AT_WCFG_CYCLE n)) es = none → loadConflict v n w pend = true →
        RepliesStatus (.wheelLoad r) (q 0x13) s 0x0121 v) ∧
      (checkWheel w.span720 (u.flag (AT_WCFG_CYCLE n)) es = none → loadConflict v n w pend = false →
        (if pend then u.get (AT_WCFG_SWREQ n) else u.get (AT_CTL_EN n)) = 1 →
        RepliesStatus (.wheelLoad r) (q 0x13) s 0x0210 (v.setb (AT_ERRINFO_PARAM n) true)) ∧
      (checkWheel w.span720 (u.flag (AT_WCFG_CYCLE n)) es = none → loadConflict v n w pend = false →
        (if pend then u.get (AT_WCFG_SWREQ n) else u.get (AT_CTL_EN n)) = 0 →
        let x := putWheel n (if pend then 1 - act else act) w0 (r.word 1) es v
        Replies (.wheelLoad r) (q 0x13) s x.1 x.2)) ∧
    (Accepted (q 0x14) s u → wheelRefusal u n (1 - act) = 0 → u.get (AT_WCFG_SWREQ n) = 0 → RepliesJob (.wheelSwitch r) (q 0x14) s u fun j v =>
      ownTracking n (fun w => switchRequest n (w.putTrk n { w.trk n with switchJob := j })) v) ∧
    (Accepted (q 0x14) s u → wheelRefusal u n (1 - act) ≠ 0 → RepliesStatus (.wheelSwitch r) (q 0x14) s (wheelRefusal u n (1 - act)) param) ∧
    (Accepted (q 0x14) s u → wheelRefusal u n (1 - act) = 0 → u.get (AT_WCFG_SWREQ n) = 1 →
      RepliesStatus (.wheelSwitch r) (q 0x14) s 0x0206 u) ∧
    (∀ k : Fin 4, Accepted (q 0x15) s u → r.word 0 = 2 ^ k.val → k.val < 2 ∨ u.get (AT_SSTAT_STATE n) = 3 →
      RepliesWrites (.syncCtl r) (q 0x15) s u 0 [(Reg.AT_SCTL n, 2 ^ k.val)] [Reg.AT_SSTAT n] fun _ => 0x0105) ∧
    (∀ k : Fin 4, Accepted (q 0x15) s u → r.word 0 = 2 ^ k.val → 2 ≤ k.val → u.get (AT_SSTAT_STATE n) ≠ 3 →
      RepliesStatus (.syncCtl r) (q 0x15) s 0x0201 u) ∧
    (Accepted (q 0x15) s u → (∀ k : Fin 4, r.word 0 ≠ 2 ^ k.val) → RepliesStatus (.syncCtl r) (q 0x15) s 0x0105 u) ∧
    (Accepted (q 0x16) s u → 1 ≤ bitsAt (r.word 0) 16 9 → bitsAt (r.word 0) 16 9 ≤ 496 →
      bitsAt (r.word 0) 0 12 + bitsAt (r.word 0) 16 9 ≤ (activeWheel u n).cnt →
      RepliesOk (.corrLoad r) (q 0x16) s [] (learnRestart n (upTo (bitsAt (r.word 0) 16 9) (fun i v =>
        let e := (activeWheel u n).base + bitsAt (r.word 0) 0 12 + i
        let c := bitsAt (r.word (1 + i / 2)) (16 * (i % 2)) 16
        if e < 8192 then (toothWrite e true (c * 65536 + v.rdn (toothAddr e + 4) % 65536) v).2 else v) u))) ∧
    (Accepted (q 0x17) s u → 1 ≤ bitsAt (r.word 0) 16 7 → bitsAt (r.word 0) 16 7 ≤ 124 →
      bitsAt (r.word 0) 0 11 + bitsAt (r.word 0) 16 7 ≤ 2048 →
      let slots := wordAddrs (0x50000000 + n * 0x10000 + 0x4000 + 8 * bitsAt (r.word 0) 0 11) (2 * bitsAt (r.word 0) 16 7)
      let imgs := (q 0x17).images 1 slots
      let absent := imgs.findIdx? fun x => x.1 % 8 == 4 && Nat.ble u.counts.maxCyl (x.2 % 32) && Nat.blt (x.2 % 32) 24
      (absent = none → RepliesImages (.profLoad r) (q 0x17) s u 1 slots [] fun _ => 0x0105) ∧
      ∀ i, absent = some i →
        (∀ k, writeImages u 1 (imgs.take i) u = .inl k → Replies (.profLoad r) (q 0x17) s { status := 0x0105, detail := k.1 } k.2) ∧
        ∀ t, writeImages u 1 (imgs.take i) u = .inr t → Replies (.profLoad r) (q 0x17) s { status := 0x0105, detail := 1 + i } u) ∧
    (Accepted (q 0x18) s u → RepliesOk (.trkRead r) (q 0x18) s (peeks u [Reg.AT_ANG n, Reg.AT_RATE n, Reg.AT_ACC n, Reg.AT_SSTAT n,
      Reg.AT_SFLT n, Reg.AT_PSTAT n, Reg.AT_TPER n, Reg.AT_PEXP n, Reg.AT_CFLT n, Reg.AT_WVAL n]) u) ∧
    (Accepted (q 0x19) s u → 1 ≤ bitsAt (r.word 0) 16 8 → bitsAt (r.word 0) 16 8 ≤ 248 →
      bitsAt (r.word 0) 0 12 + bitsAt (r.word 0) 16 8 ≤ 4096 → u.ecc = [] → RepliesOk (.pstoreRead r) (q 0x19) s
        (peeks u (wordAddrs (0x50050000 + n * 0x4000 + 4 * bitsAt (r.word 0) 0 12) (bitsAt (r.word 0) 16 8))) u) ∧
    (Accepted (q 0x1A) s u → u.get (TI_CFG_LOCK n) = 0 →
      (∀ k, writeImages u 1 ((Req.images (q 0x1A) 0 (inputRegs n)).drop 1) u = .inl k →
        Replies (.tiCfg r) (q 0x1A) s { status := 0x0105, detail := k.1 } k.2) ∧
      ∀ v, writeImages u 1 ((Req.images (q 0x1A) 0 (inputRegs n)).drop 1) u = .inr v →
        (∀ k, writeImages v 0 [(Reg.TI_CFG n, r.word 0)] v = .inl k → Replies (.tiCfg r) (q 0x1A) s { status := 0x0105, detail := k.1 }
          (reportInput n (inWord (TI_CFG_DEST n) (r.word 0)) k.2 u)) ∧
        ∀ t, writeImages v 0 [(Reg.TI_CFG n, r.word 0)] v = .inr t → RepliesOk (.tiCfg r) (q 0x1A) s (peeks t (inputRegs n)) t) ∧
    (∀ i, Accepted (q 0x1A) s u → u.get (TI_CFG_LOCK n) = 1 →
      ((Req.images (q 0x1A) 0 (inputRegs n)).findIdx? fun x => (u.rdn x.1 ^^^ x.2) &&& (regAt x.1).rwl != 0) = some i →
      Replies (.tiCfg r) (q 0x1A) s { status := 0x0124, detail := i } u) ∧
    (Accepted (q 0x1B) s u → RepliesOk (.tiRead r) (q 0x1B) s (peeks u [Reg.TI_STAT n, Reg.TI_VRSTAT n, Reg.CAP_STAT n]) u)

/-- EVT_WRITE, EVT_EN, TRIM_WRITE, TRIM_ADD, EVT_FIRE, EVT_WRITE_N, EVT_READ, CH_READ, ENV_WRITE, BANK_SWITCH, BANK_COPY, BANK_ANG and
HORIZON. -/
def Obligations.EventOpcodes : Prop :=
  ∀ (r : Req) (s u : State), let q (o : BitVec 8) : Req := { r with opc := o }
    let e := bitsAt (r.word 0) 0 10
    let d := descOf (r.word 1) (r.word 2) (r.word 3) (r.word 4) 0 0
    let b := bankOf u (bitsAt (r.word 0) 30 2) d.ch
    let env := envDescriptor u b e (r.word 1) (r.word 2) (r.word 3) (r.word 4)
    let b' := bankOf u (bitsAt (r.word 0) 30 2) (eventChanA u e)
    let addr := eventAddr b' e
    let env' := envDescriptor u b' e (putBits (u.rdn addr) 25 1 (bitsAt (r.word 0) 16 1)) (u.rdn (addr + 4)) (u.rdn (addr + 8))
      (u.rdn (addr + 12))
    let z := trimsBack e u
    AllAnswered r s u [(.evtWrite r, 0x20), (.evtEn r, 0x21), (.trimWrite r, 0x22), (.trimAdd r, 0x23), (.evtFire r, 0x24),
      (.evtWriteN r, 0x25), (.evtRead r, 0x26), (.chRead r, 0x27), (.envWrite r, 0x28), (.bankSwitch r, 0x29), (.bankCopy r, 0x2A),
      (.bankAng r, 0x2B), (.horizon r, 0x2C)] ∧
    let trim (c : Instr) (o : BitVec 8) (x y : Int) : Prop :=
      (∀ st a' d', envTrim z e x y = (st, a', d') → failed st = false → ∃ t, Replies c (q o) s
        { status := st, words := peeks t (wordAddrs (trimAddr e) 2) } t ∧ atrimOf t e = signedOf 24 (codeOf 24 a') ∧
        dtrimOf t e = signedOf 16 (codeOf 16 d') ∧ ((∀ j x, (u.loop j).trimmed = some x → x.ev ≠ e ∨ x.tk ≠ u.time) →
          ∀ k, k ≠ trimAddr e → k ≠ trimAddr e + 4 → t.rd k = u.rd k)) ∧
      (∀ st a' d', envTrim z e x y = (st, a', d') → failed st = true → RepliesStatus c (q o) s st u)
    (Accepted (q 0x20) s u → d.reserved = false → u.hasChan d.ch = true → d.cyl < u.counts.maxCyl →
      (failed env.1 = false → let t := putDesc b e env.2.1 env.2.2.1 env.2.2.2.1 env.2.2.2.2 u
        Replies (.evtWrite r) (q 0x20) s { status := env.1, words := peeks t (wordAddrs (eventAddr b e) 4) } t) ∧
      (failed env.1 = true → RepliesStatus (.evtWrite r) (q 0x20) s env.1 u)) ∧
    (Accepted (q 0x20) s u → d.reserved = true ∨ u.hasChan d.ch = false ∨ u.counts.maxCyl ≤ d.cyl →
      RepliesStatus (.evtWrite r) (q 0x20) s 0x0105 u) ∧
    (Accepted (q 0x21) s u → eventBad u b' e = false →
      (failed env'.1 = false → let t := putDesc b' e env'.2.1 env'.2.2.1 env'.2.2.2.1 env'.2.2.2.2 u
        Replies (.evtEn r) (q 0x21) s { status := env'.1, words := [peek t addr] } t) ∧
      (failed env'.1 = true → RepliesStatus (.evtEn r) (q 0x21) s env'.1 u)) ∧
    (Accepted (q 0x21) s u → eventBad u b' e = true → RepliesStatus (.evtEn r) (q 0x21) s 0x0601 u) ∧
    (Accepted (q 0x22) s u → trim (.trimWrite r) 0x22 (if bitAt (r.word 0) 31 then signedOf 24 (r.word 1) else atrimOf z e)
      (if bitAt (r.word 0) 30 then signedOf 16 (r.word 2) else dtrimOf z e)) ∧
    (Accepted (q 0x23) s u → (z.ecc.any fun x => within (trimAddr e) 8 x) = false → trim (.trimAdd r) 0x23
      (clampInt (-8388608) 8388607 (atrimOf z e + if bitAt (r.word 0) 31 then signedOf 24 (r.word 1) else 0))
      (clampInt (-32768) 32767 (dtrimOf z e + if bitAt (r.word 0) 30 then signedOf 16 (r.word 2) else 0))) ∧
    (Accepted (q 0x23) s u → (z.ecc.any fun x => within (trimAddr e) 8 x) = true → RepliesStatus (.trimAdd r) (q 0x23) s 0x0601 u) ∧
    (Accepted (q 0x24) s u →
      (fireRefusal u e = 0 → RepliesOk (.evtFire r) (q 0x24) s [u.tb.extractLsb' 0 32, u.tb.extractLsb' 32 32] (tdStart e u.now u)) ∧
      (fireRefusal u e ≠ 0 → RepliesStatus (.evtFire r) (q 0x24) s (fireRefusal u e) u)) ∧
    (Accepted (q 0x25) s u → 1 ≤ bitsAt (r.word 0) 0 4 → bitsAt (r.word 0) 0 4 ≤ 8 →
      let x := writeGroups r (bitsAt (r.word 0) 0 4) u
      ((∀ st ∈ x.1, failed st = false) → Replies (.evtWriteN r) (q 0x25) s
        { status := if 0x0310 ∈ x.1 then 0x0310 else 0, words := x.1.map (BitVec.ofNat 32) } x.2) ∧
      ((∃ st ∈ x.1, failed st = true) → ∃ st i, Replies (.evtWriteN r) (q 0x25) s
        { status := st, detail := i, words := x.1.map (BitVec.ofNat 32) } u ∧ i < x.1.length)) ∧
    (Accepted (q 0x26) s u → u.ecc = [] → RepliesOk (.evtRead r) (q 0x26) s (peeks u (wordAddrs addr 4 ++ wordAddrs (trimAddr e) 2)) u) ∧
    (Accepted (q 0x27) s u → RepliesOk (.chRead r) (q 0x27) s (peeks u [Reg.SCH_CHCFG r.u, Reg.SCH_MAXDUR r.u, Reg.SCH_WIDTH r.u,
      Reg.SCH_WLO r.u, Reg.SCH_WHI r.u, Reg.SCH_CHSTAT r.u]) u) ∧
    (let free : State := (outenClear r.u u).modUnit r.u fun x => { x with edges := [] }
     (∀ k, Accepted (q 0x28) s u → writeImages u 0 ((q 0x28).images 0 (envRegs r.u)) free = .inl k →
       Replies (.envWrite r) (q 0x28) s { status := 0x0105, detail := k.1 } k.2) ∧
     ∀ t, Accepted (q 0x28) s u → writeImages u 0 ((q 0x28).images 0 (envRegs r.u)) free = .inr t →
       RepliesImages (.envWrite r) (q 0x28) s u 0 (envRegs r.u) (envRegs r.u) fun _ => 0x0212) ∧
    (Accepted (q 0x29) s u → bitAt (r.word 0) 31 = false ∨ bitAt (r.word 0) 30 = true →
      RepliesStatus (.bankSwitch r) (q 0x29) s 0x0105 u) ∧
    (Accepted (q 0x29) s u → bitAt (r.word 0) 31 = true → bitAt (r.word 0) 30 = false →
      (switchRefused u (bitsAt (r.word 0) 0 4) = false →
        RepliesJob (.bankSwitch r) (q 0x29) s u fun j v => bctlWrite (r.word 0) { v with bankJob := j }) ∧
      (switchRefused u (bitsAt (r.word 0) 0 4) = true →
        RepliesStatus (.bankSwitch r) (q 0x29) s 0x0214 (u.setb SCH_BSTAT_REFUSED true))) ∧
    (Accepted (q 0x2A) s u → copyHits u (!bitAt (r.word 0) 4) = false →
      (u.get SCH_BSTAT_COPYBUSY = 0 → RepliesJob (.bankCopy r) (q 0x2A) s u fun j v =>
        bankCopyStart { v.setb SCH_BCTL_SRC (bitAt (r.word 0) 4) with copyJob := j }) ∧
      (u.get SCH_BSTAT_COPYBUSY = 1 → RepliesStatus (.bankCopy r) (q 0x2A) s 0x0214 (u.setb SCH_BSTAT_REFUSED true))) ∧
    (Accepted (q 0x2A) s u → copyHits u (!bitAt (r.word 0) 4) = true → RepliesStatus (.bankCopy r) (q 0x2A) s 0x0209 u) ∧
    (Accepted (q 0x2B) s u → r.len = 1 → RepliesImages (.bankAng r) (q 0x2B) s u 0 [Reg.SCH_BANG r.u] [] fun _ => 0x0105) ∧
    (Accepted (q 0x2B) s u → r.len ≠ 1 →
      RepliesImages (.bankAng r) (q 0x2B) s u 0 (Reg.SCH_BANG r.u :: (List.range 24).map Reg.SCH_CREF) [] fun _ => 0x0105) ∧
    (Accepted (q 0x2C) s u → RepliesImages (.horizon r) (q 0x2C) s u 0 [Reg.SCH_HT r.u, Reg.SCH_HA r.u] [] fun _ => 0x0105)

/-- ESQ_ASSIGN, ESQ_CTL, ESQ_UBANK, CRL_CFG, CRL_CTL, CSE_PROF, CSE_PBANK, CRL_READ, CSE_RING, GPT_CFG, BREW, BREW_RING, GPT_READ. -/
def Obligations.ShapingOpcodes : Prop :=
  ∀ (r : Req) (s u : State), let q (o : BitVec 8) : Req := { r with opc := o }
    let n := r.u
    let run := u.flag (GPTt_CTL_RUN n)
    AllAnswered r s u [(.esqAssign r, 0x2D), (.esqCtl r, 0x2E), (.esqUbank r, 0x2F), (.crlCfg r, 0x30), (.crlCtl r, 0x31),
      (.cseProf r, 0x32), (.csePbank r, 0x33), (.crlRead r, 0x34), (.cseRing r, 0x35), (.gptCfg r, 0x38), (.brew r, 0x39),
      (.brewRing r, 0x3A), (.gptRead r, 0x3B)] ∧
    (Accepted (q 0x2D) s u → RepliesImages (.esqAssign r) (q 0x2D) s u 0 [Reg.ESQ_OWN n, Reg.ESQ_EVRNG n, Reg.ESQ_CFG n]
      [Reg.ESQ_OWN n, Reg.ESQ_EVRNG n, Reg.ESQ_CFG n] fun _ => if u.get (ESQ_STAT_STATE n) = 1 then 0x0210 else 0x0105) ∧
    (Accepted (q 0x2E) s u → RepliesWrites (.esqCtl r) (q 0x2E) s u 0 [(Reg.ESQ_CTL n, r.word 0 &&& 9)] [Reg.ESQ_STAT n, Reg.ESQ_FLT n]
      fun _ => if u.get (ESQ_STAT_STATE n) = 2 ∧ bitAt (r.word 0 &&& 9) 3 = false then 0x021A else 0x0105) ∧
    (Accepted (q 0x2F) s u → u.get (ESQ_STAT_STATE n) = 1 → u.get (ESQ_CTL_UBREQ n) = 1 →
      RepliesStatus (.esqUbank r) (q 0x2F) s 0x0206 u) ∧
    (Accepted (q 0x2F) s u → u.get (ESQ_STAT_STATE n) = 1 → u.get (ESQ_CTL_UBREQ n) = 0 →
      RepliesJob (.esqUbank r) (q 0x2F) s u fun j v => esqUbreq n (v.putEsq n { v.esq n with ubankJob := j })) ∧
    (Accepted (q 0x2F) s u → u.get (ESQ_STAT_STATE n) ≠ 1 → RepliesStatus (.esqUbank r) (q 0x2F) s 0x0211 u) ∧
    (Accepted (q 0x30) s u → RepliesImages (.crlCfg r) (q 0x30) s u 0 [Reg.CRL_CFG n, Reg.CRL_LIM n, Reg.CRL_DTLIM n]
      [Reg.CRL_CFG n, Reg.CRL_LIM n, Reg.CRL_DTLIM n] fun i => if i = 0 ∧ u.flag (CRL_CFG_EN n) = true ∧
        changes u [CRL_CFG_TOPO n, CRL_CFG_DT n, CRL_CFG_FREACT n] (r.word 0) = true then 0x0210 else 0x0105) ∧
    (Accepted (q 0x31) s u → let t := if bitAt (r.word 0) 0 then loopFclr n u else u
      RepliesOk (.crlCtl r) (q 0x31) s [peek t (Reg.CRL_STAT n), peek t (Reg.CRL_FLT n)] t) ∧
    (Accepted (q 0x32) s u → bitsAt (r.word 0) 0 4 ≤ 11 → u.flag (CSE_STAT_PBANK n) ≠ bitAt (r.word 0) 8 → u.get (CSE_CTL_PBREQ n) = 0 →
      RepliesImages (.cseProf r) (q 0x32) s u 1 (wordAddrs (profAddr (6 * n) (bitAt (r.word 0) 8) (bitsAt (r.word 0) 0 4)) 32) []
        fun _ => 0x0209) ∧
    (Accepted (q 0x32) s u → 11 < bitsAt (r.word 0) 0 4 → RepliesStatus (.cseProf r) (q 0x32) s 0x0105 u) ∧
    (Accepted (q 0x32) s u → bitsAt (r.word 0) 0 4 ≤ 11 → u.flag (CSE_STAT_PBANK n) = bitAt (r.word 0) 8 ∨ u.get (CSE_CTL_PBREQ n) = 1 →
      RepliesStatus (.cseProf r) (q 0x32) s 0x0209 u) ∧
    (Accepted (q 0x33) s u → u.get (CSE_CTL_PBREQ n) = 0 →
      RepliesJob (.csePbank r) (q 0x33) s u fun j v => programRequest n (v.putCse n { job := j })) ∧
    (Accepted (q 0x33) s u → u.get (CSE_CTL_PBREQ n) = 1 → RepliesStatus (.csePbank r) (q 0x33) s 0x0206 u) ∧
    (Accepted (q 0x34) s u → RepliesOk (.crlRead r) (q 0x34) s (peeks u [Reg.CRL_STAT n, Reg.CRL_FLT n, Reg.CRL_IOFS n, Reg.CRL_TALLY n,
      Reg.CRL_LRES0 n, Reg.CRL_LRES1 n, Reg.CRL_LRES2 n, Reg.CRL_LRES3 n]) u) ∧
    (Accepted (q 0x35) s u → r.word 1 % 16 ≠ 0 →
      RepliesImages (.cseRing r) (q 0x35) s u 0 [Reg.CSE_RBASE n, Reg.CSE_RCFG n] [] fun _ => 0x0210) ∧
    (Accepted (q 0x35) s u → r.word 1 % 16 = 0 →
      (∀ k, writeImages u 1 [(Reg.CSE_RCFG n, r.word 1)] u = .inl k →
        Replies (.cseRing r) (q 0x35) s { status := 0x0210, detail := k.1 } k.2) ∧
      ∀ t, writeImages u 1 [(Reg.CSE_RCFG n, r.word 1)] u = .inr t →
        (∀ k, writeImages t 0 [(Reg.CSE_RBASE n, r.word 0)] t = .inl k →
          Replies (.cseRing r) (q 0x35) s { status := 0x0210, detail := k.1 } (keepReport (Reg.CSE_RBASE n) k.2 u)) ∧
        ∀ w, writeImages t 0 [(Reg.CSE_RBASE n, r.word 0)] t = .inr w → RepliesOk (.cseRing r) (q 0x35) s [] w) ∧
    (let imgs := Req.images (q 0x38) 1 [Reg.GPTt_PER n, Reg.GPTt_CCFG n 0, Reg.GPTt_CMP n 0, Reg.GPTt_CCFG n 1, Reg.GPTt_CMP n 1]
     Accepted (q 0x38) s u → RepliesWrites (.gptCfg r) (q 0x38) s u 0
      (if bitAt (r.word 0) 0 = true ∧ run = false then (Reg.GPTt_CTL n, putBits (r.word 0) 0 1 0) :: imgs ++ [(Reg.GPTt_CTL n, r.word 0)]
        else (Reg.GPTt_CTL n, r.word 0) :: imgs) [] fun i =>
      if i = 0 then (if run = true ∧ changes u [GPTt_CTL_MODE n, GPTt_CTL_PSC n] (r.word 0) = true then 0x0210 else 0x0105)
      else if i = 1 ∨ (i = 2 ∨ i = 4) ∧ run = true ∧ bitAt (r.word 0) 0 = true then 0x0210 else 0x0105) ∧
    (Accepted (q 0x39) s u → RepliesOk (.brew r) (q 0x39) s [u.tb.extractLsb' 0 32, u.tb.extractLsb' 32 32] (gptBrewMask (r.word 0) u)) ∧
    (Accepted (q 0x3A) s u → (∀ x ∈ u.ring.starts, x.own = false ∧ x.kind = 2) → let tbs := (u.now + 127) / 128 * 128 + 512
      RepliesOk (.brewRing r) (q 0x3A) s [BitVec.ofNat 32 tbs, BitVec.ofNat 32 (tbs / 2 ^ 32)]
        (gptRingBrew (u.wrn Reg.GPT_RBMSK (r.word 0)))) ∧
    (Accepted (q 0x3A) s u → ringBrewPending u = false → (∃ x ∈ u.ring.starts, x.own = true ∨ x.kind ≠ 2) →
      RepliesStatus (.brewRing r) (q 0x3A) s 0x0215 u) ∧
    (Accepted (q 0x3A) s u → ringBrewPending u = true → RepliesStatus (.brewRing r) (q 0x3A) s 0x0215 (gptRingBrew u)) ∧
    (Accepted (q 0x3B) s u → RepliesOk (.gptRead r) (q 0x3B) s (peeks u [Reg.GPTt_CTL n, Reg.GPTt_CNT n, Reg.GPTt_PER n, Reg.GPTt_STAT n,
      Reg.GPTt_CSTAT n 0, Reg.GPTt_CSTAT n 1]) u)

/-- WORK_WRITE, CAE_PARAM, CAE_CYL, CAE_CTL, PADC_CFG, REC_READ, CAE_KBANK, HADC_SEQ, HADC_READ, HADC_TRG, CMP_CFG, CMP_READ, HADC_CTL. -/
def Obligations.ConverterOpcodes : Prop :=
  ∀ (r : Req) (s u : State), let q (o : BitVec 8) : Req := { r with opc := o }
    let n := r.u
    let v := r.word 0
    let c := bitsAt v 0 5
    let regs := wordAddrs (0x500A0000 + v) (r.len.toNat - 1)
    let recs := wordAddrs (0x140E0000 + 64 * bitsAt v 0 9) (16 * bitsAt v 16 4)
    let first := inWord (HADC_SEQCFG_START n) v
    let last := inWord (HADC_SEQCFG_END n) v
    let ents := (List.range (last + 1 - first)).map fun i => Reg.HADC_ENT (first + i)
    let seqs := (Reg.HADC_SEQCFG n, putBits v 31 1 0) :: Req.images (q 0x50) 1 (Reg.HADC_SEQDLY n :: Reg.HADC_SEQANG n :: ents)
    let padc := (Reg.PADC_CFG, putBits v 31 1 0) :: Req.images (q 0x44) 1 (Reg.PADC_WOFS :: (List.range 24).map Reg.PADC_CYL)
    let fit (w : State) : Prop :=
      (u.get PADC_CFG_EN = 1 → RepliesStatus (.padcCfg r) (q 0x44) s 0x0210 (u.setb PADC_ERRINFO_PARAM true)) ∧
      (u.get PADC_CFG_EN = 0 → RepliesOk (.padcCfg r) (q 0x44) s [peek w Reg.PADC_LOAD] w)
    AllAnswered r s u [(.workWrite r, 0x40), (.caeParam r, 0x41), (.caeCyl r, 0x42), (.caeCtl r, 0x43), (.padcCfg r, 0x44),
      (.recRead r, 0x45), (.caeKbank r, 0x46), (.hadcSeq r, 0x50), (.hadcRead r, 0x51), (.hadcTrg r, 0x52), (.cmpCfg r, 0x53),
      (.cmpRead r, 0x54), (.hadcCtl r, 0x55)] ∧
    (Accepted (q 0x40) s u → c < u.counts.maxCyl → let t := workWrite n c (BitVec.ofNat 32 (r.word 1)) u
      RepliesOk (.workWrite r) (q 0x40) s [peek t (Reg.AT_WVAL n)] t) ∧
    (Accepted (q 0x40) s u → u.counts.maxCyl ≤ c → RepliesStatus (.workWrite r) (q 0x40) s 0x0105 u) ∧
    (Accepted (q 0x41) s u → 0x20 ≤ v → v % 4 = 0 → v + 4 * (r.len.toNat - 1) ≤ 0x6C →
      u.get CAE_CTL_RUN = 0 ∨ (∀ a ∈ regs, caeFixed a = false) → RepliesImages (.caeParam r) (q 0x41) s u 1 regs [] fun _ => 0x0105) ∧
    (Accepted (q 0x41) s u → v < 0x20 ∨ v % 4 ≠ 0 ∨ 0x6C < v + 4 * (r.len.toNat - 1) → RepliesStatus (.caeParam r) (q 0x41) s 0x0105 u) ∧
    (Accepted (q 0x42) s u → RepliesImages (.caeCyl r) (q 0x42) s u 0 [Reg.CAE_CYLW0 n, Reg.CAE_CYLW1 n, Reg.CAE_CYLW2 n] []
      fun _ => 0x0105) ∧
    (Accepted (q 0x43) s u → let x := imageWrite Reg.CAE_CTL (v &&& 5) u
      (x.1 = false → RepliesOk (.caeCtl r) (q 0x43) s [peek x.2 Reg.CAE_STAT2] x.2) ∧
      (x.1 = true → Replies (.caeCtl r) (q 0x43) s (if u.get CAE_STAT2_STATE = 2 ∧ bitAt (v &&& 5) 2 = false then { status := 0x021A }
        else { status := 0x0105, detail := (caeRunFault u).getD 0 }) (keepReport Reg.CAE_CTL x.2 u))) ∧
    (Accepted (q 0x44) s u →
      (∀ k, writeImages u 0 padc (u.setb PADC_CFG_EN false) = .inl k →
        Replies (.padcCfg r) (q 0x44) s { status := 0x0105, detail := k.1 } k.2) ∧
      ∀ t, writeImages u 0 padc (u.setb PADC_CFG_EN false) = .inr t →
        (bitAt v 31 = false → fit t) ∧
        (bitAt v 31 = true → let x := imageWrite Reg.PADC_CFG v t
          (x.1 = false → fit x.2) ∧ (x.1 = true → RepliesStatus (.padcCfg r) (q 0x44) s 0x0105 (keepReport Reg.PADC_CFG x.2 u)))) ∧
    (Accepted (q 0x45) s u → bitsAt v 16 4 = 0 ∨ 512 < bitsAt v 0 9 + bitsAt v 16 4 → RepliesStatus (.recRead r) (q 0x45) s 0x0105 u) ∧
    (Accepted (q 0x45) s u → 1 ≤ bitsAt v 16 4 → bitsAt v 0 9 + bitsAt v 16 4 ≤ 512 → recs.any (wordBad u) = true →
      RepliesStatus (.recRead r) (q 0x45) s 0x0601 (readsMeet recs u)) ∧
    (Accepted (q 0x45) s u → 1 ≤ bitsAt v 16 4 → bitsAt v 0 9 + bitsAt v 16 4 ≤ 512 → recs.any (wordBad u) = false →
      RepliesOk (.recRead r) (q 0x45) s (recs.map fun a => (byteRead a 4 u).1) (readsMeet recs u)) ∧
    (Accepted (q 0x46) s u → u.get CAE_CTL_KBREQ = 0 → RepliesJob (.caeKbank r) (q 0x46) s u fun j t =>
      kernelRequest { t with cae := { t.cae with kbankJob := j } }) ∧
    (Accepted (q 0x46) s u → u.get CAE_CTL_KBREQ = 1 → RepliesStatus (.caeKbank r) (q 0x46) s 0x0206 u) ∧
    (let rest := writeImages u 0 seqs (upTo 4 (fun p w => w.setb (HADC_SEQCFG_EN p) false) u)
     let held := if u.get (HADC_SEQCFG_EN n) = 1 ∨ bitAt v 31 = true ∧ seqRefused u n first last = true then some 0
       else seqs.findIdx? fun x => within (Reg.HADC_ENT 0) 128 x.1 && entryHeld u ((x.1 - Reg.HADC_ENT 0) / 4)
     Accepted (q 0x50) s u →
      (∀ k, rest = .inl k → Replies (.hadcSeq r) (q 0x50) s { status := 0x0105, detail := k.1 } k.2) ∧
      ∀ t0, rest = .inr t0 →
        (∀ i, held = some i → Replies (.hadcSeq r) (q 0x50) s { status := 0x0210, detail := i } (u.setb HADC_ERRINFO_PARAM true)) ∧
        (held = none →
          (∀ k, writeImages u 0 seqs u = .inl k → Replies (.hadcSeq r) (q 0x50) s { status := 0x0105, detail := k.1 } k.2) ∧
          ∀ t, writeImages u 0 seqs u = .inr t →
            (bitAt v 31 = false → RepliesOk (.hadcSeq r) (q 0x50) s [] t) ∧
            (bitAt v 31 = true → let x := imageWrite (Reg.HADC_SEQCFG n) v t
              (x.1 = false → RepliesOk (.hadcSeq r) (q 0x50) s [] x.2) ∧
              (x.1 = true → RepliesStatus (.hadcSeq r) (q 0x50) s 0x0105 (keepReport (Reg.HADC_SEQCFG n) x.2 u))))) ∧
    (Accepted (q 0x51) s u → bitsAt v 8 6 = 0 ∨ 32 < c + bitsAt v 8 6 → RepliesStatus (.hadcRead r) (q 0x51) s 0x0105 u) ∧
    (Accepted (q 0x51) s u → 1 ≤ bitsAt v 8 6 → c + bitsAt v 8 6 ≤ 32 →
      let x := busReads ((List.range (bitsAt v 8 6)).map fun i => Reg.HADC_RES (c + i)) u
      RepliesOk (.hadcRead r) (q 0x51) s x.1 x.2) ∧
    (Accepted (q 0x52) s u → RepliesImages (.hadcTrg r) (q 0x52) s u 0 [Reg.HADC_SWTRG] [] fun _ => 0x0105) ∧
    (Accepted (q 0x53) s u → r.len = 2 → RepliesImages (.cmpCfg r) (q 0x53) s u 0 [Reg.CMP_CFG n, Reg.CMP_THR n] [] fun _ => 0x0105) ∧
    (Accepted (q 0x53) s u → r.len = 3 →
      RepliesImages (.cmpCfg r) (q 0x53) s u 0 [Reg.CMP_CFG n, Reg.CMP_THR n, Reg.CMP_WCFG ((n - 28) / 2)] []
        fun _ => 0x0105) ∧
    (Accepted (q 0x54) s u → let l := peek u (Reg.CMP_LAT n)
      RepliesOk (.cmpRead r) (q 0x54) s [peek u (Reg.CMP_STAT n), l]
        (if bitAt v 0 then (wordWrite 15 (Reg.CMP_LAT n) l.toNat u).2 else u)) ∧
    (Accepted (q 0x55) s u → RepliesWrites (.hadcCtl r) (q 0x55) s u 0 [(Reg.HADC_CTL, v)] [Reg.HADC_STAT] fun _ => 0x0105)

/-- Q_CFG, Q_STAT, DMA_CTL, DMA_STAT, PWR_ENTER, PWR_READ, OUTEN_SET, OUTEN_CLR, OUT_READ, LOG_READ, LOG_CFG, SENSOR_READ, ALARM_SUB and
KETTLE_READ. -/
def Obligations.ManagementOpcodes : Prop :=
  ∀ (r : Req) (s u : State), let q (o : BitVec 8) : Req := { r with opc := o }
    let n := r.u
    let v := r.word 0
    let sub (k : Nat) : Alarm := ⟨r.src, r.sess, BitVec.ofNat 2 k, 0, 64, u.time, 0⟩
    let live := u.rd Reg.SCH_OUTENL ≠ 0 ∨ u.rd Reg.SCH_OUTENH ≠ 0 ∨ ∃ k : Fin 4, u.get (AT_SSTAT_STATE k) ≠ 0
    let imgs := (Reg.Q_CFG n, putBits v 31 1 0) :: Req.images (q 0x58) 1 [Reg.Q_CFG2 n, Reg.Q_CFG3 n]
    AllAnswered r s u [(.qCfg r, 0x58), (.qStat r, 0x59), (.dmaCtl r, 0x5A), (.dmaStat r, 0x5B), (.pwrEnter r, 0x60), (.pwrRead r, 0x61),
      (.outenSet r, 0x68), (.outenClr r, 0x69), (.outRead r, 0x6A), (.logRead r, 0x70), (.logCfg r, 0x71), (.sensorRead r, 0x72),
      (.alarmSub r, 0x73), (.kettleRead r, 0x74)] ∧
    (Accepted (q 0x58) s u → n < 10 → RepliesStatus (.qCfg r) (q 0x58) s 0x0402 u) ∧
    (Accepted (q 0x58) s u → 10 ≤ n →
      (∀ k, writeImages u 0 imgs (u.setb (Q_CFG_EN n) false) = .inl k →
        Replies (.qCfg r) (q 0x58) s { status := 0x0105, detail := k.1 } k.2) ∧
      ∀ t, writeImages u 0 imgs (u.setb (Q_CFG_EN n) false) = .inr t →
        (u.get (Q_CFG_EN n) = 1 →
          RepliesStatus (.qCfg r) (q 0x58) s 0x0210 ((u.setb QM_ERRINFO_PARAM true).set QM_ERRINFO_QNUM n)) ∧
        (u.get (Q_CFG_EN n) = 0 → bitAt v 31 = false → RepliesOk (.qCfg r) (q 0x58) s [] t) ∧
        (u.get (Q_CFG_EN n) = 0 → bitAt v 31 = true → let x := imageWrite (Reg.Q_CFG n) v t
          (x.1 = false → RepliesOk (.qCfg r) (q 0x58) s [] x.2) ∧
          (x.1 = true → RepliesStatus (.qCfg r) (q 0x58) s 0x0105 (keepReport (Reg.Q_CFG n) x.2 u)))) ∧
    (Accepted (q 0x59) s u → RepliesOk (.qStat r) (q 0x59) s
      (peeks u [Reg.Q_STAT n, Reg.Q_TALLY n, Reg.Q_CREDIT n, Reg.Q_POPSTAT n]) u) ∧
    (Accepted (q 0x5A) s u → dmaState u n = 0 ∨ dmaState u n = dmaError →
      RepliesWrites (.dmaCtl r) (q 0x5A) s u 0 [(Reg.DMA_CTL n, v)] [Reg.DMA_STAT n] fun _ => 0x0105) ∧
    (Accepted (q 0x5A) s u → dmaState u n = dmaFetch ∨ dmaState u n = dmaXfer ∨ dmaState u n = dmaWb →
      RepliesStatus (.dmaCtl r) (q 0x5A) s 0x0210 u) ∧
    (Accepted (q 0x5B) s u → RepliesOk (.dmaStat r) (q 0x5B) s (peeks u [Reg.DMA_STAT n, Reg.DMA_RCFG n]) u) ∧
    (Accepted (q 0x60) s u → bitsAt (r.word 1) 0 5 ≠ 0 →
      (bitsAt v 0 3 = 1 ∨ (2 ≤ bitsAt v 0 3 ∧ bitsAt v 0 3 ≤ 4 ∧ ¬live) →
        RepliesOk (.pwrEnter r) (q 0x60) s [] (powerRequest (bitsAt v 0 3 + 256 * bitsAt (r.word 1) 0 5)
          (timerLoad (min (2 ^ 24 - 1) (r.word 3)) (u.set CPR_RETMASK_BANK (bitsAt (r.word 2) 0 12))))) ∧
      (2 ≤ bitsAt v 0 3 → bitsAt v 0 3 ≤ 4 → live → RepliesStatus (.pwrEnter r) (q 0x60) s 0x0216 u)) ∧
    (Accepted (q 0x60) s u → bitsAt (r.word 1) 0 5 = 0 ∨ bitsAt v 0 3 = 0 ∨ 4 < bitsAt v 0 3 →
      RepliesStatus (.pwrEnter r) (q 0x60) s 0x0105 u) ∧
    (Accepted (q 0x61) s u → RepliesOk (.pwrRead r) (q 0x61) s
      [BitVec.ofNat 32 (u.get CPR_PWRSTAT_STATE), BitVec.ofNat 32 (wakeSource u + 256 * u.get CPR_PWRSTAT_ABORT)] u) ∧
    (let cs := (List.range 64).filter (inMask r)
     Accepted (q 0x68) s u →
      ((∃ c ∈ cs, u.hasPin c = false) → RepliesStatus (.outenSet r) (q 0x68) s 0x0105 u) ∧
      ((∀ c ∈ cs, u.hasPin c = true ∧ (outenFault u c = false ∨ (u.unit c).cutTb = some u.now)) →
        let t := (cs.filter fun c => (u.unit c).cutTb != some u.now).foldl (fun w c => outenSet c w) u
        RepliesOk (.outenSet r) (q 0x68) s [peek t Reg.SCH_OUTENL, peek t Reg.SCH_OUTENH] t ∧
        ∀ a : Ans, a.status = 0 → answer (q 0x68) a t = { t with gnorum := { t.gnorum with late := t.gnorum.late ++ [q 0x68] } }) ∧
      ((∀ c ∈ cs, u.hasPin c = true) → (∃ c ∈ cs, outenFault u c = true ∧ (u.unit c).cutTb ≠ some u.now) →
        ∃ c ∈ cs, outenFault u c = true ∧ Replies (.outenSet r) (q 0x68) s { status := 0x0217, detail := c } u)) ∧
    (Accepted (q 0x69) s u → let t := ((List.range 64).filter fun c => inMask r c && outen u c).foldl (fun w c => outenOff c w) u
      RepliesOk (.outenClr r) (q 0x69) s [peek t Reg.SCH_OUTENL, peek t Reg.SCH_OUTENH] t) ∧
    (Accepted (q 0x6A) s u → RepliesOk (.outRead r) (q 0x6A) s [peek u Reg.SCH_OUTENL, peek u Reg.SCH_OUTENH,
      BitVec.ofNat 32 ((orelSeen u).toNat + 2 * (carafeStandby u).toNat)] u) ∧
    (Accepted (q 0x70) s u → 1 ≤ bitsAt (r.word 1) 0 5 →
      let rs := ((keptRecords u).filter fun x => Nat.blt (x.lseq - BitVec.ofNat 32 v).toNat (2 ^ 31)).take (bitsAt (r.word 1) 0 5)
      RepliesOk (.logRead r) (q 0x70) s
        ((match rs.getLast? with | some x => x.lseq + 1 | none => u.rd Reg.PST_LSEQ) :: rs.flatMap recWords) u) ∧
    (Accepted (q 0x71) s u → v < 64 ∨ v = 0xFF → 1 ≤ r.word 1 → r.word 1 ≤ 1000 → 1 ≤ r.word 2 → r.word 2 ≤ 255 →
      RepliesOk (.logCfg r) (q 0x71) s []
        (if v = 0xFF then upTo 64 (bucketSet (r.word 1) (r.word 2)) u else bucketSet (r.word 1) (r.word 2) v u)) ∧
    (Accepted (q 0x70) s u → bitsAt (r.word 1) 0 5 = 0 → RepliesStatus (.logRead r) (q 0x70) s 0x0105 u) ∧
    (Accepted (q 0x71) s u → 64 ≤ v ∧ v ≠ 0xFF ∨ r.word 1 = 0 ∨ 1000 < r.word 1 ∨ r.word 2 = 0 ∨ 255 < r.word 2 →
      RepliesStatus (.logCfg r) (q 0x71) s 0x0105 u) ∧
    (Accepted (q 0x72) s u → ∃ ws t, RepliesOk (.sensorRead r) (q 0x72) s ws t ∧ ws.length = 11 ∧
      ws.getD 10 0 = clockFlags u ∧ t.perc.clkHist = BitVec.ofNat 6 (63 - u.get CPR_CLKSTAT_OK) ∧
      t.perc.readings = (sensorTake u).perc.readings ∧ ((sensorTake u).perc.stale = true → ws.take 7 = List.replicate 7 0x80000000) ∧ t.regs = u.regs ∧ t.mem = u.mem) ∧
    (Accepted (q 0x73) s u → bitAt v 8 = true → alarmOf u r.src r.sess = none →
      (∀ k, ((List.range 8).find? fun k => (alarmAt u k).isNone) = some k → RepliesOk (.alarmSub r) (q 0x73) s [] (putAlarm k (some (sub v)) u)) ∧
      (((List.range 8).find? fun k => (alarmAt u k).isNone) = none → RepliesStatus (.alarmSub r) (q 0x73) s 0x0504 u)) ∧
    (∀ k, Accepted (q 0x73) s u → bitAt v 8 = false → alarmOf u r.src r.sess = some k →
      RepliesOk (.alarmSub r) (q 0x73) s [] (putAlarm k none u)) ∧
    (Accepted (q 0x73) s u → bitAt v 8 = false → alarmOf u r.src r.sess = none → RepliesOk (.alarmSub r) (q 0x73) s [] u) ∧
    (∀ k a, Accepted (q 0x73) s u → bitAt v 8 = true → alarmOf u r.src r.sess = some k → alarmAt u k = some a →
      RepliesOk (.alarmSub r) (q 0x73) s [] (putAlarm k (some { a with lowest := BitVec.ofNat 2 v }) u)) ∧
    (Accepted (q 0x74) s u → RepliesOk (.kettleRead r) (q 0x74) s [BitVec.ofNat 32 (bitsAt (peek u Reg.KTL_STAT).toNat 24 8),
      BitVec.ofNat 32 (u.get KTL_STAT_LCAUSE), BitVec.ofNat 32 (u.get KTL_CFG_HBT)] u)

/-- UPD_BEGIN, UPD_DATA, UPD_VERIFY, UPD_ACTIVATE, UPD_REVERT, UPD_ABORT, CAR_CFG, CAR_READ, CAR_HANDOVER, CAR_UBANK, OREL_SET. -/
def Obligations.UpdateOpcodes : Prop :=
  ∀ (r : Req) (s u : State), let q (o : BitVec 8) : Req := { r with opc := o }
    let comp := r.word 0 % 256
    let unit := r.u
    let size := r.word 1
    let b := !activeSlot u comp unit
    let idle : Prop := u.update.verify = 0 ∧ u.update.active = []
    let begin_ (off : Nat) (t : State) : State := { t with update := { t.update with opened := some ⟨comp, unit, size, off, 0⟩, closed := none } }
    AllAnswered r s u [(.updBegin r, 0x80), (.updData r, 0x81), (.updVerify r, 0x82), (.updActivate r, 0x83), (.updRevert r, 0x84),
      (.updAbort r, 0x85), (.carCfg r, 0x90), (.carRead r, 0x91), (.carHandover r, 0x92), (.carUbank r, 0x93), (.orelSet r, 0x94)] ∧
    (Accepted (q 0x80) s u → compUnit u comp unit ≠ 0 → RepliesStatus (.updBegin r) (q 0x80) s (compUnit u comp unit) u) ∧
    (Accepted (q 0x80) s u → compUnit u comp unit = 0 → 192 + maxPayload comp < size → RepliesStatus (.updBegin r) (q 0x80) s 0x0105 u) ∧
    (Accepted (q 0x80) s u → compUnit u comp unit = 0 → size ≤ 192 + maxPayload comp → updBusy u = true →
      RepliesStatus (.updBegin r) (q 0x80) s 0x0206 u) ∧
    (Accepted (q 0x80) s u → compUnit u comp unit = 0 → updBusy u = false → size ≤ 192 + maxPayload comp →
      ((u.update.closed.filter fun x => x.comp == comp && x.unit == unit && x.size == size) = none →
        RepliesOk (.updBegin r) (q 0x80) s [] (begin_ 0 (u.putSlot comp unit b { erasing := true }))) ∧
      (∀ x, (u.update.closed.filter fun x => x.comp == comp && x.unit == unit && x.size == size) = some x →
        Replies (.updBegin r) (q 0x80) s { status := 0, detail := x.offset / 4096 } (begin_ (x.offset / 4096 * 4096) u))) ∧
    (∀ x, Accepted (q 0x81) s u → u.update.opened = some x →
      let c := !activeSlot u x.comp x.unit
      let slot := u.slot x.comp x.unit c
      let bytes := ((r.params.drop 1).flatMap wordBytes).take (x.size - x.offset)
      let past : Prop := x.size + 4 ≤ r.word 0 + 4 * (r.params.length - 1)
      let here : Prop := r.word 0 = x.offset ∧ ¬past
      (past → RepliesStatus (.updData r) (q 0x81) s 0x0105 u) ∧
      (¬past → r.word 0 ≠ x.offset → RepliesStatus (.updData r) (q 0x81) s 0x0701 u) ∧
      (here → ¬idle → RepliesStatus (.updData r) (q 0x81) s 0x0206 u) ∧
      (here → idle → slot.erasing = true → ∃ e t, slot.erased ≤ e ∧ (e - slot.erased) % 65536 = 0 ∧ (t.slot x.comp x.unit c).erased = e ∧
        (x.offset + bytes.length ≤ e → RepliesOk (.updData r) (q 0x81) s [] t ∧
          (t.slot x.comp x.unit c).bytes = slot.part 0 x.offset ++ bytes ++ slot.bytes.drop (x.offset + bytes.length) ∧
          t.update.opened = some { x with offset := x.offset + bytes.length }) ∧
        (e < x.offset + bytes.length → RepliesStatus (.updData r) (q 0x81) s 0x0206 t ∧ (t.slot x.comp x.unit c).bytes = slot.bytes ∧
          t.update.opened = some x)) ∧
      (here → idle → slot.erasing = false →
        RepliesOk (.updData r) (q 0x81) s [] (
          let t := u.putSlot x.comp x.unit c
            { slot with st := if x.offset + bytes.length = x.size then .written else .empty,
                        bytes := slot.part 0 x.offset ++ bytes ++ slot.bytes.drop (x.offset + bytes.length) };
          { t with update := { t.update with opened := some { x with offset := x.offset + bytes.length } } }))) ∧
    (Accepted (q 0x82) s u → idle → RepliesJob (.updVerify r) (q 0x82) s u fun j t => { t with update := { t.update with verify := j } }) ∧
    (∀ x, Accepted (q 0x83) s u → u.update.opened = some x →
      let c := !activeSlot u x.comp x.unit
      let free : Prop := idle ∧ switchPending u x.comp x.unit = false
      ((u.slot x.comp x.unit c).st = .verified → ¬free → RepliesStatus (.updActivate r) (q 0x83) s 0x0206 u) ∧
      ((u.slot x.comp x.unit c).st = .verified → free → RepliesJob (.updActivate r) (q 0x83) s u fun j t =>
        { t with update := { t.update with active := t.update.active ++ [{ comp := x.comp, unit := x.unit, slotB := c, job := j }] } }) ∧
      ((u.slot x.comp x.unit c).st ≠ .verified → RepliesStatus (.updActivate r) (q 0x83) s 0x0706 u)) ∧
    (Accepted (q 0x84) s u → compUnit u comp unit ≠ 0 → RepliesStatus (.updRevert r) (q 0x84) s (compUnit u comp unit) u) ∧
    (Accepted (q 0x84) s u → compUnit u comp unit = 0 → (u.slot comp unit b).st ≠ .verified →
      RepliesStatus (.updRevert r) (q 0x84) s 0x0706 u) ∧
    (Accepted (q 0x84) s u → compUnit u comp unit = 0 → (u.slot comp unit b).st = .verified → updBusy u = true ∨
      switchPending u comp unit = true → RepliesStatus (.updRevert r) (q 0x84) s 0x0206 u) ∧
    (Accepted (q 0x84) s u → compUnit u comp unit = 0 → updBusy u = false → (u.slot comp unit b).st = .verified →
      switchPending u comp unit = false → RepliesJob (.updRevert r) (q 0x84) s u fun j t =>
        { t with update := { t.update with
            active := t.update.active ++ [{ comp := comp, unit := unit, slotB := b, job := j, revert := true }] } }) ∧
    (∀ x, Accepted (q 0x85) s u → u.update.opened = some x → idle → RepliesOk (.updAbort r) (q 0x85) s []
      (let t := u.putSlot x.comp x.unit (!activeSlot u x.comp x.unit) {}
       { t with update := { t.update with opened := none, closed := none } })) ∧
    (Accepted (q 0x85) s u → u.update.opened = none → idle → RepliesOk (.updAbort r) (q 0x85) s []
      { u with update := { u.update with closed := none } }) ∧
    (Accepted (q 0x90) s u → RepliesImages (.carCfg r) (q 0x90) s u 0 [Reg.RING_CFG] []
      fun _ => if u.get RING_CTL_EN = 1 then 0x0210 else 0x0105) ∧
    (Accepted (q 0x91) s u → RepliesOk (.carRead r) (q 0x91) s [BitVec.ofNat 32 (u.get RING_STAT_SEEN), BitVec.ofNat 32 (u.get RING_ROLES_ROLES),
      BitVec.ofNat 32 (u.get RING_TALLY1_MMCNT), BitVec.ofNat 32 (u.get RING_TALLY0_MISSCNT)] u) ∧
    (Accepted (q 0x92) s u → (u.ring.starts.any (·.own)) = false →
      RepliesJob (.carHandover r) (q 0x92) s u fun j t => ringStartPut 2 (bitsAt (r.word 0) 0 2) j t) ∧
    (Accepted (q 0x92) s u → (u.ring.starts.any (·.own)) = true → RepliesStatus (.carHandover r) (q 0x92) s 0x0215 u) ∧
    (Accepted (q 0x93) s u → (∀ x ∈ u.ring.starts, x.own = false ∧ x.kind = 2) → RepliesOk (.carUbank r) (q 0x93) s
      [BitVec.ofNat 32 (ringTbs u), BitVec.ofNat 32 (ringTbs u / 2 ^ 32)] (ringStartPut 1 0 0 (u.set RING_UBMSK_ESQ (r.word 0 % 256)))) ∧
    (∀ x ∈ u.ring.starts, x.own = true ∨ x.kind ≠ 2 → Accepted (q 0x93) s u → RepliesStatus (.carUbank r) (q 0x93) s 0x0215 u) ∧
    (Accepted (q 0x94) s u → bitsAt (r.word 0) 4 2 ≠ memberNo u → RepliesOk (.orelSet r) (q 0x94) s []
      (orelPut (putBits (u.get RING_OREL_ASSERT) (bitsAt (r.word 0) 4 2) 1 (bitsAt (r.word 0) 0 1)) u)) ∧
    (Accepted (q 0x94) s u → bitsAt (r.word 0) 4 2 = memberNo u → RepliesStatus (.orelSet r) (q 0x94) s 0x0105 u)

/-- SESS_OPEN, SESS_CLOSE, DBG_CHAL, DBG_RESP, SEC_READ and KEY_REVOKE. The nonce is four free values. -/
def Obligations.SecurityOpcodes : Prop :=
  ∀ (r : Req) (s u : State), let q (o : BitVec 8) : Req := { r with opc := o }
    let revk := u.fuses.revk ||| BitVec.ofNat 4 (2 ^ bitsAt (r.word 0) 0 2)
    (∀ k i, Accepted (q 0xA0) s u → portKey u (bitsAt (r.word 0) 0 2) = some k →
      ((List.range 15).find? fun i => (u.session (i + 1)).isNone) = some i →
      ∃ ws t, ws.length = 4 ∧ RepliesOk (.sessOpen r) (q 0xA0) s (BitVec.ofNat 32 (i + 1) :: ws) t ∧
        (∃ x, t.session (i + 1) = some x ∧ x.epoch = 0 ∧ x.lastSeq = none ∧
          x.key = keyOf (Aes.cmac (Aes.keyBytes k) ((((r.params.drop 1).take 4) ++ ws).flatMap wordBytes))) ∧
        (∀ j, j ≠ i + 1 → t.session j = u.session j) ∧ t.regs = u.regs ∧ t.mem = u.mem) ∧
    (Accepted (q 0xA0) s u → portKey u (bitsAt (r.word 0) 0 2) = none → RepliesStatus (.sessOpen r) (q 0xA0) s 0x0105 u) ∧
    AllAnswered r s u [(.sessOpen r, 0xA0), (.sessClose r, 0xA1), (.dbgChal r, 0xA2), (.dbgResp r, 0xA3), (.secRead r, 0xA4),
      (.keyRevoke r, 0xA5)] ∧
    (Accepted (q 0xA1) s u → Replies (.sessClose r) (q 0xA1) s { status := 0, after := .closeSession } u) ∧
    (r.sess ≠ 0 → internal r.src = false → ∀ a : Ans, a.after = .closeSession → (answer (q 0xA1) a u).session r.sess.toNat = none) ∧
    (Accepted (q 0xA2) s u → debugDenied u = false → ∃ ws t, ws.length = 4 ∧ RepliesOk (.dbgChal r) (q 0xA2) s ws t ∧
      t.fuses.chal = some (keyOf (ws.flatMap wordBytes), u.time) ∧ t.fuses.dbg = u.fuses.dbg) ∧
    (Accepted (q 0xA2) s u → debugDenied u = true → RepliesStatus (.dbgChal r) (q 0xA2) s 0x0805 u) ∧
    (∀ c, Accepted (q 0xA3) s u → debugDenied u = false → u.fuses.chal = some c → u.time < c.2 + 12000000000 →
      if responseValid u c.1 (r.params.flatMap wordBytes) = true then ∃ t, RepliesOk (.dbgResp r) (q 0xA3) s
        [BitVec.ofNat 32 t.fuses.dbg.toNat] t ∧ t.fuses.dbg = (if u.fuses.dbg = 1 then 2 else u.fuses.dbg) ∧ t.regs = u.regs
      else RepliesStatus (.dbgResp r) (q 0xA3) s 0x0804 u) ∧
    (Accepted (q 0xA3) s u → debugDenied u = false → u.fuses.chal = none → RepliesStatus (.dbgResp r) (q 0xA3) s 0x0804 u) ∧
    (Accepted (q 0xA3) s u → debugDenied u = true → RepliesStatus (.dbgResp r) (q 0xA3) s 0x0805 u) ∧
    (Accepted (q 0xA4) s u → ∃ w, RepliesOk (.secRead r) (q 0xA4) s [BitVec.ofNat 32 u.fuses.dbg.toNat, BitVec.ofNat 32 u.fuses.revk.toNat,
      BitVec.ofNat 32 u.fuses.arbcnt.toNat, w] u ∧ ∀ k, k < 16 → bitsAt w.toNat (2 * k) 2 = bitsAt (portProfile u k) 24 2) ∧
    (Accepted (q 0xA5) s u → revk ≠ 15 ∨ u.fuses.revk = 15 → RepliesOk (.keyRevoke r) (q 0xA5) s [BitVec.ofNat 32 revk.toNat]
      { u with fuses := { u.fuses with revk := revk } }) ∧
    (Accepted (q 0xA5) s u → revk = 15 → u.fuses.revk ≠ 15 → RepliesStatus (.keyRevoke r) (q 0xA5) s 0x0806 u)

/-- CAL_CRL, CAL_PADC, CAL_HADC, TEST_ESQ, TEST_LOCK, SRAM_OFFLINE, TEST_SRAM, TRK_GEN, GENERATOR_EDGE, JOB_SLOT_TIMEOUT,
STAGING_BUFFER_TIMEOUT, DBG_CHALLENGE_EXPIRY and VERIFY_JOB_FINAL. -/
def Obligations.TestOpcodes : Prop :=
  (∀ (r : Req) (s u : State), let q (o : BitVec 8) : Req := { r with opc := o }
    let n := r.u
    let st := pairState u n
    let revs := bitsAt (r.word 1) 0 8
    AllAnswered r s u [(.calCrl r, 0xB0), (.calPadc r, 0xB1), (.calHadc r, 0xB2), (.testEsq r, 0xB3), (.testLock r, 0xB4),
      (.sramOffline r, 0xB5), (.testSram r, 0xB6), (.trkGen r, 0xB7)] ∧
    (Accepted (q 0xB0) s u → RepliesStatus (.calCrl r) (q 0xB0) s (crlCalRequest n u).1 (crlCalRequest n u).2) ∧
    (Accepted (q 0xB1) s u → RepliesStatus (.calPadc r) (q 0xB1) s (padcCalRequest n u).1 (padcCalRequest n u).2) ∧
    (Accepted (q 0xB2) s u → RepliesStatus (.calHadc r) (q 0xB2) s
      (if u.get HADC_STAT_CALST = 1 then 0x020B else if inGap u then 0x0001 else 0x0002) (hadcCalReq u)) ∧
    (Accepted (q 0xB3) s u → u.get (ESQ_STAT_STATE n) = 0 → u.get (ESQ_OWN_VALID n) = 0 → RepliesJob (.testEsq r) (q 0xB3) s u fun j v =>
      (esqTestStart n v).putEsq n { (esqTestStart n v).esq n with testJob := j }) ∧
    (Accepted (q 0xB4) s u → st = 1 ∨ st = 2 ∨ st = 4 → RepliesJob (.testLock r) (q 0xB4) s u fun j v =>
      (Machine.pairTest n v).modPair n fun x => { x with testJob := j }) ∧
    (Accepted (q 0xB4) s u → st ≠ 1 → st ≠ 2 → st ≠ 4 → RepliesStatus (.testLock r) (q 0xB4) s 0x0206 u) ∧
    (Accepted (q 0xB5) s u → bitAt (r.word 0) 0 = true → u.get (MEMC_BANKCTL_OFFL n) = 0 → bankInUse u n = true →
      RepliesStatus (.sramOffline r) (q 0xB5) s 0x0206 u) ∧
    (Accepted (q 0xB5) s u → (if bitAt (r.word 0) 0 then u.get (MEMC_BANKCTL_OFFL n) = 1 ∨ bankInUse u n = false
        else u.get (MEMC_BANKCTL_BIST n) = 0) →
      RepliesOk (.sramOffline r) (q 0xB5) s [] (Machine.bankOffline n (bitAt (r.word 0) 0) u)) ∧
    (Accepted (q 0xB6) s u → u.get (MEMC_BANKSTAT_ISOFF n) = 1 → u.get (MEMC_BANKCTL_BIST n) = 0 →
      RepliesJob (.testSram r) (q 0xB6) s u fun j v => { bistStart n v with bistJob := putAt n j (bistStart n v).bistJob }) ∧
    (Accepted (q 0xB7) s u → revs ≠ 0 → r.word 0 ≠ 0 → (activeWheel u n).cnt ≠ 0 →
      (∀ c : Fin 64, u.hasChan c = true → u.get (SCH_CHCFG_TRK c) = n → outen u c = false) → (u.trk n).gen = none →
      RepliesJob (.trkGen r) (q 0xB7) s u fun j v => ownTracking n (genStart n (r.word 0) (revs * 2 ^ 23) j) v)) ∧
  (∀ (s : State) (n : Fin 4) (g : Gen), TrackerRuns s n → (s.trk n).gen = some g → g.at_ ≤ s.now →
    (g.left = 0 → exec (.generatorEdge n) s = .next (State.settle (endJob g.job 0 0
      ((s.setb (AT_PCFG_FORCEG n) g.forceg).putTrk n { s.trk n with gen := none })))) ∧
    (g.left ≠ 0 →
      let w := activeWheel s n
      let e := g.entry % max w.cnt 1
      let d := ((toothAngle s w (e + 1) : Int) - toothAngle s w e) % (w.span : Int)
      let gap := min g.left (if w.cnt = 1 ∨ d = 0 then w.span else d.toNat)
      let next := { g with left := g.left - gap, entry := (e + 1) % max w.cnt 1, at_ := g.at_ + rndNat (gap * 2 ^ 24) g.rate }
      let t := s.putTrk n { s.trk n with gen := some next }
      exec (.generatorEdge n) s = .next (State.settle
        (if s.get (AT_CTL_EN n) = 1 then popEntry n (genEntry g.at_ (toothIndex s w e)) (trackerSync n t) else t)))) ∧
  ∀ s : State,
    (∀ j : Fin 16, (s.job j).st = .ended → (s.job j).endTb + 12000000000 ≤ s.time →
      exec (.jobSlotTimeout j) s = .next (State.settle (s.putJob j {}))) ∧
    (∀ o, s.perc.running = true → s.get CPR_PWRSTAT_STATE < 3 → s.gnorum.staging.owner = some o →
      s.gnorum.staging.lastTb + 200000000 ≤ s.time → exec .stagingBufferTimeout s = .next (State.settle
        { s with gnorum := { s.gnorum with staging := { s.gnorum.staging with owner := none } } })) ∧
    (∀ c, s.fuses.chal = some c → c.2 + 12000000000 ≤ s.time →
      exec .dbgChallengeExpiry s = .next (State.settle { s with fuses := { s.fuses with chal := none } })) ∧
    ∀ (j : Fin 16) (x : Upd), s.perc.running = true → s.get CPR_PWRSTAT_STATE < 3 → j ≠ 0 → s.update.verify = j.val →
      s.update.opened = some x →
      let b := !activeSlot s x.comp x.unit
      let slot := s.slot x.comp x.unit b
      let f := if slot.st = .empty then (0x0703, 0) else imageFault s x.comp x.unit x.size slot
      let t : State := { s with update := { s.update with verify := 0 } }
      exec (.verifyJobFinal j) s = .next (State.settle (endJob j f.1 f.2
        (if slot.st = .empty then t else t.putSlot x.comp x.unit b { slot with st := if f.1 = 0 then .verified else .written })))

/-! ### The application cores (R269 to R276, R288, R289, R369)

A core executes the word that the command brings, as if it stood at its pc; `CoreFetches s n w t` says that the fetch is allowed. -/

/-- CORE_INSTRUCTION, FENCE, FENCE_I, CACHE_OPERATION, DZMATT_WRITE and WFI. What an instruction word does is the RISC-V documents'
definition, which R269 names (log entry 32). -/
def Obligations.CoreInstructions : Prop :=
  (∀ (s t : State) (n : Fin 4) (w : Word), CoreFetches s n w t → w.toNat % 4 = 3 →
    let a := (t.core n).xr (bitsAt w.toNat 15 5)
    let b := (t.core n).xr (bitsAt w.toNat 20 5)
    let rd := bitsAt w.toNat 7 5
    let code := (w.toNat % 128, bitsAt w.toNat 12 3, bitsAt w.toNat 25 7)
    (∀ v : Word, (code = (0x33, 0, 0) ∧ v = a + b ∨ code = (0x33, 0, 0x20) ∧ v = a - b ∨ code = (0x33, 0, 1) ∧ v = a * b ∨
        w.toNat % 128 = 0x13 ∧ bitsAt w.toNat 12 3 = 0 ∧ v = a + w.sshiftRight 20 ∨ w.toNat % 128 = 0x37 ∧ v = w &&& 0xFFFFF000#32) →
      ∃ u, exec (.coreInstruction n w) s = .next u ∧ (∀ i, (u.core n).xr i = if i = rd ∧ rd ≠ 0 then v else (t.core n).xr i) ∧
        (u.core n).pc = (s.core n).pc + 4 ∧ (u.core n).f = (t.core n).f ∧ (u.core n).stack = (t.core n).stack ∧
        (∀ m, m ≠ n.val → u.core m = t.core m) ∧ (∀ r, notPending r = true → u.rd r = t.rd r) ∧ u.mem = t.mem) ∧
    (w.toNat % 128 = 0x63 → bitsAt w.toNat 12 3 = 0 → ∃ u, exec (.coreInstruction n w) s = .next u ∧
      (u.core n).pc = (if a = b then BitVec.ofNat 32 ((t.core n).pc.toNat + immB w.toNat) else (s.core n).pc + 4) ∧
      (u.core n).x = (t.core n).x ∧ (∀ r, notPending r = true → u.rd r = t.rd r) ∧ u.mem = t.mem) ∧
    (w.toNat % 128 = 0x6F → ∃ u, exec (.coreInstruction n w) s = .next u ∧
      (u.core n).pc = BitVec.ofNat 32 ((t.core n).pc.toNat + immJ w.toNat) ∧
      (∀ i, (u.core n).xr i = if i = rd ∧ rd ≠ 0 then (s.core n).pc + 4 else (t.core n).xr i) ∧ u.mem = t.mem) ∧
    (w.toNat % 128 = 0x03 → bitsAt w.toNat 12 3 = 2 →
      (∀ v u0, coreLoad n (a + w.sshiftRight 20).toNat 4 t = (.inr v, u0) → ∃ u, exec (.coreInstruction n w) s = .next u ∧
        (∀ i, (u.core n).xr i = if i = rd ∧ rd ≠ 0 then v else (u0.core n).xr i) ∧ (u.core n).pc = (s.core n).pc + 4) ∧
      (∀ cause u0, coreLoad n (a + w.sshiftRight 20).toNat 4 t = (.inl cause, u0) → coreRuns u0 n = true →
        exec (.coreInstruction n w) s = .next (State.settle (trap n cause (a + w.sshiftRight 20) u0)))) ∧
    (w = 0x00000073#32 → exec (.coreInstruction n w) s =
      .next (State.settle (trap n (if (t.core n).machine then 11 else 8) 0 t)))) ∧
  (∀ (s t : State) (n : Fin 4), CoreFetches s n 0 t → exec (.coreInstruction n 0) s = .next (State.settle (trap n 2 0 t))) ∧
  (∀ (s : State) (n : Fin 4) (w : Word), targetPower s n ≠ 0 → exec (.coreInstruction n w) s = .next s.settle) ∧
  (∀ (s : State) (n : Fin 4), targetPower s n = 0 →
    (∃ u, exec (.fence n) s = .next u ∧ (u.core n).pc = (s.core n).pc + 4 ∧ (u.core n).x = (s.core n).x ∧
      (u.core n).ilines = (s.core n).ilines ∧ (∀ r, notPending r = true → u.rd r = s.rd r) ∧ u.mem = s.mem) ∧
    (∃ u, exec (.fenceI n) s = .next u ∧ (u.core n).pc = (s.core n).pc + 4 ∧ (u.core n).ilines = [] ∧
      (u.core n).dlines = (s.core n).dlines ∧ (∀ r, notPending r = true → u.rd r = s.rd r) ∧ u.mem = s.mem) ∧
    ((s.core n).machine = true → ∀ v : Word, exec (.cacheOperation n v) s = .next (State.settle
      (complete n (((s.core n).pc.toNat + 4) % 2 ^ 32) id (cacheOp n v.toNat s)))) ∧
    ((s.core n).machine = false → ∀ v : Word, ∃ w, exec (.cacheOperation n v) s = .next (State.settle (trap n 2 w s))) ∧
    ∀ (i : Fin 8) (v : Word), (s.core n).machine = true → bitsAt v.toNat 1 2 ≠ 3 →
      (12 ≤ bitsAt v.toNat 7 5 → bitsAt v.toNat 7 5 ≤ 24 → v.toNat / 4096 * 4096 % 2 ^ bitsAt v.toNat 7 5 = 0 →
        ∃ u, exec (.dzmattWrite n i v) s = .next u ∧ (csrOf (u.core n) (0x7D0 + i)).toNat = v.toNat / 128 * 128 + v.toNat % 8 ∧
          (u.core n).pc = (s.core n).pc + 4 ∧ (∀ j : Fin 8, j ≠ i → csrOf (u.core n) (0x7D0 + j) = csrOf (s.core n) (0x7D0 + j))) ∧
      (bitsAt v.toNat 7 5 < 12 ∨ 24 < bitsAt v.toNat 7 5 ∨ v.toNat / 4096 * 4096 % 2 ^ bitsAt v.toNat 7 5 ≠ 0 → ∃ w, exec (.dzmattWrite n i v) s = .next (State.settle (trap n 2 w s)))) ∧
  ∀ (s : State) (n : Fin 4), coreRuns s n = true →
    ((s.core n).machine = true → ∃ u, exec (.wfi n) s = .next u ∧
      u.core n = { (s.core n).retire with pc := (s.core n).pc + 4, wfi := true } ∧ (∀ r, notPending r = true → u.rd r = s.rd r)) ∧
    ((s.core n).machine = false → bitAt (csrOf (s.core n) 0x300).toNat 21 = true →
      exec (.wfi n) s = .next (State.settle (trap n 2 0x10500073#32 s)))

/-- EXCEPTION_TRAP, MRET, DEBUG_HALT and DEBUG_STEP. -/
def Obligations.CoreContexts : Prop :=
  (∀ (s : State) (n : Fin 4) (cause : BitVec 5) (tval : Word), coreRuns s n = true →
    ((s.core n).stack.length < 24 → ∃ u, exec (.exceptionTrap n cause tval) s = .next u ∧
      (u.core n).pc = csrOf (s.core n) 0x305 &&& 0xFFFFFFFC#32 ∧ (u.core n).machine = true ∧ coreMie u n = false ∧
      csrOf (u.core n) 0x342 = BitVec.ofNat 32 cause.toNat ∧ csrOf (u.core n) 0x343 = tval ∧ (u.core n).level = (s.core n).level ∧
      (∃ x, (u.core n).stack = x :: (s.core n).stack ∧ x.pc = (s.core n).pc ∧ x.mpie = coreMie s n ∧
        x.mpp = (if (s.core n).machine then 3 else 0) ∧ x.level = (s.core n).level ∧ x.interrupt = false) ∧
      (u.core n).x = (s.core n).x ∧ (u.core n).f = (s.core n).f ∧ (∀ m, m ≠ n.val → u.core m = s.core m) ∧
      (∀ r, notPending r = true → u.rd r = s.rd r) ∧ u.mem = s.mem) ∧
    (24 ≤ (s.core n).stack.length → s.get (CPR_PAIRCTL_SPLIT (n / 2)) = 1 →
      exec (.exceptionTrap n cause tval) s = .next (State.settle (s.putCore n {}))) ∧
    (24 ≤ (s.core n).stack.length → s.get (CPR_PAIRCTL_SPLIT (n / 2)) = 0 →
      exec (.exceptionTrap n cause tval) s = .next (State.settle (pairFault (n / 2) 3 s)))) ∧
  (∀ (s : State) (n : Fin 4), coreRuns s n = true →
    ((s.core n).machine = false → exec (.mret n) s = .next (State.settle (trap n 2 0x30200073#32 s))) ∧
    ((s.core n).machine = true → (s.core n).stack = [] → ∃ u, exec (.mret n) s = .next u ∧ (u.core n).pc = csrOf (s.core n) 0x341 ∧
      (u.core n).x = (s.core n).x ∧ (∀ r, notPending r = true → u.rd r = s.rd r) ∧ u.mem = s.mem) ∧
    ∀ x rest, (s.core n).machine = true → (s.core n).stack = x :: rest →
      (x.interrupt = false → ∃ u, exec (.mret n) s = .next u ∧ (u.core n).pc = x.pc ∧ (u.core n).stack = rest ∧
        ((u.core n).machine = true ↔ x.mpp = 3) ∧ coreMie u n = x.mpie ∧ (u.core n).level = x.level ∧
        (u.core n).x = (s.core n).x ∧ (∀ r, notPending r = true → u.rd r = s.rd r) ∧ u.mem = s.mem) ∧
      (x.interrupt = true → x.source < 256 →
        let v := pendRaised (sourceIdle x.source (s.putCore n (s.core n).retire))
        (winner v n x.level x.mpie = none → ∃ u, exec (.mret n) s = .next u ∧ (u.core n).pc = x.pc ∧ (u.core n).stack = rest ∧
          (u.core n).level = x.level ∧ coreMie u n = x.mpie ∧ u.isActive x.source = false) ∧
        (∀ m, winner v n x.level x.mpie = some m → ∃ u, exec (.mret n) s = .next u ∧ u.isActive m = true ∧
          (u.core n).pc = s.rd (Reg.IRQC_VTBASE n) + BitVec.ofNat 32 (8 * m) ∧ (u.core n).stack = { x with source := m } :: rest ∧
          (u.core n).level = sourcePrio s m))) ∧
  ∀ (s : State) (n : Fin 4),
    (debugMay s = true → coreRuns s n = true → ∃ u, exec (.debugHalt n) s = .next u ∧
      u.core n = { s.core n with halted := true } ∧ coreRuns u n = false ∧ (∀ m, m ≠ n.val → u.core m = s.core m)) ∧
    (s.fuses.dbg = 1 → exec (.debugHalt n) s = .next s.settle) ∧
    ∀ w : Word, (debugMay s = true → (s.core n).halted = true → ∃ u, exec (.debugStep n w) s = .next u ∧ (u.core n).halted = true ∧
        let v := coreExecute n w (s.putCore n { s.core n with halted := false })
        u.core n = { v.core n with halted := true } ∧ u.mem = v.mem ∧ ∀ r, notPending r = true → u.rd r = v.rd r) ∧
      ((s.core n).halted = false → exec (.debugStep n w) s = .next s.settle)

/-! ### The interrupt controller (R284 to R293) -/

/-- INTERRUPT_DELIVERY_COMMIT, IRQ_ENSET, IRQ_ENCLR, IRQ_PNDSET, IRQ_PNDCLR, IRQ_TARGET_WRITE and CORE_WAKE. -/
def Obligations.InterruptController : Prop :=
  (∀ (s : State) (t lvl n : Nat) (mie : Bool), winner s t lvl mie = some n → eligibleAt s t lvl mie n = true ∧ n < 256 ∧
    ∀ m, m < 256 → eligibleAt s t lvl mie m = true → sourcePrio s m < sourcePrio s n ∨ (sourcePrio s m = sourcePrio s n ∧ n ≤ m)) ∧
  (∀ (s : State) (t : Fin 5) (n : Nat), winner s t (s.core t).level (coreMie s t) = some n →
    ((s.core t).stack.length < 24 → ∃ u, exec (.interruptDeliveryCommit t) s = .next u ∧ u.isActive n = true ∧
      u.isPending n = false ∧ (u.core t).pc = s.rd (Reg.IRQC_VTBASE t) + BitVec.ofNat 32 (8 * n) ∧
      (u.core t).level = sourcePrio s n ∧ csrOf (u.core t) 0x342 = BitVec.ofNat 32 (0x80000010 + n) ∧
      coreMie u t = coreMie s t ∧ (u.core t).machine = true ∧
      (∃ x, (u.core t).stack = x :: (s.core t).stack ∧ x.pc = (s.core t).pc ∧ x.level = (s.core t).level ∧
        x.mpie = coreMie s t ∧ x.interrupt = true ∧ x.source = n) ∧
      (u.core t).x = (s.core t).x ∧ (∀ m, m ≠ t.val → u.core m = s.core m) ∧
      (∀ r, r ≠ Reg.IRQC_ACTV (n / 32) → notPending r = true → u.rd r = s.rd r) ∧ u.mem = s.mem) ∧
    (24 ≤ (s.core t).stack.length → t.val < 4 → s.get (CPR_PAIRCTL_SPLIT (t / 2)) = 0 →
      exec (.interruptDeliveryCommit t) s = .next (State.settle (pairFault (t / 2) 3 s)))) ∧
  (∀ (s : State) (t : Fin 5), (∀ m, m < 256 → eligibleAt s t (s.core t).level (coreMie s t) m = false) →
    exec (.interruptDeliveryCommit t) s = .next s.settle) ∧
  (∀ (s : State) (w : Fin 8) (b : Word),
    (∃ u, exec (.irqEnset w b) s = .next u ∧ u.rd (Reg.IRQC_ENSET w) = s.rd (Reg.IRQC_ENSET w) ||| b ∧
      (∀ r, r ≠ Reg.IRQC_ENSET w → notPending r = true → u.rd r = s.rd r) ∧ u.mem = s.mem ∧
      ∀ i : Fin 32, b.getLsbD i = true → levelOf s (32 * w + i) = true → s.isActive (32 * w + i) = false →
        u.isPending (32 * w + i) = true) ∧
    (∃ u, exec (.irqEnclr w b) s = .next u ∧ u.rd (Reg.IRQC_ENSET w) = s.rd (Reg.IRQC_ENSET w) &&& ~~~b ∧
      (∀ r, r ≠ Reg.IRQC_ENSET w → notPending r = true → u.rd r = s.rd r) ∧ u.mem = s.mem ∧
      ∀ n, n < 256 → s.isPending n = true → u.isPending n = true) ∧
    (∃ u, exec (.irqPndset w b) s = .next u ∧ (∀ r, notPending r = true → u.rd r = s.rd r) ∧ u.mem = s.mem ∧
      ∀ i : Fin 32, b.getLsbD i = true → s.isActive (32 * w + i) = false → u.isPending (32 * w + i) = true) ∧
    ∃ u, exec (.irqPndclr w b) s = .next u ∧ (∀ r, notPending r = true → u.rd r = s.rd r) ∧ u.mem = s.mem ∧
      ∀ i : Fin 32, b.getLsbD i = true → levelOf s (32 * w + i) = false → u.isPending (32 * w + i) = false) ∧
  (∀ (s : State) (n : Fin 256) (v : Word), let t := bitsAt v.toNat 8 3; let f := bitsAt v.toNat 12 3
    (t ≤ 4 → f ≤ 4 → targetOk s t = true → targetOk s f = true → ∃ u, exec (.irqTargetWrite n v) s = .next u ∧
      u.rd (Reg.IRQC_SRCCFG n) = v &&& 0x1F70F#32 ∧ (∀ r, r ≠ Reg.IRQC_SRCCFG n → notPending r = true → u.rd r = s.rd r) ∧
      u.mem = s.mem) ∧
    (t ≤ 4 ∧ targetOk s t = false ∨ f ≤ 4 ∧ targetOk s f = false → exec (.irqTargetWrite n v) s = .next (State.settle (s.setb IRQC_ERRINFO_PARAM true)))) ∧
  ∀ (s : State) (n : Fin 4) (m : Nat), coreReady s n = true → m < 256 → s.isPending m = true → s.enabled m = true →
    sourceWake s m = true → sourceTarget s m = n →
    ∃ u, exec (.coreWake n) s = .next u ∧ u.core n = { s.core n with wfi := false } ∧
      u.power.exiting = (if s.get CPR_PWRSTAT_STATE = 1 ∨ s.get CPR_PWRSTAT_STATE = 2 then true else s.power.exiting) ∧
      (∀ r, notPending r = true → u.rd r = s.rd r) ∧ u.mem = s.mem

/-! ### Pairs and duplex (R277 to R283) -/

/-- LOCKSTEP_MISMATCH, PAIR_HEARTBEAT, PAIR_HEARTBEAT_TIMEOUT, PAIR_POWER_ON, PAIR_POWER_OFF, PAIR_RUN, PAIR_RUN_CLEAR, PAIR_TEST,
PAIR_TEST_COMPLETE and PAIR_ROLE_WRITE. The states are 0 OFF, 1 RESET, 2 BOOT, 3 ACTIVE, 4 STANDBY, 5 SPLIT, 6 FAULT, 7 TEST.
CKCOMMIT, CKACK, TKACK and TAKEOVER_TIMEOUT. -/
def Obligations.PairsAndDuplex : Prop :=
  (∀ (s : State) (p : Fin 2), let q : Nat := 1 - p.val; let st := pairState s p
    let faults (c : Instr) (cause : Nat) : Prop := ∃ t, exec c s = .next t ∧ pairState t p = 6 ∧
      t.get (CPR_PAIRSTAT_CAUSE p) = cause ∧ (∀ k, ∀ r ∈ (t.arb k).raised, r.mid / 2 ≠ p.val) ∧ t.core (2 * p) = s.core (2 * p) ∧
      (takesOver s p = true → t.get CPR_DPXSTAT_ACT = q ∧ pairState t q = 3 ∧ t.get CPR_DPXSTAT_TKACK = 0 ∧
        t.takeover = some s.time ∧ t.get CPR_DPXSTAT_TKCNT = min 255 (s.get CPR_DPXSTAT_TKCNT + 1) ∧ (t.pair q).hbTb = s.time) ∧
      (takesOver s p = false → t.get CPR_DPXSTAT_ACT = s.get CPR_DPXSTAT_ACT ∧ pairState t q = pairState s q ∧ t.takeover = s.takeover)
    (∀ c, 2 ≤ st → st ≤ 5 →
      faults (.lockstepMismatch p c) (match c with | .mismatch => 1 | .ecc => 2 | .stack => 3)) ∧
    (∀ c, st < 2 ∨ 5 < st → exec (.lockstepMismatch p c) s = .next s.settle) ∧
    (exec (.pairHeartbeat p) s = .next (State.settle (s.putPair p { s.pair p with hbTb := s.time }))) ∧
    (st = 3 → (s.pair p).hbTb + 200000 * s.get (CPR_PAIRCTL_HBT p) ≤ s.time → faults (.pairHeartbeatTimeout p) 4) ∧
    (st ≠ 3 ∨ s.time < (s.pair p).hbTb + 200000 * s.get (CPR_PAIRCTL_HBT p) →
      exec (.pairHeartbeatTimeout p) s = .next s.settle) ∧
    (hasPair s p = true →
      (∃ t, exec (.pairPowerOn p) s = .next t ∧ t.get (CPR_PAIRCTL_PWR p) = 1 ∧ pairState t p = (if st = 0 then 1 else st) ∧
        t.core (2 * p) = (if st = 0 then {} else s.core (2 * p)) ∧
        (∀ r, r ≠ Reg.CPR_PAIRCTL p → r ≠ Reg.CPR_PAIRSTAT p → notPending r = true → t.rd r = s.rd r) ∧ t.mem = s.mem) ∧
      (∃ t, exec (.pairPowerOff p) s = .next t ∧ t.get (CPR_PAIRCTL_PWR p) = 0 ∧ pairState t p = 0 ∧ t.core (2 * p) = {} ∧
        t.core (2 * p + 1) = {} ∧ pairState t q = pairState s q) ∧
      (st = 1 → ∃ t, exec (.pairRun p) s = .next t ∧ t.get (CPR_PAIRCTL_RUN p) = 1 ∧
        pairState t p = (if s.get (CPR_PAIRCTL_SPLIT p) = 1 then 5 else 2) ∧ t.core (2 * p) = {} ∧ t.core (2 * p + 1) = {} ∧
        (t.pair p).hbTb = s.time ∧ (t.pair p).bootSeq.toNat = s.get CPR_DPXSTAT_CKSEQ ∧ (t.pair p).standbyReq = false ∧ t.mem = s.mem) ∧
      (st ≠ 1 → exec (.pairRun p) s = .next (State.settle (s.setb (CPR_PAIRCTL_RUN p) true))) ∧
      (st ≠ 0 → ∃ t, exec (.pairRunClear p) s = .next t ∧ t.get (CPR_PAIRCTL_RUN p) = 0 ∧ pairState t p = 1 ∧ t.core (2 * p) = {} ∧
        t.core (2 * p + 1) = {} ∧ pairState t q = pairState s q) ∧
      (st = 1 ∨ st = 2 ∨ st = 4 → ∃ t, exec (.pairTest p) s = .next t ∧ t.get (CPR_PAIRCTL_TEST p) = 1 ∧ pairState t p = 7 ∧
        t.core (2 * p) = {} ∧ (t.pair p).testTb = s.time)) ∧
    (st ≠ 1 → st ≠ 2 → st ≠ 4 → exec (.pairTest p) s = .next s.settle) ∧
    (∀ ok : Bool, st = 7 → (s.pair p).testTb + 80000 ≤ s.time → ∃ t, exec (.pairTestComplete p ok) s = .next t ∧ pairState t p = 1 ∧
      t.get (CPR_PAIRSTAT_STRES p) = (if ok then 1 else 2) ∧ t.get (CPR_PAIRCTL_TEST p) = 0) ∧
    (st = 2 → pairState s q ≠ 3 → ∃ t, exec (.pairRoleWrite p 1) s = .next t ∧ pairState t p = 3 ∧ t.get CPR_DPXSTAT_ACT = p ∧
      t.get (CPR_PAIRCTL_ROLE p) = 1 ∧ (t.pair p).hbTb = s.time ∧ pairState t q = pairState s q) ∧
    (st = 2 → pairState s q = 3 → s.get CPR_DPXCTL_EN = 1 → ∃ t, exec (.pairRoleWrite p 2) s = .next t ∧ pairState t p = 2 ∧
      t.get (CPR_PAIRCTL_ROLE p) = 2 ∧ (t.pair p).standbyReq = true) ∧
    ∀ r, st ≠ 2 → exec (.pairRoleWrite p r) s = .next s.settle) ∧
  ((∀ (s : State) (q : BitVec 16), let last := s.get CPR_DPXSTAT_CKSEQ
    let acked := 0 ≤ sdiff 65536 ((q.toNat + 65534) % 65536 : Nat) (s.get CPR_CKACK_SEQ)
    (q.toNat = (last + 1) % 65536 → acked → ∃ t, exec (.ckcommit q) s = .next t ∧ t.get CPR_DPXSTAT_CKSEQ = q.toNat ∧
      t.get CPR_DPXSTAT_CKREF = s.get CPR_DPXSTAT_CKREF ∧
      (∀ r, r ≠ Reg.CPR_DPXSTAT → notPending r = true → t.rd r = s.rd r) ∧ t.mem = s.mem) ∧
    (q.toNat ≠ (last + 1) % 65536 ∨ ¬acked → ∃ t, exec (.ckcommit q) s = .next t ∧ t.get CPR_DPXSTAT_CKSEQ = last ∧
      t.get CPR_DPXSTAT_CKREF = 1 ∧ (∀ r, r ≠ Reg.CPR_DPXSTAT → notPending r = true → t.rd r = s.rd r) ∧ t.mem = s.mem)) ∧
  (∀ (s : State) (q : BitVec 16), ∃ t, exec (.ckack q) s = .next t ∧ t.get CPR_CKACK_SEQ = q.toNat ∧
    ∀ p : Fin 2, let other := pairState s (1 - p.val)
      (pairState s p = 2 → (s.pair p).standbyReq = true → s.get CPR_DPXCTL_EN = 1 → other = 3 →
        0 < sdiff 65536 (s.pair p).bootSeq.toNat q.toNat → sdiff 65536 (s.get CPR_DPXSTAT_CKSEQ) q.toNat ≤ 0 → pairState t p = 4) ∧
      (pairState s p ≠ 2 ∨ (s.pair p).standbyReq = false → pairState t p = pairState s p)) ∧
  ∀ s : State,
    (∀ p : Fin 2, s.get CPR_DPXSTAT_ACT ≠ p → exec (.tkack p) s = .next s.settle) ∧
    (∀ (p : Fin 2) (k : Nat), s.get CPR_DPXSTAT_ACT = p → s.takeover = some k → s.time ≤ k + 40000 →
      ∃ t, exec (.tkack p) s = .next t ∧ t.get CPR_DPXSTAT_TKACK = 1 ∧ t.takeover = none ∧
        (∀ r, r ≠ Reg.CPR_DPXSTAT → notPending r = true → t.rd r = s.rd r)) ∧
    (∀ k : Nat, s.takeover = some k → k + 40000 ≤ s.time → pairInService s (s.get CPR_DPXSTAT_ACT) = true →
      exec .takeoverTimeout s = .next (State.settle (pairFault (s.get CPR_DPXSTAT_ACT) 5 { s with takeover := none }))) ∧
    (s.takeover = none → exec .takeoverTimeout s = .next s.settle))

/-! ### Shared SRAM, access tables, arbiters, locks (R296 to R298, R302 to R314) -/

/-- SCRUB_READ, BANK_OFFLINE, BANK_BIST_START, BANK_BIST_DONE, ACT_BANK_SWITCH, MID_REVOKE and ARBITER_GRANT. -/
def Obligations.MemoryBanks : Prop :=
  (∀ (s : State) (b : Fin 12), s.get (MEMC_BANKCTL_SCRUB b) = 1 → s.get (MEMC_BANKSTAT_ISOFF b) = 0 →
    let x := findAt (fun _ => (0, 0)) b s.scrub
    let i := x.1
    let a := bankBase b + 4 * i
    let due := 2 * s.get MEMC_SCRUB_SDIV ≤ 3 * (s.time - x.2) ∧ (s.arb b).grant = none ∧ (s.arb b).raised = []
    (¬due → exec (.scrubRead b) s = .next s.settle) ∧
    (due → i < 131072 → ∃ t, exec (.scrubRead b) s = .next t ∧ findAt (fun _ => (0, 0)) b t.scrub = ((i + 1) % 131072, s.time) ∧ t.mem = s.mem ∧ t.ecc = s.ecc ∧
      (a ∈ s.soft → a ∉ t.soft ∧ t.get (MEMC_BANKSTAT_CECNT b) = min (2 ^ (MEMC_BANKSTAT_CECNT b).width - 1)
        (s.get (MEMC_BANKSTAT_CECNT b) + 1)) ∧
      (a ∈ s.ecc → t.get (MEMC_BANKSTAT_UE b) = 1 ∧ (s.get (MEMC_BANKSTAT_UE b) = 0 → t.rdn (Reg.MEMC_UEADDR b) = a)))) ∧
  (∀ (s : State) (b : Fin 12), let inside (a : Nat) : Prop := bankBase b ≤ a ∧ a < bankBase b + 0x80000
    (s.get (MEMC_BANKCTL_OFFL b) = 0 → bankInUse s b = false → ∃ t, exec (.bankOffline b true) s = .next t ∧
      t.get (MEMC_BANKCTL_OFFL b) = 1 ∧ t.get (MEMC_BANKSTAT_ISOFF b) = 1 ∧ t.mem = s.mem ∧
      (∀ r, r ≠ Reg.MEMC_BANKCTL b → r ≠ Reg.MEMC_BANKSTAT b → notPending r = true → t.rd r = s.rd r)) ∧
    (s.get (MEMC_BANKCTL_OFFL b) = 0 → bankInUse s b = true →
      exec (.bankOffline b true) s = .next (State.settle (s.setb MEMC_ERRINFO_PARAM true))) ∧
    (s.get (MEMC_BANKCTL_OFFL b) = 1 → s.get (MEMC_BANKCTL_BIST b) = 1 →
      exec (.bankOffline b false) s = .next (State.settle (s.setb MEMC_ERRINFO_PARAM true))) ∧
    (s.get (MEMC_BANKCTL_OFFL b) = 1 → s.get (MEMC_BANKCTL_BIST b) = 0 → ∃ t, exec (.bankOffline b false) s = .next t ∧ t.get (MEMC_BANKCTL_OFFL b) = 0 ∧
      t.get (MEMC_BANKSTAT_ISOFF b) = 0 ∧ (∀ a, inside a → t.byte a = 0 ∧ a ∉ t.ecc) ∧ (∀ a, ¬inside a → t.byte a = s.byte a)) ∧
    (s.get (MEMC_BANKCTL_BIST b) = 0 → s.get (MEMC_BANKSTAT_ISOFF b) = 1 → ∃ t, exec (.bankBistStart b) s = .next t ∧
      t.get (MEMC_BANKCTL_BIST b) = 1 ∧ findAt (fun _ => 0) b t.bistTb = s.time ∧ t.mem = s.mem) ∧
    (s.get (MEMC_BANKCTL_BIST b) = 0 → s.get (MEMC_BANKSTAT_ISOFF b) = 0 →
      exec (.bankBistStart b) s = .next (State.settle (s.setb MEMC_ERRINFO_PARAM true))) ∧
    ∀ ok : Bool, s.get (MEMC_BANKCTL_BIST b) = 1 → findAt (fun _ => 0) b s.bistTb + 8000000 ≤ s.time →
      ∃ t, exec (.bankBistDone b ok) s = .next t ∧ t.get (MEMC_BANKCTL_BIST b) = 0 ∧
        t.get (MEMC_BANKSTAT_BISTRES b) = (if ok then 1 else 2) ∧ (∀ a, inside a → t.byte a = 0) ∧
        (∀ a, ¬inside a → t.byte a = s.byte a)) ∧
  (∀ s : State, ∃ t, exec .actBankSwitch s = .next t ∧ t.get ACT_CTL_SEL = 1 - s.get ACT_CTL_SEL ∧ t.get ACT_CTL_SWREQ = 0 ∧
    (∀ r, r ≠ Reg.ACT_CTL → notPending r = true → t.rd r = s.rd r) ∧ t.mem = s.mem) ∧
  (∀ (s : State) (m : Fin 64), LocksNamed s →
    ∃ t, exec (.midRevoke m) s = .next t ∧ revoked t m = true ∧ (∀ j : Fin 64, j ≠ m → revoked t j = revoked s j) ∧ t.wait m = {} ∧
      ∀ l : Fin 64, ((s.lock l).owner = some m.val → (t.lock l).owner ≠ some m.val ∧ (t.lock l).broken = true) ∧
        ((s.lock l).owner ≠ some m.val → (t.lock l).owner = (s.lock l).owner ∧ (t.lock l).broken = (s.lock l).broken)) ∧
  ∀ (s : State) (t : Fin 17) (beats : Nat) (new : List BusReq), let a := s.arb t
    let fresh := arbRaises s t a.order new
    let raised := a.raised ++ fresh
    let N := s.get ARB_CFG_REFILL
    let n := if N ≤ a.count then 1 else a.count + 1
    let decides (R : List ArbReq) : Prop := ∃ u r, let go := !r.resumes || actAllows s r.mid r.addr r.write
      exec (.arbiterGrant t beats new) s = .next (State.settle (if go then u else recordViolation r.mid r.addr r.write u)) ∧ r ∈ R ∧
      (u.arb t).grant = (if go then some r else none) ∧ (u.arb t).raised = R.erase r ∧ (u.arb t).count = n ∧
      (n = N → ∀ x ∈ R, r.order < x.order ∨ (r.order = x.order ∧ r.mid ≤ x.mid)) ∧
      (n ≠ N → ∀ x ∈ R, rankOf s x.mid < rankOf s r.mid ∨ (rankOf s x.mid = rankOf s r.mid ∧ r.mid ≤ x.mid)) ∧
      (∀ k, k ≠ t.val → u.arb k = s.arb k) ∧ { u with arbs := s.arbs } = s
    (∀ x ∈ fresh, issues s x.mid = true ∧ (arbRange t).1 ≤ x.addr ∧ x.addr / 8 * 8 + 8 * x.left ≤ (arbRange t).1 + (arbRange t).2) ∧
    (a.grant = none → raised ≠ [] → decides raised) ∧
    ∀ g, a.grant = some g →
      (g.left ≤ beats → raised ≠ [] → decides raised) ∧
      (beats < g.left → g.preemptible = true → a.refill = false → (∃ r ∈ raised, rankOf s g.mid < rankOf s r.mid) →
        decides (raised ++ [g.preempted beats a.order])) ∧
      (beats < g.left → g.preemptible = false ∨ a.refill = true ∨ (∀ r ∈ raised, rankOf s r.mid ≤ rankOf s g.mid) → ∃ u, exec (.arbiterGrant t beats new) s = .next u ∧
        (u.arb t).grant = some g ∧ (u.arb t).raised = raised ∧ (u.arb t).count = a.count)

/-- LOCK_ACQUIRE, LOCK_TRY, LOCK_RELEASE and LOCK_WAIT_TIMEOUT. The word of a read is the owner in bits 23 to 16 and RES. -/
def Obligations.Locks : Prop :=
  ∀ (s : State) (m l : Fin 64), let k := s.lock l; let w := s.wait m
    let word (owner res : Nat) : Word := BitVec.ofNat 32 (owner * 65536 + res)
    let acq : Prop := Granted s m (Reg.LKB_ACQ l) false
    let try_ : Prop := Granted s m (Reg.LKB_TRY l) false
    let rel : Prop := Granted s m (Reg.LKB_REL l) true
    let took (c : Instr) : Prop := ∃ t, exec c s = .next t ∧ t.lock l = { k with owner := some m.val, broken := false } ∧
      t.resp = { mid := m, data := word m (if k.broken then 1 else 0), err := false } ∧
      (∀ j, j ≠ l.val → t.lock j = s.lock j) ∧ t.mem = s.mem
    let answers (c : Instr) (owner res : Nat) : Prop := exec c s =
      .next (State.settle { s with resp := { mid := m, data := word owner res, err := false } })
    (acq → l.val ∉ w.granted → w.lock = none → k.owner = none → took (.lockAcquire m l)) ∧
    (acq → l.val ∈ w.granted → k.owner = some m.val → took (.lockAcquire m l) ∧ let rest := w.granted.filter (· != l.val)
      ∃ t, exec (.lockAcquire m l) s = .next t ∧ t.get (LKB_WSTAT_GRANT m) = (if rest = [] then 0 else 1) ∧
        (t.wait m).granted = rest) ∧
    (acq → l.val ∉ w.granted → w.lock = none → k.owner = some m.val → answers (.lockAcquire m l) m 5) ∧
    (∀ o, acq → k.owner = some o → o ≠ m.val → l.val ∉ w.granted →
      (w.lock = some l.val → answers (.lockAcquire m l) o 2) ∧
      (w.lock = none → chainReaches s m 64 l = true → ∃ t, exec (.lockAcquire m l) s = .next t ∧ t.resp.data = word o 3 ∧
        t.get (LKB_WSTAT_DLCK m) = 1 ∧ t.wait m = w ∧ t.lock l = k) ∧
      (w.lock = none → chainReaches s m 64 l = false → ∃ t, exec (.lockAcquire m l) s = .next t ∧ t.resp.data = word o 2 ∧
        t.lock l = { k with waiters := k.waiters ++ [m.val] } ∧ (t.wait m).lock = some l.val ∧ (t.wait m).since = s.time)) ∧
    (try_ → k.owner = none → took (.lockTry m l)) ∧
    (∀ o, try_ → k.owner = some o → answers (.lockTry m l) o (if o = m.val then 5 else 4)) ∧
    (rel → k.owner = some m.val → k.waiters = [] → ∃ t, exec (.lockRelease m l) s = .next t ∧ t.lock l = { k with owner := none } ∧
      (∀ j, j ≠ l.val → t.lock j = s.lock j) ∧ t.mem = s.mem) ∧
    (∀ j rest, rel → k.owner = some m.val → k.waiters = j :: rest → j ≠ m.val → revoked s j = false → ∃ t, exec (.lockRelease m l) s = .next t ∧
      (t.lock l).owner = some j ∧ (t.lock l).broken = k.broken ∧ (t.lock l).waiters = rest.filter (fun x => !revoked s x) ∧
      t.get (LKB_WSTAT_GRANT j) = 1 ∧ (t.wait j).granted = (s.wait j).granted ++ [l.val] ∧ (t.wait j).lock = none) ∧
    (rel → k.owner ≠ some m.val → exec (.lockRelease m l) s = .next (State.settle (s.setb LKB_ERRINFO_NOTOWN true))) ∧
    (∀ j : Fin 64, w.lock = some j.val → w.since + 200 * s.get LKB_TMO_TMO ≤ s.time → ∃ t, exec (.lockWaitTimeout m) s = .next t ∧
      m.val ∉ (t.lock j).waiters ∧ (t.wait m).lock = none ∧ t.get (LKB_WSTAT_TOUT m) = 1 ∧ (t.lock j).owner = (s.lock j).owner) ∧
    (w.lock = none → exec (.lockWaitTimeout m) s = .next s.settle)

/-! ### DMA channels and hardware queues (R319 to R334) -/

/-- DMA_KICK, DMA_RST, DMA_CLRERR, DMA_DESCRIPTOR_FETCH, DMA_TRANSFER_COMPLETE, DMA_ERROR_RESPONSE and DMA_WRITEBACK_COMPLETE. The states
are 0 IDLE, 1 FETCH, 2 XFER, 3 WB, 4 ERROR. -/
def Obligations.DmaChannels : Prop :=
  ∀ (s : State) (n : Fin 16), let st := dmaState s n; let d := s.dma n
    (st = 0 → s.get (DMA_CTL_EN n) = 1 → ∃ t, exec (.dmaKick n) s = .next t ∧ dmaState t n = 1 ∧ t.get (DMA_CTL_KICK n) = 0 ∧
      t.dma n = d ∧ (∀ r, r ≠ Reg.DMA_CTL n → r ≠ Reg.DMA_STAT n → notPending r = true → t.rd r = s.rd r) ∧ t.mem = s.mem) ∧
    (st ≠ 0 ∨ s.get (DMA_CTL_EN n) = 0 → exec (.dmaKick n) s = .next (State.settle (s.setb (DMA_CTL_KICK n) true))) ∧
    (LocksNamed s → ∃ t, exec (.dmaRst n) s = .next t ∧ dmaState t n = 0 ∧ t.get (DMA_RCFG_CUR n) = 0 ∧ t.get (DMA_CTL_KICK n) = 0 ∧
      t.get (DMA_STAT_DONEF n) = 0 ∧ t.get (DMA_STAT_WBERR n) = 0 ∧ dmaWaits t n = false ∧ t.dma n = {} ∧
      t.wait (32 + n) = {} ∧ t.mem = s.mem) ∧
    (st = 4 → s.get (DMA_CTL_KICK n) = 0 → exec (.dmaClrerr n) s = .next (State.settle (s.set (DMA_STAT_STATE n) 0))) ∧
    (st ≠ 4 → exec (.dmaClrerr n) s = .next s.settle) ∧
    (st = 1 → ∀ ws u, readWords (32 + n) (dmaDescAddr s n) 8 s = (some ws, u) → let f : Dma := { desc := ws }
      (bitAt (f.word 0) 31 = false → u.get (DMA_CTL_KICK n) = 0 →
        exec (.dmaDescriptorFetch n) s = .next (State.settle (u.set (DMA_STAT_STATE n) 0))) ∧
      (bitAt (f.word 0) 31 = true → dmaInvalid u n f = false →
        exec (.dmaDescriptorFetch n) s = .next (State.settle ((u.putDma n f).set (DMA_STAT_STATE n) 2))) ∧
      (bitAt (f.word 0) 31 = true → dmaInvalid u n f = true → ∃ t, exec (.dmaDescriptorFetch n) s = .next t ∧ dmaState t n = 3 ∧
        t.dma n = { f with status := 3 } ∧ t.mem = u.mem)) ∧
    (st = 1 → ∀ u, readWords (32 + n) (dmaDescAddr s n) 8 s = (none, u) →
      exec (.dmaDescriptorFetch n) s = .next (State.settle (u.set (DMA_STAT_STATE n) 4))) ∧
    (st = 2 → d.fromQueue = false → d.toQueue = false → d.len = 4 → d.done = 0 →
      ∀ w u v, busRead (32 + n) (srcAt d 0) .word s = (some w, u) →
        busWrite (32 + n) (dstAt d 0) .word w u = (true, v) → dmaState v n = 2 →
        ∃ t, exec (.dmaTransferComplete n) s = .next t ∧ dmaState t n = 3 ∧ (t.dma n).status = 0 ∧ (t.dma n).done = d.len ∧
          t.mem = v.mem) ∧
    (st = 2 → d.fromQueue = true ∧ (s.queue (d.word 1 % 32)).items = [] ∨ d.toQueue = true ∧ queueRoom s (d.word 2 % 32) = false →
      d.done < d.len → exec (.dmaTransferComplete n) s = .next s.settle ∧ inWord (DMA_STAT_QWAIT n) (peek s (Reg.DMA_STAT n)).toNat = 1) ∧
    inWord (DMA_STAT_QWAIT n) (peek s (Reg.DMA_STAT n)).toNat = (dmaWaits s n).toNat ∧
    (∀ st off a, let t := dmaFinish n st off a s
      dmaState t n = 3 ∧ t.mem = s.mem ∧ t.dma n = { d with status := st, done := off, errAddr := a }) ∧
    (∀ w : Bool, st = 2 → d.done < d.len → beatWaits s d = false → (if w then d.toQueue else d.fromQueue) = false →
      (∀ u, beatFetch n s = .inl u → exec (.dmaErrorResponse n w d.done) s = .next (State.settle u)) ∧
      ∀ ws v, beatFetch n s = .inr (ws, v) →
        let u := beatStore n d.done (beatBytes d d.done) d ws v
        exec (.dmaErrorResponse n w d.done) s = .next (State.settle
          (if w = false then dmaFinish n 1 d.done (srcAt d d.done) s
            else if dmaState u n = 3 then u else dmaFinish n 2 d.done (dstAt d d.done) v))) ∧
    (st ≠ 2 → (∀ w o, exec (.dmaErrorResponse n w o) s = .next s.settle) ∧ exec (.dmaTransferComplete n) s = .next s.settle) ∧
    (st = 3 → let a := dmaDescAddr s n
      let ws := [(a + 16, BitVec.ofNat 32 (2 ^ 31 + d.status * 2 ^ 28 + d.poison.toNat * 2 ^ 8)), (a + 20, BitVec.ofNat 32 d.done),
        (a + 24, BitVec.ofNat 32 d.errAddr), (a, BitVec.ofNat 32 (putBits (d.word 0) 31 1 0))]
      (∃ t, exec (.dmaWritebackComplete n true) s = .next t ∧ dmaState t n = 4 ∧ t.get (DMA_STAT_WBERR n) = 1 ∧ t.mem = s.mem ∧
        t.get (DMA_RCFG_CUR n) = s.get (DMA_RCFG_CUR n)) ∧
      ∀ u, writeWords (32 + n) ws s = (true, u) → s.get (DMA_RCFG_RSZ n) ≤ 10 → ∃ t, exec (.dmaWritebackComplete n false) s = .next t ∧ t.mem = u.mem ∧
        t.get (DMA_RCFG_CUR n) = (s.get (DMA_RCFG_CUR n) + 1) % 2 ^ s.get (DMA_RCFG_RSZ n) ∧
        (d.status ≠ 0 → dmaState t n = 4) ∧
        (d.status = 0 → dmaState t n = (if s.get (DMA_CTL_EN n) = 1 then 1 else 0) ∧
          (bitAt (d.word 0) 30 = true → t.get (DMA_STAT_DONEF n) = 1)))

/-- QUEUE_PUSH, QUEUE_POP, QUEUE_GRANT and QUEUE_ENABLE. -/
def Obligations.HardwareQueues : Prop :=
  ∀ (s : State) (m : Fin 64) (q : Fin 32), let k := s.queue q
    let push : Prop := Granted s m (Reg.Q_PUSH q) true
    let pop : Prop := Granted s m (Reg.Q_POP q) false
    let grant : Prop := Granted s m (Reg.Q_GRANT q) true
    let keeps (t : State) : Prop := (∀ p, p ≠ q.val → t.queue p = s.queue p) ∧ t.mem = s.mem
    (∀ v : Word, push → s.get (Q_CFG_EN q) = 0 → exec (.queuePush m q v) s = .next s.settle) ∧
    (∀ v : Word, push → s.get (Q_CFG_EN q) = 1 → queueProducer s q m = false →
      exec (.queuePush m q v) s = .next (State.settle (s.setb (Q_STAT_WRONG q) true))) ∧
    (∀ v : Word, push → s.get (Q_CFG_EN q) = 1 → queueProducer s q m = true →
      let x : QItem := ⟨v, if 12 ≤ s.get (Q_CFG_DSH q) then BitVec.ofNat 6 (s.get (Q_PTAG_TAG q)) else 0, false, false, false⟩
      (s.get (Q_CFG_MODE q) = 0 → k.cred ≠ 0 → exec (.queuePush m q v) s =
        .next (State.settle (s.putQueue q { k with items := k.items ++ [x], cred := k.cred - 1 }))) ∧
      (s.get (Q_CFG_MODE q) = 0 → k.cred = 0 → ∃ t, exec (.queuePush m q v) s = .next t ∧ t.queue q = k ∧
        t.get (Q_STAT_NOCR q) = 1 ∧ t.get (Q_TALLY_LOSTCNT q) = min (2 ^ (Q_TALLY_LOSTCNT q).width - 1) (s.get (Q_TALLY_LOSTCNT q) + 1) ∧
        keeps t) ∧
      (s.get (Q_CFG_MODE q) = 1 → k.items.length < 2 ^ s.get (Q_CFG_DSH q) → ∃ t, exec (.queuePush m q v) s = .next t ∧
        (t.queue q).items = k.items ++ [x] ∧ keeps t) ∧
      (s.get (Q_CFG_MODE q) = 1 → 2 ^ s.get (Q_CFG_DSH q) ≤ k.items.length → ∃ t, exec (.queuePush m q v) s = .next t ∧
        (t.queue q).items = k.items.drop 1 ++ [x] ∧ t.get (Q_STAT_LOSTF q) = 1 ∧ keeps t)) ∧
    (pop → s.get (Q_CFG_EN q) = 1 → s.get (Q_CFG2_CMID q) ≠ m → ∃ t, exec (.queuePop m q) s = .next t ∧ t.queue q = k ∧
      t.get (Q_STAT_WRONG q) = 1 ∧ t.resp = { mid := m, data := 0, err := false } ∧ keeps t) ∧
    (pop → s.get (Q_CFG_EN q) = 1 → s.get (Q_CFG2_CMID q) = m → k.items = [] → ∃ t, exec (.queuePop m q) s = .next t ∧
      t.queue q = k ∧ t.resp.data = 0 ∧ findAt (fun _ => none) (holdKey m (Reg.Q_POPSTAT q)) t.hold = some 0 ∧ keeps t) ∧
    (∀ x rest, pop → s.get (Q_CFG_EN q) = 1 → s.get (Q_CFG2_CMID q) = m → k.items = x :: rest → ∃ t, exec (.queuePop m q) s = .next t ∧
      t.resp = { mid := m, data := x.data, err := false } ∧ (t.queue q).items = rest ∧
      (t.queue q).cred = k.cred + (if s.get (Q_CFG_MODE q) = 0 ∧ s.get (Q_CFG_CRAUTO q) = 1 then 1 else 0) ∧
      (t.queue q).rsv = k.rsv + (if s.get (Q_CFG_MODE q) = 0 ∧ s.get (Q_CFG_CRAUTO q) = 0 then 1 else 0) ∧
      findAt (fun _ => none) (holdKey m (Reg.Q_POPSTAT q)) t.hold = some (popStat s q x rest.length) ∧
      (x.ue = true ∨ x.poison = true → t.get (Q_STAT_UEF q) = 1) ∧
      (x.ce = true → x.ue = false → t.get (Q_TALLY_CECNT q) =
        min (2 ^ (Q_TALLY_CECNT q).width - 1) (s.get (Q_TALLY_CECNT q) + 1)) ∧ keeps t) ∧
    (∀ j : BitVec 15, grant → s.get (Q_CFG2_CMID q) = m → s.get (Q_CFG_EN q) = 1 → s.get (Q_CFG_MODE q) = 0 → let g := min j.toNat k.rsv
      exec (.queueGrant m q j) s = .next (State.settle (s.putQueue q { k with cred := k.cred + g, rsv := k.rsv - g }))) ∧
    (∀ j : BitVec 15, grant → s.get (Q_CFG2_CMID q) ≠ m → exec (.queueGrant m q j) s = .next (State.settle (s.setb (Q_STAT_WRONG q) true))) ∧
    (s.get (Q_CFG_EN q) = 0 → queueRefused s q = false → ∃ t, exec (.queueEnable q) s = .next t ∧ t.get (Q_CFG_EN q) = 1 ∧
      t.queue q = { items := [], cred := s.get (Q_CFG3_INITCR q), rsv := queueDepth s q - s.get (Q_CFG3_INITCR q) } ∧ keeps t) ∧
    (s.get (Q_CFG_EN q) = 0 → s.get (Q_CFG_DSH q) < 2 ∨ 14 < s.get (Q_CFG_DSH q) ∨
      2 ^ s.get (Q_CFG_DSH q) < s.get (Q_CFG3_INITCR q) ∨ s.get (Q_CFG_BASE q) % 2 ^ s.get (Q_CFG_DSH q) ≠ 0 →
      ∃ t, exec (.queueEnable q) s = .next t ∧ t.get QM_ERRINFO_PARAM = 1 ∧ t.get QM_ERRINFO_QNUM = q ∧ t.get (Q_CFG_EN q) = 0 ∧
        t.queue q = k ∧ keeps t)

/-! ### The Percolator, the Kettle, recovery, start of the firmware (R335 to R368) -/

/-- LOG_RECORD_OFFER, LOG_ITEM_TAKE, COALESCE_WINDOW_CLOSE, LOG_BUCKET_REFILL, INCIDENT_INTERVAL, INCIDENT_SUMMARY, FLASH_LOG_COPY,
LOG_LOSS_INCREMENT and PERC_FAULT_OBSERVE. -/
def Obligations.EventLog : Prop :=
  (∀ (s : State) (ev : LogEvent), ¬PercActs s → exec (.logRecordOffer ev) s = .next s.settle) ∧
  (∀ (s : State) (ev : LogEvent), PercActs s → coalesceFor s ev = none → (∀ k, findAt (fun _ => none) k s.perc.alarms = none) →
    let b := (bucketRefill ev.src.toNat s).bucket ev.src.toNat
    let written (left : Nat) : Prop := ∃ t r, exec (.logRecordOffer ev) s = .next t ∧
      r.lseq = s.rd Reg.PST_LSEQ ∧ r.tb = s.tb ∧ r.cls = ev.cls ∧ r.src = ev.src ∧ r.code = ev.code ∧ r.arg0 = ev.arg0 ∧
      r.arg1 = ev.arg1 ∧ r.rep = 1 ∧ r.pending = true ∧ r.summ = false ∧ r.dly = false ∧
      t.rd Reg.PST_LSEQ = s.rd Reg.PST_LSEQ + 1 ∧ t.perc.offered = s.perc.offered + 1 ∧
      (t.bucket ev.src.toNat).tokens = left ∧
      (s.perc.ring.length < 2048 → t.perc.ring = s.perc.ring ++ [r] ∧ r.slot = s.perc.ring.length) ∧
      (2048 ≤ s.perc.ring.length → t.perc.ring = dropFirst (fun x => !x.pending) s.perc.ring ++ [r] ∧
        ∀ x, s.perc.ring.find? (fun x => !x.pending) = some x → r.slot = x.slot) ∧
      (∀ a, a ≠ Reg.PST_LSEQ → notPending a = true → t.rd a = s.rd a) ∧
      let e := 0x60030000 + 32 * r.slot
      (∀ i, i < 8 → t.word (e + 4 * i) = (recWords r).getD i 0) ∧ ∀ a, a < e ∨ e + 32 ≤ a → t.byte a = s.byte a
    let room : Prop := s.perc.ring.length < 2048 ∨ ∃ r ∈ s.perc.ring, r.pending = false
    (ev.cls = 0 → room → written (s.bucket ev.src.toNat).tokens) ∧
    (ev.cls ≠ 0 → s.get PST_STATE_INCID = 0 ∨ ev.cls = 1 → b.tokens ≠ 0 → room → written (b.tokens - 1)) ∧
    (ev.cls ≠ 0 → s.get PST_STATE_INCID = 0 ∨ ev.cls = 1 → b.tokens = 0 →
      ∃ t, exec (.logRecordOffer ev) s = .next t ∧ t.perc.ring = s.perc.ring ∧ t.rd Reg.PST_LSEQ = s.rd Reg.PST_LSEQ ∧
        (ev.cls = 1 → t.get PST_LOSS0_ERRLOSS = min 65535 (s.get PST_LOSS0_ERRLOSS + 1)) ∧
        (ev.cls = 2 → t.get PST_LOSS0_WARNLOSS = min 65535 (s.get PST_LOSS0_WARNLOSS + 1)) ∧
        (ev.cls = 3 → t.get PST_LOSS1_INFOLOSS = min 65535 (s.get PST_LOSS1_INFOLOSS + 1))) ∧
    (2 ≤ ev.cls.toNat → s.get PST_STATE_INCID = 1 → ∃ t x, exec (.logRecordOffer ev) s = .next t ∧ t.perc.ring = s.perc.ring ∧
      findAt (fun _ => none) ev.src.toNat t.perc.summaries = some x ∧ x.cls.toNat ≤ ev.cls.toNat ∧
      (findAt (fun _ => none) ev.src.toNat s.perc.summaries = none → x.offered = 1 ∧ x.dropped = 0) ∧
      ∀ y, findAt (fun _ => none) ev.src.toNat s.perc.summaries = some y → x.offered = y.offered + 1 ∧ x.dropped = y.dropped)) ∧
  (∀ (s : State) (ev : LogEvent) (k : Nat) (c : Coalesce), PercActs s → coalesceFor s ev = some k →
    findAt (fun _ => none) k s.perc.windows = some c → s.time / 200000 < (c.openTb + 200000000) / 200000 →
    ∃ t, exec (.logRecordOffer ev) s = .next t ∧ t.perc.windows = s.perc.windows ∧ t.rd Reg.PST_LSEQ = s.rd Reg.PST_LSEQ ∧
      t.perc.ring = s.perc.ring.map (fun r => if r.lseq = c.lseq then
        { r with rep := if r.rep = 0xFFFF then r.rep else r.rep + 1,
                 lastdt := BitVec.ofNat 16 (min 0xFFFF ((s.time - c.openTb) / 200000)) } else r) ∧
      ∀ a, (∀ r ∈ s.perc.ring, r.lseq = c.lseq → a < 0x60030000 + 32 * r.slot ∨ 0x60030000 + 32 * r.slot + 32 ≤ a) → t.byte a = s.byte a) ∧
  (∀ s : State, PercActs s → s.get (Q_CFG_EN 31) = 1 →
    ((s.queue 31).items = [] → exec .logItemTake s = .next s.settle) ∧
    ∀ x rest, (s.queue 31).items = x :: rest →
      (32 ≤ bitsAt x.data.toNat 24 6 → x.ue = false → x.poison = false →
        exec .logItemTake s = .next (State.settle (offer
          { cls := if bitsAt x.data.toNat 30 2 = 0 then 1 else BitVec.ofNat 2 (bitsAt x.data.toNat 30 2),
            src := BitVec.ofNat 6 (bitsAt x.data.toNat 24 6), code := BitVec.ofNat 16 (bitsAt x.data.toNat 8 16),
            arg0 := BitVec.ofNat 32 (x.tag.toNat * 256 + bitsAt x.data.toNat 0 8), arg1 := 0 } (s.perc.delayed != 0)
          ((queueTake 31 s).2.modPerc fun p => { p with delayed := p.delayed - 1 })))) ∧
      (bitsAt x.data.toNat 24 6 < 32 ∨ x.ue = true ∨ x.poison = true → ∃ t, exec .logItemTake s = .next t ∧
        (t.queue 31).items = rest ∧ t.get PST_LOSS1_BADITEM = min 65535 (s.get PST_LOSS1_BADITEM + 1) ∧ t.perc.ring = s.perc.ring)) ∧
  (∀ (s : State) (k : Fin 64) (c : Coalesce), PercActs s → findAt (fun _ => none) k s.perc.windows = some c →
    (c.openTb + 200000000 ≤ s.time → ∃ t, exec (.coalesceWindowClose k) s = .next t ∧
      findAt (fun _ => none) k t.perc.windows = none ∧ t.perc.ring = s.perc.ring) ∧
    (s.time < c.openTb + 200000000 → exec (.coalesceWindowClose k) s = .next s.settle)) ∧
  (∀ (s : State) (k : Fin 64), PercActs s → ∃ t, exec (.logBucketRefill k) s = .next t ∧
    (t.bucket k).tokens = min (s.bucket k).burst ((s.bucket k).tokens + (s.time - (s.bucket k).refillTb) * (s.bucket k).rate / 200000000) ∧
    (t.bucket k).rate = (s.bucket k).rate ∧ (∀ j, j ≠ k.val → t.bucket j = s.bucket j) ∧ t.perc.ring = s.perc.ring) ∧
  (∀ s : State, PercActs s →
    (s.get PST_STATE_INCID = 0 → 10 < s.perc.offered → 9 ≤ s.perc.overs → ∃ t, exec .incidentInterval s = .next t ∧
      t.get PST_STATE_INCID = 1 ∧ t.perc.offered = 0) ∧
    (s.get PST_STATE_INCID = 1 → s.perc.offered < 2 → 99 ≤ s.perc.under → ∃ t, exec .incidentInterval s = .next t ∧
      t.get PST_STATE_INCID = 0 ∧ t.perc.offered = 0) ∧
    (s.perc.overs < 9 → s.perc.under < 99 → exec .incidentInterval s = .next (State.settle (s.modPerc fun p =>
      { p with offered := 0, overs := if 10 < p.offered then p.overs + 1 else 0, under := if p.offered < 2 then p.under + 1 else 0 })))) ∧
  (∀ s : State, PercActs s →
    (s.time < s.perc.sumTb + 200000000 → exec .incidentSummary s = .next s.settle) ∧
    (s.perc.sumTb + 200000000 ≤ s.time → ∀ k x, s.perc.summaries = [(k, some x)] → s.perc.ring.length < 2048 → k < 64 →
      ∃ t r, exec .incidentSummary s = .next t ∧ t.perc.summaries = [] ∧ t.perc.sumTb = s.perc.sumTb + 200000000 ∧
        t.perc.ring = s.perc.ring ++ [r] ∧ r.summ = true ∧ r.code = 0xFFFF ∧ r.src.toNat = k ∧ r.cls = x.cls ∧
        r.arg0 = BitVec.ofNat 32 x.offered ∧ r.arg1 = BitVec.ofNat 32 x.dropped)) ∧
  (∀ s : State, PercActs s → let ready (r : LogRec) : Bool := r.pending && !coalesceOpen s r
    (flashReady s = false → exec .flashLogCopy s = .next s.settle) ∧
    (∀ k, s.perc.flashTb = some k → (flashReady s = true ↔ k + 1000000 ≤ s.time)) ∧
    (∀ r, flashReady s = true → s.perc.ring.find? ready = some r → ∃ t, exec .flashLogCopy s = .next t ∧
      t.perc.flash = (if s.perc.flash.length = 256 * 2048 then s.perc.flash.drop 2048 else s.perc.flash) ++ [{ r with pending := false }] ∧
      t.perc.ring.length = s.perc.ring.length ∧ (t.perc.ring.filter ready).length + 1 = (s.perc.ring.filter ready).length) ∧
    (s.perc.ring.find? ready = none → exec .flashLogCopy s = .next s.settle)) ∧
  (∀ (s : State) (b : BitVec 4), ∃ t, exec (.logLossIncrement b) s = .next t ∧
    t.get PST_LOSS0_ERRLOSS = (if b.getLsbD 0 then min 65535 (s.get PST_LOSS0_ERRLOSS + 1) else s.get PST_LOSS0_ERRLOSS) ∧
    t.get PST_LOSS0_WARNLOSS = (if b.getLsbD 1 then min 65535 (s.get PST_LOSS0_WARNLOSS + 1) else s.get PST_LOSS0_WARNLOSS) ∧
    t.get PST_LOSS1_INFOLOSS = (if b.getLsbD 2 then min 65535 (s.get PST_LOSS1_INFOLOSS + 1) else s.get PST_LOSS1_INFOLOSS) ∧
    t.get PST_LOSS1_BADITEM = (if b.getLsbD 3 then min 65535 (s.get PST_LOSS1_BADITEM + 1) else s.get PST_LOSS1_BADITEM) ∧
    (∀ r, r ≠ Reg.PST_LOSS0 → r ≠ Reg.PST_LOSS1 → notPending r = true → t.rd r = s.rd r) ∧ t.mem = s.mem) ∧
  ∀ (s : State) (ev : LogEvent), PercActs s → let v := faultsPrune s
    let u := if eventShown v ev then offer ev false (faultNote ev v) else v
    (∀ k, k ∈ v.perc.known ↔ k ∈ s.perc.known ∧ faultShown s (k / 8) (kindAt (k % 8)) = true) ∧
    ((u.core 4).stack = [] → exec (.percFaultObserve ev) s = .next u.settle) ∧
    ((u.core 4).stack ≠ [] → exec (.percFaultObserve ev) s = .next (State.settle (handlerReturn 4 u)))

/-- SENSOR_SAMPLE, SENSOR_SEQ_TIMEOUT, KETTLE_HEARTBEAT, KETTLE_WARN, KETTLE_RESET, PERC_FIRMWARE_RUN, ROM_BOOT, the recovery steps,
SLOT_ERASE_DONE and TRIAL_PERIOD_END. That a part with both firmware slots empty runs firmware is the model's choice (log entry 52). -/
def Obligations.Supervision : Prop :=
  (∀ s : State, PercActs s →
    (s.perc.trigTb = none → ∃ t, exec .sensorSample s = .next t ∧ t.perc.trigTb = some s.time ∧ t.perc.readings = s.perc.readings) ∧
    (∀ k, s.perc.trigTb = some k → (s.seqOf 3).active = true ∨ s.get (HADC_SEQSTAT_DONE 3) = 0 → ∃ t, exec .sensorSample s = .next t ∧
      t.perc.trigTb = some k ∧ t.perc.readings = s.perc.readings) ∧
    (∀ k, s.perc.trigTb = some k → (s.seqOf 3).active = false → s.get (HADC_SEQSTAT_DONE 3) = 1 → ∃ t, exec .sensorSample s = .next t ∧ t.perc.trigTb = some s.time ∧
      t.perc.stale = false ∧ t.perc.readings = (List.range 8).map (fun i => BitVec.ofNat 32 (s.get (HADC_RES_VALUE (24 + i)))) ∧
      t.get (HADC_SEQSTAT_DONE 3) = 0 ∧
      (s.get HADC_CTL_EN = 1 → s.get (HADC_SEQCFG_EN 3) = 1 → (t.seqOf 3).active = true)) ∧
    (s.perc.trigTb = none → exec .sensorSeqTimeout s = .next s.settle) ∧
    ∀ k, s.perc.trigTb = some k → (s.seqOf 3).active = true → s.perc.stale = false → k + 4000000 ≤ s.time →
      ∃ t, exec .sensorSeqTimeout s = .next t ∧ t.perc.stale = true ∧ t.perc.readings = s.perc.readings) ∧
  (∀ s : State,
    exec .kettleHeartbeat s = .next (State.settle { s with perc := { s.perc with hbTb := s.time, hbToggle := !s.perc.hbToggle } }) ∧
    (s.perc.running = true → s.get KTL_CFG_HBT * 32768 / 1000 / 2 * 20000000000 ≤ (s.time - s.perc.hbTb) * 32768 * 105 →
      exec .kettleWarn s = .next (State.settle (s.setb KTL_STAT_WARN true))) ∧
    (s.get CPR_PWRSTAT_STATE < 3 → LocksNamed s → (∀ x ∈ (s.core 4).stack, x.source < 256) → let recent := s.perc.resets.filter fun r => Nat.blt (s.clock / 200000000) (r + 600)
      ∃ t, exec (.kettleReset .command) s = .next t ∧ t.perc.running = false ∧ t.get KTL_STAT_LCAUSE = 2 ∧
        t.get KTL_STAT_WARN = 0 ∧ t.rdn (Reg.KTL_HIST 0) = s.clock / 200000000 % 2 ^ 32 ∧
        t.rd (Reg.KTL_HIST 1) = s.rd (Reg.KTL_HIST 0) ∧ t.rd (Reg.KTL_HIST 2) = s.rd (Reg.KTL_HIST 1) ∧
        t.get KTL_RCNT_RCNT = min 65535 (s.get KTL_RCNT_RCNT + 1) ∧
        (t.get KTL_STAT_SAFE = 1 ↔ s.get KTL_STAT_SAFE = 1 ∨ 2 ≤ recent.length) ∧
        t.get PST_STATE_MODE = (if s.get KTL_STAT_SAFE = 1 ∨ 2 ≤ recent.length then 2 else 1) ∧
        t.core 4 = {} ∧ t.rd (Reg.IRQC_VTBASE 4) = 0 ∧ t.wait 15 = {} ∧ t.gnorum.slow = [] ∧
        (∀ j, 0 < j → j < 16 → (s.job j).st = .running → (t.job j).st = .ended ∧ (t.job j).status = 0x0207) ∧
        t.tb = s.tb ∧ t.units = s.units ∧ t.occs = s.occs ∧ t.mem = s.mem ∧ ∀ n : Fin 8, t.get (ESQ_STAT_STATE n) = s.get (ESQ_STAT_STATE n)) ∧
    (kettlePast s (s.get KTL_CFG_HBT * 32768 / 1000) = false → exec (.kettleReset .heartbeat) s = .next s.settle)) ∧
  (∀ s : State, s.perc.running = false → s.power.romDone = true → s.power.inReset = false → s.get KTL_STAT_SAFE = 0 →
    s.get CPR_PWRSTAT_STATE < 3 → s.update.active = [] → s.update.slots = [] → s.update.activeB = [] →
    (∃ t, exec .percFirmwareRun s = .next t ∧ t.perc.running = true ∧
      (s.perc.coldDue = false → t.perc.hbTb = s.time ∧ t.get PST_STATE_MODE = 0 ∧ coreMie t 4 = true ∧
        (∀ b : Fin 5, (∀ q : Fin 32, s.get (Q_CFG_EN q) = 0) →
          t.get (Q_CFG_EN (2 * b)) = 1 ∧ t.get (Q_CFG2_CMID (2 * b)) = 16 ∧ t.get (Q_CFG_PMID (2 * b)) = boxMid b))) ∧
    (s.perc.coldDue = true → s.angleRuns = true → ∃ t, exec .percFirmwareRun s = .next t ∧ t.perc.coldDue = false ∧
      ∀ (n : Fin 8) (i : Fin 16), s.hasEsq n = true →
        t.rd (0x500D0000 + n * 0x4000 + 4 * i) = BitVec.ofNat 32 (standardProgram.getD i 0))) ∧
  (∀ s : State, s.power.romDone = false → s.power.inReset = false → 2 ≤ s.power.startStep → s.update.slots = [] →
    ∃ t, exec .romBoot s = .next t ∧ t.power.romDone = true ∧ t.get ACT_CTL_SEL = 0 ∧ t.get (ACT_PPROF_SEC 0 0) = 1 ∧
      t.get (ACT_PPROF_VMID 0 0) = 48 ∧ t.get (ACT_PPROF_FMASK 0 0) = 1 ∧ t.update.keys = [] ∧ t.update.fallback = true ∧
      (∀ e : Fin 96, bitAt (t.rdn (Reg.ACT_RGN0 0 e)) 0 = false) ∧ t.mem = s.mem ∧
      ∀ q : Req, q.opc ∉ [0x00, 0x01, 0x02, 0x03, 0x05, 0x06] → opcListed q.opc.toNat = true → headerStatus q = 0 →
        (frontCheck q t).1 = .fail 0x0401) ∧
  (∀ (s : State) (p : Fin 2), PercActs s → s.get PST_RPOL_PAIRRST = 1 → hasPair s p = true → s.sysClock = true →
    s.gnorum.slow = [] → s.update.active = [] → let n := (restartsOf s p).length
    (pairState s p = 6 → n < s.get PST_RPOL_PAIRMAX → ∃ t, exec (.recoveryPairRestart p) s = .next t ∧ pairState t p = 7 ∧
      (t.pair p).recover = 2) ∧
    (pairState s p = 6 → s.get PST_RPOL_PAIRMAX ≤ n → ∃ t, exec (.recoveryPairRestart p) s = .next t ∧ pairState t p = 1 ∧
      (t.pair p).recover = 0) ∧
    (pairState s p = 1 → (s.pair p).recover = 2 → s.get (CPR_PAIRSTAT_STRES p) = 1 → s.get (CPR_PAIRCTL_SPLIT p) = 0 →
      ∃ t, exec (.recoveryPairRestart p) s = .next t ∧ pairState t p = 2 ∧ (t.pair p).recover = 0 ∧
        (t.pair p).restarts = s.time :: restartsOf s p)) ∧
  (∀ (s : State) (n m : Fin 8) (g : Nat), PercActs s → s.angleRuns = true → s.get PST_RPOL_ESQSPARE = 1 → s.gnorum.slow = [] →
    s.hasEsq n = true → s.get (ESQ_STAT_STATE n) = 2 → groupOf s n = some g → spareFor s n = some m.val → groupBusy s g = false →
    groupPresent s g = true → (∀ k : Fin 8, k ≠ n → groupOf s k ≠ some g) →
    ∃ t, exec (.recoveryEsqSpare n) s = .next t ∧ t.get (ESQ_OWN_VALID n) = 0 ∧ t.get (ESQ_OWN_VALID m) = 1 ∧
      t.get (ESQ_OWN_GRP m) = g ∧ t.rd (Reg.ESQ_EVRNG m) = s.rd (Reg.ESQ_EVRNG n)) ∧
  (∀ s : State, PercActs s → s.get PST_RPOL_CAEREST = 1 → s.hasCae = true → caeState s = 2 → s.perc.caeTb = none → s.gnorum.slow = [] →
    caeRunFault (caeFclr s) = none → ∃ t, exec .recoveryCaeRestart s = .next t ∧ caeState t = 1 ∧ t.get CAE_CTL_RUN = 1 ∧
      t.perc.caeTb = some s.time) ∧
  (∀ (s : State) (m : Fin 4), PercActs s → s.angleRuns = true → s.get PST_RPOL_PEERREL = 1 → s.get RING_CFG_MODE = 0 → s.counts.carafe = true →
    m.val ≠ memberNo s → m.val ∈ members s → bitAt (s.peer m).sts.toNat 3 = true → bitAt (s.peer m).sts.toNat 4 = true →
    bitAt (s.get RING_OREL_ASSERT) m = false → ∃ t, exec (.peerOrelAssert m) s = .next t ∧
      bitAt (t.get RING_OREL_ASSERT) m = true ∧ ∀ k : Fin 4, k ≠ m → bitAt (t.get RING_OREL_ASSERT) k = bitAt (s.get RING_OREL_ASSERT) k) ∧
  (∀ (s : State) (c : Fin 9) (u : BitVec 8), PercActs s → let b := !activeSlot s c u.toNat; let x := s.slot c u.toNat b
    (x.erasing = true → ∃ t, exec (.slotEraseDone c u) s = .next t ∧ t.slot c u.toNat b = { x with erasing := false, erased := 0 } ∧
      t.ports.ospiSuspended = false ∧ t.slot c u.toNat (!b) = s.slot c u.toNat (!b)) ∧
    (x.erasing = false → exec (.slotEraseDone c u) s = .next s.settle)) ∧
  ∀ (s : State) (k : Nat), PercActs s → s.perc.trialTb = some k →
    (k + 2000000000 ≤ s.time → ∃ t, exec .trialPeriodEnd s = .next t ∧ t.perc.trialTb = none ∧
      (t.slot 0 0 (activeSlot s 0 0)).st = .active) ∧
    (s.time < k + 2000000000 → exec .trialPeriodEnd s = .next s.settle)

/-! ### The ring (R370 to R391, R125) -/

/-- RING_ENABLE, RING_DISABLE, LINK_TRAINED, LINK_DOWN, RING_FRAME_START, RING_FRAME_RECEIVE, FRAME_CLOSE, HANDOVER_AT_TBS,
RING_UBANK_START, ORELD_WRITE, OREL_N_ASSERT and OREL_N_RELEASE. The states are 0 OFF, 1 LINKUP, 2 SYNCING, 3 STANDBY, 4 ACTIVE,
5 OBSERVER. -/
def Obligations.RingControl : Prop :=
  (∀ s : State, s.angleRuns = true → (∀ p ∈ s.ring.follows, p.1 < 4) →
    (s.counts.carafe = true → s.get RING_CTL_EN = 0 → ∃ t, exec .ringEnable s = .next t ∧ t.get RING_CTL_EN = 1 ∧ ringState t = 1 ∧
      t.ring.peers = [] ∧ t.ring.isMaster = false ∧ t.ring.starts = s.ring.starts ∧ t.mem = s.mem) ∧
    (s.get RING_CTL_EN = 1 → ringState s ≠ 4 ∨ s.get RING_CFG_MODE = 1 → ∃ t, exec .ringDisable s = .next t ∧ t.get RING_CTL_EN = 0 ∧
      ringState t = 0 ∧ t.get RING_STAT_TBLK = 0 ∧ t.get RING_STAT_LINK = 0 ∧ t.get RING_STAT_SEEN = 0 ∧ t.get RING_STAT_ACTV = 0 ∧
      t.get RING_ROLES_ROLES = 0 ∧ t.ring.peers = [] ∧ t.ring.follows = [] ∧ t.mem = s.mem) ∧
    (s.get RING_CTL_EN = 1 → ringState s = 4 → s.get RING_CFG_MODE = 0 →
      exec .ringDisable s = .next (State.settle (s.setb RING_ERRINFO_PARAM true)))) ∧
  (∀ (s : State) (l : RingLink), s.angleRuns = true → let b := 2 ^ linkBit l
    (∀ d : BitVec 12, s.get RING_CTL_EN = 1 → ∃ t, exec (.linkTrained l d) s = .next t ∧
      t.get RING_STAT_LINK = s.get RING_STAT_LINK ||| b ∧ t.get RING_STAT_LINKF = 1 ∧
      t.get (if l = .eIn ∨ l = .eOut then RING_LDLY_EDLY else RING_LDLY_WDLY) = d.toNat ∧
      ringState t = (if ringState s = 1 ∧ (l = .eIn ∨ l = .wIn) then 2 else ringState s) ∧ t.mem = s.mem) ∧
    (linkUp s (linkBit l) = true → ∃ t, exec (.linkDown l) s = .next t ∧
      t.get RING_STAT_LINK = s.get RING_STAT_LINK &&& (15 - b) ∧ t.get RING_STAT_LINKF = 1 ∧ ringState t = ringState s ∧ t.mem = s.mem) ∧
    (linkUp s (linkBit l) = false → exec (.linkDown l) s = .next s.settle)) ∧
  (∀ s : State, s.angleRuns = true → let b := (s.now - 8) / 128 * 128
    (s.get RING_CTL_EN = 1 → s.ring.isMaster = true → 8 ≤ s.now → s.ring.startAt ≤ b → linkUp s 2 = true →
      ∃ t f, exec .ringFrameStart s = .next t ∧ t.ring.startAt = b + 128 ∧ t.ring.outE = some f ∧ f.westbound = false ∧
        f.turn = false ∧ f.dly = 0 ∧ f.tbf = BitVec.ofNat 56 (b / 128) ∧ f.orig.val = memberNo s ∧ f.crcOk = true ∧
        f.trk = (List.range 4).map (blockOf s b) ∧
        (3 ≤ ringState s → let own := (slotWritten s b).getD (ownSlot s b)
          f.slots.getD (memberNo s) emptySlot = own ∧ slotWritten t b = some own) ∧ (∀ r, notPending r = true → t.rd r = s.rd r)) ∧
    (s.get RING_CTL_EN = 0 ∨ s.ring.isMaster = false ∨ b < s.ring.startAt → exec .ringFrameStart s = .next s.settle)) ∧
  (∀ (s : State) (f : RingFrame), s.angleRuns = true → s.get RING_CTL_EN = 1 → linkUp s 0 = true → 2 ≤ ringState s →
    (f.crcOk = false → s.ring.badE < 3 → ∃ t, exec (.ringFrameReceive .east f) s = .next t ∧ t.ring.badE = s.ring.badE + 1 ∧
      t.get RING_TALLY0_CRCCNT = min 65535 (s.get RING_TALLY0_CRCCNT + 1) ∧ t.ring.got = s.ring.got ∧
      t.get RING_STAT_LINK = s.get RING_STAT_LINK) ∧
    (f.crcOk = false → 3 ≤ s.ring.badE → ∃ t, exec (.ringFrameReceive .east f) s = .next t ∧ linkUp t 0 = false ∧ (∀ k, 1 ≤ k → k < 4 → linkUp t k = linkUp s k) ∧
      t.get RING_STAT_LINKF = 1 ∧ t.ring.badE = 0 ∧ t.ring.got = s.ring.got) ∧
    (f.crcOk = true → f.orig.val ≠ memberNo s → s.ring.isMaster = false → s.get RING_STAT_MASTER = f.orig.val → s.ring.framed ≠ some (f.orig.val, f.tbf.toNat * 128) →
      s.ring.follows = [] → s.get RING_CFG_MODE = 0 → (∀ n : Fin 4, s.get (AT_CTL_EN n) = 0) → (tbError .east f s).natAbs ≤ 32 →
      ∃ t, exec (.ringFrameReceive .east f) s = .next t ∧ t.ring.heard = true ∧ t.ring.badE = 0 ∧
        t.geti RING_TBERR_ERR = tbError .east f s ∧ t.ring.good = min 16 (s.ring.good + 1) ∧ t.ring.bad = 0 ∧
        (15 ≤ s.ring.good → t.get RING_STAT_TBLK = 1) ∧ t.tb = s.tb ∧
        (∀ p ∈ filledSlots f.slots, slotOfMember s (f.tbf.toNat * 128) p.1 = none →
          slotOfMember t (f.tbf.toNat * 128) p.1 = some p.2) ∧
        (f.westbound = false → linkUp s 2 = true → ∃ g, t.ring.outE = some g ∧ g.tbf = f.tbf ∧ g.orig = f.orig ∧
          g.dly = f.dly + BitVec.ofNat 12 (s.get RING_LDLY_EDLY + 768) ∧ g.trk = f.trk)) ∧
    (f.crcOk = true → f.orig.val ≠ memberNo s → s.ring.isMaster = false → s.get RING_STAT_MASTER = f.orig.val → s.ring.merged = false →
      s.ring.framed = some (f.orig.val, f.tbf.toNat * 128) → ∃ t, exec (.ringFrameReceive .east f) s = .next t ∧ t.ring.heard = true ∧
        t.geti RING_TBERR_ERR = s.geti RING_TBERR_ERR ∧ t.ring.good = s.ring.good ∧ t.ring.steer = s.ring.steer ∧
        t.trackers = s.trackers ∧ t.tb = s.tb)) ∧
  (∀ (s : State) (f : RingFrame) (l : RingDir), s.angleRuns = true → s.get RING_CTL_EN = 0 ∨ ringState s < 2 →
    exec (.ringFrameReceive l f) s = .next s.settle) ∧
  (∀ s : State, s.angleRuns = true → let b := s.ring.closeAt
    (s.get RING_CTL_EN = 0 ∨ ringState s < 2 ∨ s.now < b + 320 → exec .frameClose s = .next s.settle) ∧
    (s.get RING_CTL_EN = 1 → 2 ≤ ringState s → b + 320 ≤ s.now → (∀ p ∈ s.ring.follows, p.1 < 4) →
      ∃ t, exec .frameClose s = .next t ∧ t.ring.closeAt = b + 128 ∧ ∀ k : Fin 4, k.val ≠ memberNo s →
        bitAt (t.get RING_STAT_SEEN) k = (slotOfMember s b k).isSome ∧
        (∀ x, slotOfMember s b k = some x → (t.peer k).missed = 0 ∧ (t.peer k).sts = x.sts) ∧
        (slotOfMember s b k = none → k.val ∈ members s → (t.peer k).missed = min 3 ((s.peer k).missed + 1)))) ∧
  (∀ s : State, s.angleRuns = true →
    (ringDue s 2 = [] → exec .handoverAtTbs s = .next s.settle) ∧
    ∀ r, ringDue s 2 = [r] →
      (eligible s r.target = true → r.target = memberNo s → isObserver s = false → ∃ t, exec .handoverAtTbs s = .next t ∧
        ringState t = 4 ∧ t.ring.driveTb = r.tbs + 8 ∧ t.ring.active = some r.target ∧ ringDue t 2 = [] ∧
        (r.job ≠ 0 → r ∈ t.ring.handing)) ∧
      (eligible s r.target = true → r.target ≠ memberNo s → ringState s = 4 → ∃ t, exec .handoverAtTbs s = .next t ∧
        ringState t = 3 ∧ t.ring.active = some r.target) ∧
      (eligible s r.target = false → ∃ t, exec .handoverAtTbs s = .next t ∧ ringState t = ringState s ∧
        t.ring.driveTb = s.ring.driveTb ∧ ((s.job r.job).st = .running → r.job ≠ 0 → (t.job r.job).status = 0x0222))) ∧
  (∀ s : State, s.angleRuns = true → ringDue s 1 ≠ [] → ∃ t, exec .ringUbankStart s = .next t ∧ ringDue t 1 = [] ∧ ∀ n : Fin 8,
    (bitAt (s.get RING_UBMSK_ESQ) n = true → s.hasEsq n = true → t.get (ESQ_CTL_UBREQ n) = 1 ∧
      (s.get (ESQ_CTL_UBREQ n) = 0 → (t.esq n).ubreqTb = s.now)) ∧
    (bitAt (s.get RING_UBMSK_ESQ) n = false → t.get (ESQ_CTL_UBREQ n) = s.get (ESQ_CTL_UBREQ n) ∧ t.esq n = s.esq n)) ∧
  ∀ s : State,
    (s.angleRuns = true → s.counts.carafe = true → ∀ v : BitVec 4,
      (bitAt v.toNat (memberNo s) = true → exec (.oreldWrite v) s = .next (State.settle (s.setb RING_ERRINFO_PARAM true))) ∧
      (bitAt v.toNat (memberNo s) = false → ∃ t, exec (.oreldWrite v) s = .next t ∧ t.get RING_OREL_ASSERT = v.toNat ∧
        (∀ r, r ≠ Reg.RING_OREL → notPending r = true → t.rd r = s.rd r) ∧ t.mem = s.mem)) ∧
    (s.power.vsup < 3000 → exec .orelNAssert s = .next (State.settle { s with power := { s.power with orel := true } })) ∧
    (3000 ≤ s.power.vsup → ∃ t, exec .orelNAssert s = .next t ∧ t.power.orel = true ∧ t.get RING_STAT_OREL = 1 ∧
      ringState t = (if ringState s = 4 then 3 else ringState s) ∧ (s.power.orel = false → t.get RING_STAT_ORELF = 1)) ∧
    exec .orelNRelease s = .next (State.settle (State.setb { s with power := { s.power with orel := false } } RING_STAT_OREL false))

/-! ### Power states, resets, start-up, clocks, small ports (R392 to R409, R417, R419, R424) -/

/-- POWER_STATE_REQUEST, POWER_ENTRY_COMPLETE, WAKE_REQUEST, POWER_EXIT_COMPLETE, AON_TIMER_EXPIRE, the resets, STARTUP_SEQUENCE,
ANGLE_DOMAIN_RESET_RELEASE and VSUP_RAMP_THRESHOLD. What memory holds after a loss of contents, zeros, and the phase of AONCLK (log 78) are the model's choices. -/
def Obligations.PowerAndResets : Prop :=
  (∀ (s : State) (v : Word), ∃ t, exec (.powerStateRequest v) s = .next t ∧ t.get CPR_PWRCTL_WAKEEN = bitsAt v.toNat 8 5 ∧
    t.power.entering = (if 1 ≤ bitsAt v.toNat 0 3 ∧ bitsAt v.toNat 0 3 ≤ 4 ∧ s.get CPR_PWRSTAT_STATE = 0 ∧ s.power.entering = none
      then some (bitsAt v.toNat 0 3) else s.power.entering) ∧
    (s.power.entering = none → t.power.entering ≠ none → t.power.enterTb = s.time) ∧
    (∀ r, r ≠ Reg.CPR_PWRCTL → notPending r = true → t.rd r = s.rd r) ∧ t.mem = s.mem) ∧
  (∀ s : State, (s.power.entering = none → exec .powerEntryComplete s = .next s.settle) ∧
    (s.power.entering = some 1 → entryAbort s 1 ≠ 0 → s.time < s.power.enterTb + 200000 → exec .powerEntryComplete s = .next s.settle) ∧
    ∀ q, s.power.entering = some q → 1 ≤ q → q ≤ 4 → q ≠ 1 ∨ entryAbort s q = 0 ∨ s.power.enterTb + 200000 ≤ s.time →
      ∃ t, exec .powerEntryComplete s = .next t ∧ t.power.entering = none ∧
      (entryAbort s q ≠ 0 → t.get CPR_PWRSTAT_STATE = s.get CPR_PWRSTAT_STATE ∧ t.get CPR_PWRSTAT_ABORT = entryAbort s q ∧ t.mem = s.mem) ∧
      (entryAbort s q = 0 → t.get CPR_PWRSTAT_STATE = q ∧ t.power.exiting = false ∧ t.power.wakes = 0 ∧
        (q = 1 → t.mem = s.mem ∧ t.tb = s.tb) ∧
        (q = 2 → t.mem = s.mem ∧ t.tb = s.tb ∧ ∀ k : Fin 3, t.clockOk k = false) ∧
        (q = 3 → t.tb = 0 ∧ t.units = [] ∧ (∀ k : Fin 3, t.clockOk k = false) ∧ (∀ p : Fin 2, hasPair s p = true → pairState t p = 0) ∧
          ∀ a, t.byte a = if steepByte s a then s.byte a else 0) ∧
        (q = 4 → t.tb = 0 ∧ t.clock = s.clock ∧ t.clockOk 5 = s.clockOk 5 ∧ t.perc.resets = s.perc.resets ∧ t.rd Reg.AON_TMR = s.rd Reg.AON_TMR ∧ ∀ a, t.byte a = if keptByte a then s.byte a else 0))) ∧
  (∀ (s : State) (b : Fin 5), let on := bitAt (s.get CPR_PWRCTL_WAKEEN) b
    (on = false → exec (.wakeRequest b) s = .next s.settle) ∧
    (on = true → s.get CPR_PWRSTAT_STATE ≠ 0 → ∃ t, exec (.wakeRequest b) s = .next t ∧ t.power.exiting = true ∧
      (let began := if s.power.exiting then s.power.wakeTb else s.time
       t.power.wakeTb = began ∧ t.power.wakes = if aonPeriod began = aonPeriod s.time then s.power.wakes ||| BitVec.ofNat 5 (2 ^ b.val) else s.power.wakes) ∧
      (∀ r, notPending r = true → t.rd r = s.rd r)) ∧
    (on = true → s.get CPR_PWRSTAT_STATE = 0 → s.power.entering ≠ none → ∃ t, exec (.wakeRequest b) s = .next t ∧
      t.power.entering = none ∧ t.get CPR_PWRSTAT_ABORT = 6 ∧ t.get CPR_PWRSTAT_STATE = 0)) ∧
  (∀ s : State, (s.power.exiting = false → exec .powerExitComplete s = .next s.settle) ∧
    (s.power.exiting = true → s.get CPR_PWRSTAT_STATE = 1 → ∃ t, exec .powerExitComplete s = .next t ∧ t.get CPR_PWRSTAT_STATE = 0 ∧
      t.get CPR_PWRSTAT_WSRC = s.power.wakes.toNat ∧ t.power.exiting = false ∧ t.tb = s.tb ∧ t.mem = s.mem) ∧
    (s.power.exiting = true → s.get CPR_PWRSTAT_STATE = 2 → EventsNamed s → ∃ t, exec .powerExitComplete s = .next t ∧
      t.get CPR_PWRSTAT_STATE = 0 ∧ t.get CPR_PWRSTAT_WSRC = s.power.wakes.toNat ∧ (∀ k : Fin 3, t.clockOk k = true) ∧
      t.tb = s.tb + BitVec.ofNat 64 (warmAdvance (s.time - s.power.warmTb))) ∧
    (s.power.exiting = true → 3 ≤ s.get CPR_PWRSTAT_STATE → EventsNamed s → ∃ t, exec .powerExitComplete s = .next t ∧
      t.get CPR_PWRSTAT_STATE = 0 ∧ t.power.angleReset = false ∧ t.power.startStep = 3) ∧
    (s.get AON_TMR_MS = 0 ∨ (s.time - s.power.tmrTb) * 105 < s.get AON_TMR_MS * 20000000 → exec .aonTimerExpire s = .next s.settle) ∧
    (s.get AON_TMR_MS ≠ 0 → s.get AON_TMR_MS * 20000000 ≤ (s.time - s.power.tmrTb) * 105 → ∃ t, exec .aonTimerExpire s = .next t ∧ t.get AON_TMR_MS = 0 ∧
      (bitAt (s.get CPR_PWRCTL_WAKEEN) 3 = true → s.get CPR_PWRSTAT_STATE ≠ 0 → t.power.exiting = true))) ∧
  (∀ s : State,
    let whole (c : Instr) : Prop := ∃ t, exec c s = .next t ∧ t.tb = 0 ∧ t.pending = s.pending ∧ t.units = [] ∧
      t.perc.running = false ∧ (∀ r, notPending r = true → t.rd r = State.reset.rd r) ∧ t.get CPR_RSTCAUSE_POR = 1 ∧
      t.power.inReset = (s.power.inReset || decide (s.power.vsup < 4400)) ∧
      ∀ a, t.byte a = if within 0x20000000 0x10000000 a then s.byte a else 0
    let device (c : Instr) (bit : Nat) : Prop := ∃ t, exec c s = .next t ∧ t.tb = 0 ∧ t.clock = s.clock ∧ t.pending = s.pending ∧
      t.units = [] ∧ t.perc.running = false ∧ t.rdn Reg.CPR_RSTCAUSE = s.rdn Reg.CPR_RSTCAUSE ||| 2 ^ bit ∧
      t.get KTL_STAT_SAFE = 0 ∧ t.get KTL_CFG_LOCK = 0 ∧ t.get KTL_CFG_HBT = s.get KTL_CFG_HBT ∧
      t.power.inReset = (s.power.inReset || (bit == 1 && (c == .undervoltageReset 0 || decide (s.power.vsup < 4400)))) ∧ (∀ r, keptReg r = false → notPending r = true → t.rd r = State.reset.rd r) ∧
      (∀ a, t.byte a = if keptByte a then s.byte a else 0) ∧ t.rd Reg.AON_TMR = s.rd Reg.AON_TMR
    whole .powerOnReset ∧ whole (.undervoltageReset 3) ∧ (∀ r : Fin 4, r ≠ 3 →
        (powerOnHolds s = false → device (.undervoltageReset r) 1) ∧
        (powerOnHolds s = true → exec (.undervoltageReset r) s = .next (State.settle (s.modPower fun p =>
          { p with inReset := p.inReset || r.val == 0 || decide (p.vsup < 4400) })))) ∧
      device .resetPin 2 ∧ device .softwareReset 3 ∧ (s.fuses.dbg = 0 ∨ s.fuses.dbg = 2 → device .debugReset 4) ∧
      (s.fuses.dbg = 1 ∨ s.fuses.dbg = 3 → exec .debugReset s = .next s.settle)) ∧
  (∀ (s : State) (k : Fin 6), s.update.slots = [] → s.update.active = [] →
    (s.power.startStep ≠ k.val → exec (.startupSequence k) s = .next s.settle) ∧
    (s.power.startStep = k.val → s.power.inReset = false → 4400 ≤ s.power.vsup → s.get CPR_PWRSTAT_STATE = 0 → s.get KTL_STAT_SAFE = 0 →
      s.perc.running = false ∨ 4 ≤ k.val → ∃ t, exec (.startupSequence k) s = .next t ∧ t.power.startStep = k.val + 1 ∧
        (k = 0 → t.clockOk 5 = true ∧ t.perc.hbTb = s.time) ∧ (k = 1 → t.clockOk 4 = true) ∧
        (k = 2 → t.power.angleReset = false ∧ ∀ c : Fin 4, t.clockOk c = true) ∧
        (k = 3 → t.power.romDone = true ∧ t.perc.running = true) ∧
        (k = 5 → ∀ p : Fin 2, hasPair s p = true → pairState s p = 0 → s.get (CPR_PAIRCTL_SPLIT p) = 0 → pairState t p = 2))) ∧
  ∀ s : State,
    (s.power.angleReset = true → s.clockOk 1 = true → s.power.inReset = false → 3 ≤ s.power.startStep → s.get CPR_PWRSTAT_STATE < 2 →
      s.perc.running = false → exec .angleDomainResetRelease s = .next (State.settle { s with power := { s.power with angleReset := false } })) ∧
    (s.power.angleReset = false ∨ s.clockOk 1 = false → exec .angleDomainResetRelease s = .next s.settle) ∧
    ∀ mv : BitVec 16, ∃ t, exec (.vsupRampThreshold mv) s = .next t ∧ t.power.vsup = mv.toNat ∧
      t.get (CPR_RAIL_MV 0) = mv.toNat / 10 * 10 ∧
      t.power.inReset = (if mv.toNat < 4400 then s.power.inReset else false) ∧
      (∀ r, r ≠ Reg.CPR_RAIL 0 → notPending r = true → t.rd r = s.rd r) ∧ t.mem = s.mem

/-- PLL_LOCK, the losses of clocks and their return, RAIL_WINDOW_VIOLATION, VSUP_LOW_WARNING, CURRENT_LIMIT, PSPI_LIST_START,
PSPI_LIST_DONE, SENT_MESSAGE_RECEIVE, I2C_BUS_STUCK, OSPI_XIP_SUSPEND, TRACE_OVERFLOW and JTAG_TAP_RESET. -/
def Obligations.ClocksAndPorts : Prop :=
  (∀ s : State,
    let trips (c : Instr) (k : Nat) (t : State) : Prop :=
      exec c s = .next t ∧ t.clockOk k = false ∧ bitAt (t.get CPR_CLKSTAT_LOSS) k = true
    (∃ t, trips .pllsLossOfLock 0 t ∧ (∀ k : Fin 6, k ≠ 0 → t.clockOk k = s.clockOk k) ∧
      ∀ p : Fin 2, pairState t p = if pairInService s p then 1 else pairState s p) ∧
    (∃ t, trips .plltLossOfLock 1 t ∧ (∀ k : Fin 6, k ≠ 1 → t.clockOk k = s.clockOk k) ∧ t.power.angleReset = true ∧ t.tb = 0 ∧
      t.units = [] ∧ t.occs = [] ∧ t.rd Reg.SCH_OUTENL = 0 ∧ t.rd Reg.SCH_OUTENH = 0 ∧ t.perc.coldDue = true ∧ t.mem = s.mem) ∧
    (∃ t, trips .pllaLossOfLock 2 t ∧ (∀ k : Fin 6, k ≠ 2 → t.clockOk k = s.clockOk k) ∧
      (s.get PADC_CAL_BUSY = 0 → ∀ r, r ≠ Reg.CPR_CLKSTAT → notPending r = true → t.rd r = s.rd r)) ∧
    (∃ t, trips .crystalLoss 3 t ∧ t.power.xtalLossTb = some s.time) ∧
    (∃ t, trips .mclkOutOfRange 4 t ∧ ∀ k : Fin 6, k ≠ 4 → t.clockOk k = s.clockOk k) ∧
    (∃ t, trips .aonclkOutOfRange 5 t ∧ t.get CPR_CLKSTAT_AONX = 0) ∧
    (s.power.xtalLossTb = none → exec .crystalHoldoverExpire s = .next s.settle) ∧
    ∀ k, s.power.xtalLossTb = some k →
      (s.time < k + 2000000 → exec .crystalHoldoverExpire s = .next s.settle) ∧
      (k + 2000000 ≤ s.time → ∃ t, exec .crystalHoldoverExpire s = .next t ∧ t.power.xtalLossTb = none ∧ t.power.angleReset = true ∧
        ∀ c : Fin 3, t.clockOk c = false)) ∧
  (∀ (s : State) (k : Fin 3), ∃ t, exec (.pllLock k) s = .next t ∧ t.clockOk k = true ∧
    ∀ j : Fin 6, j.val ≠ k.val → t.clockOk j = s.clockOk j) ∧
  (∀ (s : State) (k : Fin 6), (k.val < 3 → exec (.clockRestored k) s = .next s.settle) ∧
    (3 ≤ k.val → ∃ t, exec (.clockRestored k) s = .next t ∧ t.clockOk k = true ∧ (∀ j : Fin 6, j ≠ k → t.clockOk j = s.clockOk j) ∧
      (k = 3 → t.power.xtalLossTb = none))) ∧
  (∀ s : State,
    (∀ r : Fin 5, ∃ t, exec (.railWindowViolation r) s = .next t ∧ bitAt (t.get CPR_MONSTAT_RAIL) r = true ∧
      (∀ j : Fin 5, j ≠ r → bitAt (t.get CPR_MONSTAT_RAIL) j = bitAt (s.get CPR_MONSTAT_RAIL) j) ∧
      (∀ x, x ≠ Reg.CPR_MONSTAT → notPending x = true → t.rd x = s.rd x) ∧ t.mem = s.mem) ∧
    exec .vsupLowWarning s = .next (State.settle (s.setb CPR_MONSTAT_VLOW true)) ∧
    exec .currentLimit s = .next (State.settle (s.setb CPR_MONSTAT_ILIM true))) ∧
  (∀ (s : State) (p : Fin 2),
    (portsRun s = true → hasPort s (8 + p) = true → pspiRuns s p = false → ∃ t, exec (.pspiListStart p) s = .next t ∧
      pspiRuns t p = true ∧ t.ports.pspiTovr = s.ports.pspiTovr) ∧
    (portsRun s = true → hasPort s (8 + p) = true → pspiRuns s p = true → ∃ t, exec (.pspiListStart p) s = .next t ∧
      findAt (fun _ => false) p t.ports.pspiTovr = true ∧ t.ports.pspiRun = s.ports.pspiRun) ∧
    (hasPort s (8 + p) = false → exec (.pspiListStart p) s = .next s.settle) ∧
    (∃ t, exec (.pspiListDone p) s = .next t ∧ pspiRuns t p = false ∧ ∀ q : Fin 2, q ≠ p → pspiRuns t q = pspiRuns s q)) ∧
  (∀ (s : State) (p : Fin 4) (m : SentMsg), portsRun s = true → hasPort s (10 + p) = true →
    let kept (u : State) := findAt (fun _ => ([] : List (Word × Nat × Bool))) p u.ports.sentMsgs
    (m.crcOk = true → m.calOver25 = false → ∃ t, exec (.sentMessageReceive p m) s = .next t ∧
      kept t = kept s ++ [(m.data, s.now - m.calAgo, m.succDev)] ∧ t.ports.sentDisc = s.ports.sentDisc) ∧
    (m.crcOk = false ∨ m.calOver25 = true → ∃ t, exec (.sentMessageReceive p m) s = .next t ∧ kept t = kept s ∧
      findAt (fun _ => 0) p t.ports.sentDisc = findAt (fun _ => 0) p s.ports.sentDisc + 1)) ∧
  ∀ s : State,
    (PercActs s → ∃ t, exec .i2cBusStuck s = .next t ∧ t.ports.i2cStuck = s.ports.i2cStuck + 1) ∧
    (¬PercActs s → exec .i2cBusStuck s = .next s.settle) ∧
    (portsRun s = true → (∃ x ∈ s.update.slots, x.2.erasing = true) → ∃ t, exec .ospiXipSuspend s = .next t ∧ t.ports.ospiSuspended = true) ∧
    ((∀ x ∈ s.update.slots, x.2.erasing = false) → exec .ospiXipSuspend s = .next s.settle) ∧
    (∀ n : BitVec 32, portsRun s = true → hasPort s 19 = true → ∃ t, exec (.traceOverflow n) s = .next t ∧
      t.ports.traceMarkers = s.ports.traceMarkers + 1 ∧ t.ports.traceLost = n ∧
      t.ports.traceStamp = s.tb.extractLsb' 0 48) ∧
    (∀ n : BitVec 32, hasPort s 19 = false → exec (.traceOverflow n) s = .next s.settle) ∧
    exec .jtagTapReset s = .next (State.settle { s with power := { s.power with tapReset := true } })
end

