-- ==== Sys2Proof/Laws/Basic.lean ====
section
/-! SUPPORT. The comparisons of the model's definitions as propositions, and the two helpers that apply an effect or not. -/

namespace Sys2Proof.Machine

theorem ble_decide (a b : Nat) : Nat.ble a b = decide (a ≤ b) := by
  cases h : Nat.ble a b with
  | true => simp [Nat.le_of_ble_eq_true h]
  | false =>
    have : ¬ a ≤ b := fun hl => by rw [Nat.ble_eq_true_of_le hl] at h; cases h
    simp [this]

theorem blt_decide (a b : Nat) : Nat.blt a b = decide (a < b) := by rw [Nat.blt, ble_decide]; rfl

theorem beq_decide (a b : Nat) : Nat.beq a b = decide (a = b) := by
  cases h : Nat.beq a b with
  | true => simp [Nat.eq_of_beq_eq_true h]
  | false => simp [Nat.ne_of_beq_eq_false h]

@[simp] theorem whenS_true (f : State → State) (s : State) : whenS true f s = f s := rfl
@[simp] theorem whenS_false (f : State → State) (s : State) : whenS false f s = s := rfl

theorem inAngle_runs (s : State) (f : State → State) (h : s.angleRuns = true) : inAngle s f = f s := by simp [inAngle, h]
theorem inAngle_stopped (s : State) (f : State → State) (h : s.angleRuns = false) : inAngle s f = s := by simp [inAngle, h]

end Sys2Proof.Machine
end

