-- ==== Sys2Proof/Laws/Store.lean ====
section
/-! SUPPORT. Sparse tables: a read after a write, and the canonical form. -/

namespace Sys2Proof.Machine

variable {α : Type}

@[simp] theorem findAt_nil (d : Nat → α) (k : Nat) : findAt d k [] = d k := rfl

theorem findAt_cons (d : Nat → α) (k j : Nat) (v : α) (l : List (Nat × α)) :
    findAt d k ((j, v) :: l) = if j = k then v else findAt d k l := by
  by_cases h : j = k
  · simp [findAt, h]
  · have : Nat.beq j k = false := by cases e : Nat.beq j k with
      | true => exact absurd (Nat.eq_of_beq_eq_true e) h
      | false => rfl
    simp [findAt, h, this]

@[simp] theorem findAt_putAt_self (d : Nat → α) (k : Nat) (v : α) (l : List (Nat × α)) :
    findAt d k (putAt k v l) = v := by
  induction l with
  | nil => simp [putAt, findAt]
  | cons c l ih =>
    obtain ⟨j, w⟩ := c
    unfold putAt
    cases h1 : Nat.blt k j with
    | true => simp [findAt]
    | false =>
      cases h2 : Nat.beq j k with
      | true => simp [findAt]
      | false => simp [findAt, h2, ih]

theorem findAt_putAt_ne (d : Nat → α) {k j : Nat} (v : α) (l : List (Nat × α)) (h : j ≠ k) :
    findAt d j (putAt k v l) = findAt d j l := by
  induction l with
  | nil => simp [putAt, findAt_cons, Ne.symm h]
  | cons c l ih =>
    obtain ⟨i, w⟩ := c
    unfold putAt
    cases h1 : Nat.blt k i with
    | true => simp [findAt_cons, Ne.symm h]
    | false =>
      cases h2 : Nat.beq i k with
      | true =>
        have h2 : i = k := by simpa using h2
        simp [findAt_cons, h2, Ne.symm h]
      | false => simp [findAt_cons, ih]

@[simp] theorem findAt_dropAt_self (d : Nat → α) (k : Nat) (l : List (Nat × α)) : findAt d k (dropAt k l) = d k := by
  induction l with
  | nil => rfl
  | cons c l ih =>
    obtain ⟨j, w⟩ := c
    unfold dropAt
    cases h : Nat.beq j k with
    | true => simpa using ih
    | false => simp [findAt, h, ih]

theorem findAt_dropAt_ne (d : Nat → α) {k j : Nat} (l : List (Nat × α)) (h : j ≠ k) :
    findAt d j (dropAt k l) = findAt d j l := by
  induction l with
  | nil => rfl
  | cons c l ih =>
    obtain ⟨i, w⟩ := c
    unfold dropAt
    cases h2 : Nat.beq i k with
    | true =>
      have h2 : i = k := by simpa using h2
      simp [findAt_cons, ih, h2, Ne.symm h]
    | false => simp [findAt_cons, ih]

/-- What was stored is read. -/
@[simp] theorem findAt_storeAt_self [DecidableEq α] (d : Nat → α) (k : Nat) (v : α) (l : List (Nat × α)) :
    findAt d k (storeAt d k v l) = v := by
  unfold storeAt
  split <;> simp [*]

/-- A store leaves every other key alone. -/
theorem findAt_storeAt_ne [DecidableEq α] (d : Nat → α) {k j : Nat} (v : α) (l : List (Nat × α)) (h : j ≠ k) :
    findAt d j (storeAt d k v l) = findAt d j l := by
  unfold storeAt
  split
  · exact findAt_dropAt_ne d l h
  · exact findAt_putAt_ne d v l h

/-! ### The canonical form -/

theorem risingFrom_mono {lo lo' : Nat} {l : List (Nat × α)} (h : risingFrom (some lo) l = true) (hl : lo' ≤ lo) :
    risingFrom (some lo') l = true := by
  cases l with
  | nil => rfl
  | cons c l =>
    obtain ⟨j, w⟩ := c
    simp only [risingFrom, Bool.and_eq_true, Nat.blt_eq] at h ⊢
    exact ⟨by omega, h.2⟩

theorem risingFrom_none {lo : Nat} {l : List (Nat × α)} (h : risingFrom (some lo) l = true) : risingFrom none l = true := by
  cases l with
  | nil => rfl
  | cons c l =>
    obtain ⟨j, w⟩ := c
    simp only [risingFrom, Bool.and_eq_true] at h ⊢
    exact ⟨trivial, h.2⟩

theorem risingFrom_putAt {lo k : Nat} (v : α) {l : List (Nat × α)} (h : risingFrom (some lo) l = true) (hk : lo < k) :
    risingFrom (some lo) (putAt k v l) = true := by
  induction l generalizing lo with
  | nil => simp [putAt, risingFrom, hk]
  | cons c l ih =>
    obtain ⟨j, w⟩ := c
    simp only [risingFrom, Bool.and_eq_true, Nat.blt_eq] at h
    unfold putAt
    cases h1 : Nat.blt k j with
    | true =>
      rw [Nat.blt_eq] at h1
      simp [risingFrom, hk, h1, h.2]
    | false =>
      have h1 : ¬ k < j := by rw [← Nat.blt_eq, h1]; simp
      cases h2 : Nat.beq j k with
      | true =>
        have h2 : j = k := by simpa using h2
        subst h2
        simp [risingFrom, h]
      | false =>
        have h2 : j ≠ k := Nat.ne_of_beq_eq_false h2
        simp [risingFrom, h.1, ih h.2 (by omega)]

theorem risingFrom_dropAt {lo : Nat} (k : Nat) {l : List (Nat × α)} (h : risingFrom (some lo) l = true) :
    risingFrom (some lo) (dropAt k l) = true := by
  induction l generalizing lo with
  | nil => rfl
  | cons c l ih =>
    obtain ⟨j, w⟩ := c
    simp only [risingFrom, Bool.and_eq_true, Nat.blt_eq] at h
    unfold dropAt
    cases Nat.beq j k with
    | true => exact ih (risingFrom_mono h.2 (by omega))
    | false => simp [risingFrom, h.1, ih h.2]

theorem risingFrom_filter {lo : Nat} (p : Nat × α → Bool) {l : List (Nat × α)} (h : risingFrom (some lo) l = true) :
    risingFrom (some lo) (l.filter p) = true := by
  induction l generalizing lo with
  | nil => rfl
  | cons c l ih =>
    obtain ⟨j, w⟩ := c
    simp only [risingFrom, Bool.and_eq_true, Nat.blt_eq] at h
    cases hp : p (j, w) with
    | true => simp [hp, risingFrom, h.1, ih h.2]
    | false =>
      simp only [List.filter_cons, hp]
      exact ih (risingFrom_mono h.2 (by omega))

theorem rising_putAt (k : Nat) (v : α) {l : List (Nat × α)} (h : risingFrom none l = true) :
    risingFrom none (putAt k v l) = true := by
  cases l with
  | nil => rfl
  | cons c l =>
    obtain ⟨j, w⟩ := c
    simp only [risingFrom, Bool.and_eq_true] at h
    unfold putAt
    cases h1 : Nat.blt k j with
    | true => simp [risingFrom, h1, h.2]
    | false =>
      have h1 : ¬ k < j := by rw [← Nat.blt_eq, h1]; simp
      cases h2 : Nat.beq j k with
      | true =>
        have h2 : j = k := by simpa using h2
        subst h2
        simp [risingFrom, h.2]
      | false =>
        have h2 : j ≠ k := Nat.ne_of_beq_eq_false h2
        simp [risingFrom, risingFrom_putAt v h.2 (by omega : j < k)]

theorem rising_dropAt (k : Nat) {l : List (Nat × α)} (h : risingFrom none l = true) : risingFrom none (dropAt k l) = true := by
  cases l with
  | nil => rfl
  | cons c l =>
    obtain ⟨j, w⟩ := c
    simp only [risingFrom, Bool.and_eq_true] at h
    unfold dropAt
    cases Nat.beq j k with
    | true => exact risingFrom_none (risingFrom_dropAt k h.2)
    | false => simp [risingFrom, risingFrom_dropAt k h.2]

theorem rising_filter (p : Nat × α → Bool) {l : List (Nat × α)} (h : risingFrom none l = true) :
    risingFrom none (l.filter p) = true := by
  cases l with
  | nil => rfl
  | cons c l =>
    obtain ⟨j, w⟩ := c
    simp only [risingFrom, Bool.and_eq_true] at h
    cases hp : p (j, w) with
    | true => simp [hp, risingFrom, risingFrom_filter p h.2]
    | false =>
      simp only [List.filter_cons, hp]
      exact risingFrom_none (risingFrom_filter p h.2)

theorem mem_putAt {k : Nat} {v : α} {l : List (Nat × α)} {c : Nat × α} (h : c ∈ putAt k v l) : c = (k, v) ∨ c ∈ l := by
  induction l with
  | nil => simpa [putAt] using h
  | cons e l ih =>
    obtain ⟨j, w⟩ := e
    unfold putAt at h
    cases h1 : Nat.blt k j with
    | true => simpa [h1] using h
    | false =>
      cases h2 : Nat.beq j k with
      | true =>
        simp only [h1, h2, cond_false, cond_true, List.mem_cons] at h
        rcases h with h | h
        · exact .inl h
        · exact .inr (List.mem_cons_of_mem _ h)
      | false =>
        simp only [h1, h2, cond_false, List.mem_cons] at h
        rcases h with h | h
        · exact .inr (h ▸ List.mem_cons_self ..)
        · rcases ih h with h | h
          · exact .inl h
          · exact .inr (List.mem_cons_of_mem _ h)

theorem mem_dropAt {k : Nat} {l : List (Nat × α)} {c : Nat × α} (h : c ∈ dropAt k l) : c ∈ l := by
  induction l with
  | nil => exact h
  | cons e l ih =>
    obtain ⟨j, w⟩ := e
    unfold dropAt at h
    cases h2 : Nat.beq j k with
    | true => simp only [h2, cond_true] at h; exact List.mem_cons_of_mem _ (ih h)
    | false =>
      simp only [h2, cond_false, List.mem_cons] at h
      rcases h with h | h
      · exact h ▸ List.mem_cons_self ..
      · exact List.mem_cons_of_mem _ (ih h)

/-- A store keeps the canonical form. -/
theorem tableWf_storeAt [DecidableEq α] (d : Nat → α) (k : Nat) (v : α) {l : List (Nat × α)} (h : tableWf d l = true) :
    tableWf d (storeAt d k v l) = true := by
  simp only [tableWf, Bool.and_eq_true, List.all_eq_true, decide_eq_true_eq] at h ⊢
  unfold storeAt
  split
  · exact ⟨rising_dropAt k h.1, fun c hc => h.2 c (mem_dropAt hc)⟩
  · rename_i hv
    refine ⟨rising_putAt k v h.1, fun c hc => ?_⟩
    rcases mem_putAt hc with hc | hc
    · rw [hc]; exact hv
    · exact h.2 c hc

/-- Removing entries keeps the canonical form. -/
theorem tableWf_filter [DecidableEq α] (d : Nat → α) (p : Nat × α → Bool) {l : List (Nat × α)} (h : tableWf d l = true) :
    tableWf d (l.filter p) = true := by
  simp only [tableWf, Bool.and_eq_true, List.all_eq_true, decide_eq_true_eq] at h ⊢
  exact ⟨rising_filter p h.1, fun c hc => h.2 c (List.mem_filter.mp hc).1⟩

end Sys2Proof.Machine
end

