-- ==== Sys2Proof/Laws/Bits.lean ====
section
/-! SUPPORT. Bit fields of a register word: reading a field after writing one. -/

namespace Sys2Proof.Machine

/-- A number in three parts: below the field, the field, above it. -/
theorem bits_split (n lo w : Nat) :
    n = n % 2 ^ lo + n / 2 ^ lo % 2 ^ w * 2 ^ lo + n / 2 ^ (lo + w) * 2 ^ (lo + w) := by
  have h1 := Nat.div_add_mod n (2 ^ lo)
  have h2 := Nat.div_add_mod (n / 2 ^ lo) (2 ^ w)
  rw [Nat.div_div_eq_div_mul, ← Nat.pow_add] at h2
  have h3 : 2 ^ (lo + w) = 2 ^ lo * 2 ^ w := Nat.pow_add ..
  calc n = 2 ^ lo * (n / 2 ^ lo) + n % 2 ^ lo := h1.symm
    _ = 2 ^ lo * (2 ^ w * (n / 2 ^ (lo + w)) + n / 2 ^ lo % 2 ^ w) + n % 2 ^ lo := by rw [h2]
    _ = _ := by rw [h3, Nat.mul_add, ← Nat.mul_assoc, Nat.mul_comm (n / (2 ^ lo * 2 ^ w)), Nat.mul_comm (n / 2 ^ lo % 2 ^ w)]; omega

theorem putBits_eq (n lo w v : Nat) :
    putBits n lo w v = n % 2 ^ lo + v % 2 ^ w * 2 ^ lo + n / 2 ^ (lo + w) * 2 ^ (lo + w) := by
  unfold putBits
  conv => lhs; arg 1; arg 1; rw [bits_split n lo w]
  omega

/-- The field that was written is read. -/
theorem bitsAt_putBits_self (n lo w v : Nat) : bitsAt (putBits n lo w v) lo w = v % 2 ^ w := by
  have hl : 0 < 2 ^ lo := Nat.two_pow_pos lo
  have hw : 0 < 2 ^ w := Nat.two_pow_pos w
  rw [putBits_eq, bitsAt]
  have e : n % 2 ^ lo + v % 2 ^ w * 2 ^ lo + n / 2 ^ (lo + w) * 2 ^ (lo + w)
      = n % 2 ^ lo + (v % 2 ^ w + n / 2 ^ (lo + w) * 2 ^ w) * 2 ^ lo := by
    rw [Nat.add_mul, Nat.mul_assoc, ← Nat.pow_add, Nat.add_comm w lo]; omega
  rw [e, Nat.add_mul_div_right _ _ hl, Nat.div_eq_of_lt (Nat.mod_lt _ hl), Nat.zero_add, Nat.add_mul_mod_self_right, Nat.mod_mod]

theorem bitsAt_putBits_below (n lo w v : Nat) {lo' w' : Nat} (h : lo' + w' ≤ lo) :
    bitsAt (putBits n lo w v) lo' w' = bitsAt n lo' w' := by
  have e (x : Nat) : x / 2 ^ lo' % 2 ^ w' = x % 2 ^ lo / 2 ^ lo' % 2 ^ w' := by
    have hd : 2 ^ (lo' + w') ∣ 2 ^ lo := Nat.pow_dvd_pow 2 h
    rw [← Nat.mod_mul_right_div_self, ← Nat.mod_mul_right_div_self, ← Nat.pow_add, Nat.mod_mod_of_dvd _ hd]
  have m : putBits n lo w v % 2 ^ lo = n % 2 ^ lo := by
    rw [putBits_eq, Nat.pow_add, ← Nat.mul_assoc, Nat.mul_right_comm, Nat.add_mul_mod_self_right, Nat.add_mul_mod_self_right,
      Nat.mod_mod]
  rw [bitsAt, bitsAt, e, e n, m]

theorem bitsAt_putBits_above (n lo w v : Nat) {lo' w' : Nat} (h : lo + w ≤ lo') :
    bitsAt (putBits n lo w v) lo' w' = bitsAt n lo' w' := by
  obtain ⟨d, rfl⟩ := Nat.exists_eq_add_of_le h
  have hp : 0 < 2 ^ (lo + w) := Nat.two_pow_pos _
  have m : putBits n lo w v / 2 ^ (lo + w) = n / 2 ^ (lo + w) := by
    rw [putBits_eq, Nat.add_mul_div_right _ _ hp, Nat.div_eq_of_lt, Nat.zero_add]
    have h1 := Nat.mod_lt n (Nat.two_pow_pos lo)
    have h2 := Nat.mod_lt v (Nat.two_pow_pos w)
    rw [Nat.pow_add]
    calc n % 2 ^ lo + v % 2 ^ w * 2 ^ lo < 2 ^ lo + v % 2 ^ w * 2 ^ lo := by omega
      _ = (v % 2 ^ w + 1) * 2 ^ lo := by rw [Nat.add_mul]; omega
      _ ≤ 2 ^ w * 2 ^ lo := Nat.mul_le_mul_right _ h2
      _ = _ := Nat.mul_comm ..
  rw [bitsAt, bitsAt, Nat.pow_add 2 (lo + w) d, ← Nat.div_div_eq_div_mul, ← Nat.div_div_eq_div_mul, m]

theorem putBits_lt (n lo w v k : Nat) (hn : n < 2 ^ k) (h : lo + w ≤ k) : putBits n lo w v < 2 ^ k := by
  obtain ⟨d, rfl⟩ := Nat.exists_eq_add_of_le h
  have h1 := Nat.mod_lt n (Nat.two_pow_pos lo)
  have h2 := Nat.mod_lt v (Nat.two_pow_pos w)
  have h3 : n / 2 ^ (lo + w) < 2 ^ d := by
    rw [Nat.div_lt_iff_lt_mul (Nat.two_pow_pos _), ← Nat.pow_add, Nat.add_comm d]; exact hn
  have h4 : n % 2 ^ lo + v % 2 ^ w * 2 ^ lo < 2 ^ (lo + w) := by
    rw [Nat.pow_add]
    calc n % 2 ^ lo + v % 2 ^ w * 2 ^ lo < 2 ^ lo + v % 2 ^ w * 2 ^ lo := by omega
      _ = (v % 2 ^ w + 1) * 2 ^ lo := by rw [Nat.add_mul]; omega
      _ ≤ 2 ^ w * 2 ^ lo := Nat.mul_le_mul_right _ h2
      _ = _ := Nat.mul_comm ..
  rw [putBits_eq, Nat.pow_add 2 (lo + w) d]
  calc n % 2 ^ lo + v % 2 ^ w * 2 ^ lo + n / 2 ^ (lo + w) * 2 ^ (lo + w)
      < 2 ^ (lo + w) + n / 2 ^ (lo + w) * 2 ^ (lo + w) := by omega
    _ = (n / 2 ^ (lo + w) + 1) * 2 ^ (lo + w) := by rw [Nat.add_mul]; omega
    _ ≤ 2 ^ d * 2 ^ (lo + w) := Nat.mul_le_mul_right _ h3
    _ = _ := Nat.mul_comm ..

/-! ### Fields of a word -/

/-- The field lies in its register. -/
def Fld.inWord (f : Fld) : Prop := f.lo + f.width ≤ 32

theorem fieldOf_withField (f : Fld) (w : Word) (v : Nat) (h : f.lo + f.width ≤ 32) : fieldOf f (withField f w v) = v % 2 ^ f.width := by
  have hb := putBits_lt w.toNat f.lo f.width v 32 w.isLt h
  rw [fieldOf, withField, BitVec.toNat_ofNat, Nat.mod_eq_of_lt hb, bitsAt_putBits_self]

theorem fieldOf_withField_ne (f g : Fld) (w : Word) (v : Nat) (h : f.lo + f.width ≤ 32)
    (hd : g.lo + g.width ≤ f.lo ∨ f.lo + f.width ≤ g.lo) : fieldOf g (withField f w v) = fieldOf g w := by
  have hb := putBits_lt w.toNat f.lo f.width v 32 w.isLt h
  rw [fieldOf, fieldOf, withField, BitVec.toNat_ofNat, Nat.mod_eq_of_lt hb]
  rcases hd with hd | hd
  · exact bitsAt_putBits_below _ _ _ _ hd
  · exact bitsAt_putBits_above _ _ _ _ hd

/-! ### Registers -/

@[simp] theorem rd_wr_self (s : State) (a : Nat) (v : Word) : (s.wr a v).rd a = v := by simp [State.rd, State.wr]

theorem rd_wr_ne (s : State) {a b : Nat} (v : Word) (h : b ≠ a) : (s.wr a v).rd b = s.rd b := by
  simp [State.rd, State.wr, findAt_storeAt_ne _ _ _ h]

theorem rd_wr (s : State) (a b : Nat) (v : Word) : (s.wr a v).rd b = if b = a then v else s.rd b := by
  split
  · rename_i h; rw [h, rd_wr_self]
  · rename_i h; exact rd_wr_ne s v h

/-- A field write, then a read of a register. -/
theorem rd_set (s : State) (f : Fld) (v b : Nat) :
    (s.set f v).rd b = if b = f.reg then withField f (s.rd f.reg) v else s.rd b := rd_wr ..

/-- A field that was written reads as the value, in its width. -/
theorem get_set_self (s : State) (f : Fld) (v : Nat) (h : f.lo + f.width ≤ 32) : (s.set f v).get f = v % 2 ^ f.width := by
  simp [State.get, State.set, fieldOf_withField f _ v h]

/-- A field write leaves the fields of other registers, and the fields beside it, as they were. -/
theorem get_set_ne (s : State) (f g : Fld) (v : Nat) (h : f.lo + f.width ≤ 32)
    (hd : g.reg ≠ f.reg ∨ g.lo + g.width ≤ f.lo ∨ f.lo + f.width ≤ g.lo) : (s.set f v).get g = s.get g := by
  unfold State.get
  rw [rd_set]
  split
  · rename_i e
    rw [fieldOf_withField_ne f g _ v h (hd.resolve_left (fun n => n e)), e]
  · rfl

/-! ### Memory -/

@[simp] theorem byte_putByte_self (s : State) (a : Nat) (v : Byte) : (s.putByte a v).byte a = v := by
  simp [State.byte, State.putByte]

theorem byte_putByte_ne (s : State) {a b : Nat} (v : Byte) (h : b ≠ a) : (s.putByte a v).byte b = s.byte b := by
  simp [State.byte, State.putByte, findAt_storeAt_ne _ _ _ h]

theorem byte_putBytes (s : State) (a : Nat) (l : List Byte) (b : Nat) (h : b < a ∨ a + l.length ≤ b) :
    (s.putBytes a l).byte b = s.byte b := by
  induction l generalizing s a with
  | nil => rfl
  | cons c l ih =>
    simp only [List.length_cons] at h
    rw [State.putBytes, ih _ _ (by omega), byte_putByte_ne _ _ (by omega)]

/-- A word store leaves every byte outside its four alone. -/
theorem byte_putWord (s : State) (a : Nat) (v : Word) (b : Nat) (h : b < a ∨ a + 4 ≤ b) : (s.putWord a v).byte b = s.byte b := by
  unfold State.putWord
  rw [byte_putByte_ne _ _ (by omega), byte_putByte_ne _ _ (by omega), byte_putByte_ne _ _ (by omega), byte_putByte_ne _ _ (by omega)]

/-- The word stored is read. -/
theorem word_putWord (s : State) (a : Nat) (v : Word) : (s.putWord a v).word a = v := by
  have e0 : (s.putWord a v).byte a = v.extractLsb' 0 8 := by
    unfold State.putWord
    rw [byte_putByte_ne _ _ (by omega), byte_putByte_ne _ _ (by omega), byte_putByte_ne _ _ (by omega), byte_putByte_self]
  have e1 : (s.putWord a v).byte (a + 1) = v.extractLsb' 8 8 := by
    unfold State.putWord
    rw [byte_putByte_ne _ _ (by omega), byte_putByte_ne _ _ (by omega), byte_putByte_self]
  have e2 : (s.putWord a v).byte (a + 2) = v.extractLsb' 16 8 := by
    unfold State.putWord
    rw [byte_putByte_ne _ _ (by omega), byte_putByte_self]
  have e3 : (s.putWord a v).byte (a + 3) = v.extractLsb' 24 8 := by
    unfold State.putWord
    rw [byte_putByte_self]
  unfold State.word
  rw [e0, e1, e2, e3]
  unfold wordOfBytes
  rw [BitVec.extractLsb'_append_extractLsb'_eq_extractLsb' (by omega), BitVec.extractLsb'_append_extractLsb'_eq_extractLsb' (by omega),
    BitVec.extractLsb'_append_extractLsb'_eq_extractLsb' (by omega)]
  exact BitVec.extractLsb'_eq_self

end Sys2Proof.Machine
end

