-- ==== Sys2Proof/Laws/State.lean ====
section
/-! SUPPORT. What each update of the state leaves unchanged: one lemma for each field and update, and the reads of one table after
the update of another. -/

namespace Sys2Proof.Machine

/-! ### Writes of fields are field writes -/

@[simp] theorem setb_eq (s : State) (f : Fld) (b : Bool) : s.setb f b = s.set f b.toNat := rfl
@[simp] theorem seti_eq (s : State) (f : Fld) (v : Int) : s.seti f v = s.set f (codeOf f.width v) := rfl
@[simp] theorem tally_eq (s : State) (f : Fld) : s.tally f = s.set f (min (2 ^ f.width - 1) (s.get f + 1)) := rfl

/-! ### `State.wr` -/

section
variable (s : State) (a : Nat) (v : Word)
@[simp] theorem wr_pending : (s.wr a v).pending = s.pending := rfl
@[simp] theorem wr_tb : (s.wr a v).tb = s.tb := rfl
@[simp] theorem wr_clock : (s.wr a v).clock = s.clock := rfl
@[simp] theorem wr_mem : (s.wr a v).mem = s.mem := rfl
@[simp] theorem wr_ecc : (s.wr a v).ecc = s.ecc := rfl
@[simp] theorem wr_soft : (s.wr a v).soft = s.soft := rfl
@[simp] theorem wr_hold : (s.wr a v).hold = s.hold := rfl
@[simp] theorem wr_resp : (s.wr a v).resp = s.resp := rfl
@[simp] theorem wr_inputs : (s.wr a v).inputs = s.inputs := rfl
@[simp] theorem wr_trackers : (s.wr a v).trackers = s.trackers := rfl
@[simp] theorem wr_occs : (s.wr a v).occs = s.occs := rfl
@[simp] theorem wr_units : (s.wr a v).units = s.units := rfl
@[simp] theorem wr_switched : (s.wr a v).switched = s.switched := rfl
@[simp] theorem wr_held : (s.wr a v).held = s.held := rfl
@[simp] theorem wr_bankCyl : (s.wr a v).bankCyl = s.bankCyl := rfl
@[simp] theorem wr_bankJob : (s.wr a v).bankJob = s.bankJob := rfl
@[simp] theorem wr_copyTb : (s.wr a v).copyTb = s.copyTb := rfl
@[simp] theorem wr_copySrc : (s.wr a v).copySrc = s.copySrc := rfl
@[simp] theorem wr_published : (s.wr a v).published = s.published := rfl
@[simp] theorem wr_copyJob : (s.wr a v).copyJob = s.copyJob := rfl
@[simp] theorem wr_esqs : (s.wr a v).esqs = s.esqs := rfl
@[simp] theorem wr_loops : (s.wr a v).loops = s.loops := rfl
@[simp] theorem wr_cses : (s.wr a v).cses = s.cses := rfl
@[simp] theorem wr_padc : (s.wr a v).padc = s.padc := rfl
@[simp] theorem wr_cae : (s.wr a v).cae = s.cae := rfl
@[simp] theorem wr_gpts : (s.wr a v).gpts = s.gpts := rfl
@[simp] theorem wr_hadc : (s.wr a v).hadc = s.hadc := rfl
@[simp] theorem wr_cmps : (s.wr a v).cmps = s.cmps := rfl
@[simp] theorem wr_gnorum : (s.wr a v).gnorum = s.gnorum := rfl
@[simp] theorem wr_cores : (s.wr a v).cores = s.cores := rfl
@[simp] theorem wr_moved : (s.wr a v).moved = s.moved := rfl
@[simp] theorem wr_pairs : (s.wr a v).pairs = s.pairs := rfl
@[simp] theorem wr_takeover : (s.wr a v).takeover = s.takeover := rfl
@[simp] theorem wr_locks : (s.wr a v).locks = s.locks := rfl
@[simp] theorem wr_waits : (s.wr a v).waits = s.waits := rfl
@[simp] theorem wr_arbs : (s.wr a v).arbs = s.arbs := rfl
@[simp] theorem wr_scrub : (s.wr a v).scrub = s.scrub := rfl
@[simp] theorem wr_bistTb : (s.wr a v).bistTb = s.bistTb := rfl
@[simp] theorem wr_bistJob : (s.wr a v).bistJob = s.bistJob := rfl
@[simp] theorem wr_dmas : (s.wr a v).dmas = s.dmas := rfl
@[simp] theorem wr_queues : (s.wr a v).queues = s.queues := rfl
@[simp] theorem wr_perc : (s.wr a v).perc = s.perc := rfl
@[simp] theorem wr_update : (s.wr a v).update = s.update := rfl
@[simp] theorem wr_fuses : (s.wr a v).fuses = s.fuses := rfl
@[simp] theorem wr_ring : (s.wr a v).ring = s.ring := rfl
@[simp] theorem wr_power : (s.wr a v).power = s.power := rfl
@[simp] theorem wr_ports : (s.wr a v).ports = s.ports := rfl
@[simp] theorem wr_draws : (s.wr a v).draws = s.draws := rfl
@[simp] theorem wr_byte (b : Nat) : (s.wr a v).byte b = s.byte b := rfl
@[simp] theorem wr_inp_of (m : Nat) : (s.wr a v).inp m = s.inp m := rfl
@[simp] theorem wr_trk_of (m : Nat) : (s.wr a v).trk m = s.trk m := rfl
@[simp] theorem wr_occ_of (m : Nat) : (s.wr a v).occ m = s.occ m := rfl
@[simp] theorem wr_unit_of (m : Nat) : (s.wr a v).unit m = s.unit m := rfl
@[simp] theorem wr_esq_of (m : Nat) : (s.wr a v).esq m = s.esq m := rfl
@[simp] theorem wr_loop_of (m : Nat) : (s.wr a v).loop m = s.loop m := rfl
@[simp] theorem wr_cse_of (m : Nat) : (s.wr a v).cse m = s.cse m := rfl
@[simp] theorem wr_gpt_of (m : Nat) : (s.wr a v).gpt m = s.gpt m := rfl
@[simp] theorem wr_cmp_of (m : Nat) : (s.wr a v).cmp m = s.cmp m := rfl
@[simp] theorem wr_core_of (m : Nat) : (s.wr a v).core m = s.core m := rfl
@[simp] theorem wr_pair_of (m : Nat) : (s.wr a v).pair m = s.pair m := rfl
@[simp] theorem wr_lock_of (m : Nat) : (s.wr a v).lock m = s.lock m := rfl
@[simp] theorem wr_wait_of (m : Nat) : (s.wr a v).wait m = s.wait m := rfl
@[simp] theorem wr_arb_of (m : Nat) : (s.wr a v).arb m = s.arb m := rfl
@[simp] theorem wr_dma_of (m : Nat) : (s.wr a v).dma m = s.dma m := rfl
@[simp] theorem wr_queue_of (m : Nat) : (s.wr a v).queue m = s.queue m := rfl
@[simp] theorem wr_now : (s.wr a v).now = s.now := rfl
end

/-! ### `State.wrn` -/

section
variable (s : State) (a v : Nat)
@[simp] theorem wrn_pending : (s.wrn a v).pending = s.pending := rfl
@[simp] theorem wrn_tb : (s.wrn a v).tb = s.tb := rfl
@[simp] theorem wrn_clock : (s.wrn a v).clock = s.clock := rfl
@[simp] theorem wrn_mem : (s.wrn a v).mem = s.mem := rfl
@[simp] theorem wrn_ecc : (s.wrn a v).ecc = s.ecc := rfl
@[simp] theorem wrn_soft : (s.wrn a v).soft = s.soft := rfl
@[simp] theorem wrn_hold : (s.wrn a v).hold = s.hold := rfl
@[simp] theorem wrn_resp : (s.wrn a v).resp = s.resp := rfl
@[simp] theorem wrn_inputs : (s.wrn a v).inputs = s.inputs := rfl
@[simp] theorem wrn_trackers : (s.wrn a v).trackers = s.trackers := rfl
@[simp] theorem wrn_occs : (s.wrn a v).occs = s.occs := rfl
@[simp] theorem wrn_units : (s.wrn a v).units = s.units := rfl
@[simp] theorem wrn_switched : (s.wrn a v).switched = s.switched := rfl
@[simp] theorem wrn_held : (s.wrn a v).held = s.held := rfl
@[simp] theorem wrn_bankCyl : (s.wrn a v).bankCyl = s.bankCyl := rfl
@[simp] theorem wrn_bankJob : (s.wrn a v).bankJob = s.bankJob := rfl
@[simp] theorem wrn_copyTb : (s.wrn a v).copyTb = s.copyTb := rfl
@[simp] theorem wrn_copySrc : (s.wrn a v).copySrc = s.copySrc := rfl
@[simp] theorem wrn_published : (s.wrn a v).published = s.published := rfl
@[simp] theorem wrn_copyJob : (s.wrn a v).copyJob = s.copyJob := rfl
@[simp] theorem wrn_esqs : (s.wrn a v).esqs = s.esqs := rfl
@[simp] theorem wrn_loops : (s.wrn a v).loops = s.loops := rfl
@[simp] theorem wrn_cses : (s.wrn a v).cses = s.cses := rfl
@[simp] theorem wrn_padc : (s.wrn a v).padc = s.padc := rfl
@[simp] theorem wrn_cae : (s.wrn a v).cae = s.cae := rfl
@[simp] theorem wrn_gpts : (s.wrn a v).gpts = s.gpts := rfl
@[simp] theorem wrn_hadc : (s.wrn a v).hadc = s.hadc := rfl
@[simp] theorem wrn_cmps : (s.wrn a v).cmps = s.cmps := rfl
@[simp] theorem wrn_gnorum : (s.wrn a v).gnorum = s.gnorum := rfl
@[simp] theorem wrn_cores : (s.wrn a v).cores = s.cores := rfl
@[simp] theorem wrn_moved : (s.wrn a v).moved = s.moved := rfl
@[simp] theorem wrn_pairs : (s.wrn a v).pairs = s.pairs := rfl
@[simp] theorem wrn_takeover : (s.wrn a v).takeover = s.takeover := rfl
@[simp] theorem wrn_locks : (s.wrn a v).locks = s.locks := rfl
@[simp] theorem wrn_waits : (s.wrn a v).waits = s.waits := rfl
@[simp] theorem wrn_arbs : (s.wrn a v).arbs = s.arbs := rfl
@[simp] theorem wrn_scrub : (s.wrn a v).scrub = s.scrub := rfl
@[simp] theorem wrn_bistTb : (s.wrn a v).bistTb = s.bistTb := rfl
@[simp] theorem wrn_bistJob : (s.wrn a v).bistJob = s.bistJob := rfl
@[simp] theorem wrn_dmas : (s.wrn a v).dmas = s.dmas := rfl
@[simp] theorem wrn_queues : (s.wrn a v).queues = s.queues := rfl
@[simp] theorem wrn_perc : (s.wrn a v).perc = s.perc := rfl
@[simp] theorem wrn_update : (s.wrn a v).update = s.update := rfl
@[simp] theorem wrn_fuses : (s.wrn a v).fuses = s.fuses := rfl
@[simp] theorem wrn_ring : (s.wrn a v).ring = s.ring := rfl
@[simp] theorem wrn_power : (s.wrn a v).power = s.power := rfl
@[simp] theorem wrn_ports : (s.wrn a v).ports = s.ports := rfl
@[simp] theorem wrn_draws : (s.wrn a v).draws = s.draws := rfl
@[simp] theorem wrn_byte (b : Nat) : (s.wrn a v).byte b = s.byte b := rfl
@[simp] theorem wrn_inp_of (m : Nat) : (s.wrn a v).inp m = s.inp m := rfl
@[simp] theorem wrn_trk_of (m : Nat) : (s.wrn a v).trk m = s.trk m := rfl
@[simp] theorem wrn_occ_of (m : Nat) : (s.wrn a v).occ m = s.occ m := rfl
@[simp] theorem wrn_unit_of (m : Nat) : (s.wrn a v).unit m = s.unit m := rfl
@[simp] theorem wrn_esq_of (m : Nat) : (s.wrn a v).esq m = s.esq m := rfl
@[simp] theorem wrn_loop_of (m : Nat) : (s.wrn a v).loop m = s.loop m := rfl
@[simp] theorem wrn_cse_of (m : Nat) : (s.wrn a v).cse m = s.cse m := rfl
@[simp] theorem wrn_gpt_of (m : Nat) : (s.wrn a v).gpt m = s.gpt m := rfl
@[simp] theorem wrn_cmp_of (m : Nat) : (s.wrn a v).cmp m = s.cmp m := rfl
@[simp] theorem wrn_core_of (m : Nat) : (s.wrn a v).core m = s.core m := rfl
@[simp] theorem wrn_pair_of (m : Nat) : (s.wrn a v).pair m = s.pair m := rfl
@[simp] theorem wrn_lock_of (m : Nat) : (s.wrn a v).lock m = s.lock m := rfl
@[simp] theorem wrn_wait_of (m : Nat) : (s.wrn a v).wait m = s.wait m := rfl
@[simp] theorem wrn_arb_of (m : Nat) : (s.wrn a v).arb m = s.arb m := rfl
@[simp] theorem wrn_dma_of (m : Nat) : (s.wrn a v).dma m = s.dma m := rfl
@[simp] theorem wrn_queue_of (m : Nat) : (s.wrn a v).queue m = s.queue m := rfl
@[simp] theorem wrn_now : (s.wrn a v).now = s.now := rfl
end

/-! ### `State.set` -/

section
variable (s : State) (f : Fld) (v : Nat)
@[simp] theorem set_pending : (s.set f v).pending = s.pending := rfl
@[simp] theorem set_tb : (s.set f v).tb = s.tb := rfl
@[simp] theorem set_clock : (s.set f v).clock = s.clock := rfl
@[simp] theorem set_mem : (s.set f v).mem = s.mem := rfl
@[simp] theorem set_ecc : (s.set f v).ecc = s.ecc := rfl
@[simp] theorem set_soft : (s.set f v).soft = s.soft := rfl
@[simp] theorem set_hold : (s.set f v).hold = s.hold := rfl
@[simp] theorem set_resp : (s.set f v).resp = s.resp := rfl
@[simp] theorem set_inputs : (s.set f v).inputs = s.inputs := rfl
@[simp] theorem set_trackers : (s.set f v).trackers = s.trackers := rfl
@[simp] theorem set_occs : (s.set f v).occs = s.occs := rfl
@[simp] theorem set_units : (s.set f v).units = s.units := rfl
@[simp] theorem set_switched : (s.set f v).switched = s.switched := rfl
@[simp] theorem set_held : (s.set f v).held = s.held := rfl
@[simp] theorem set_bankCyl : (s.set f v).bankCyl = s.bankCyl := rfl
@[simp] theorem set_bankJob : (s.set f v).bankJob = s.bankJob := rfl
@[simp] theorem set_copyTb : (s.set f v).copyTb = s.copyTb := rfl
@[simp] theorem set_copySrc : (s.set f v).copySrc = s.copySrc := rfl
@[simp] theorem set_published : (s.set f v).published = s.published := rfl
@[simp] theorem set_copyJob : (s.set f v).copyJob = s.copyJob := rfl
@[simp] theorem set_esqs : (s.set f v).esqs = s.esqs := rfl
@[simp] theorem set_loops : (s.set f v).loops = s.loops := rfl
@[simp] theorem set_cses : (s.set f v).cses = s.cses := rfl
@[simp] theorem set_padc : (s.set f v).padc = s.padc := rfl
@[simp] theorem set_cae : (s.set f v).cae = s.cae := rfl
@[simp] theorem set_gpts : (s.set f v).gpts = s.gpts := rfl
@[simp] theorem set_hadc : (s.set f v).hadc = s.hadc := rfl
@[simp] theorem set_cmps : (s.set f v).cmps = s.cmps := rfl
@[simp] theorem set_gnorum : (s.set f v).gnorum = s.gnorum := rfl
@[simp] theorem set_cores : (s.set f v).cores = s.cores := rfl
@[simp] theorem set_moved : (s.set f v).moved = s.moved := rfl
@[simp] theorem set_pairs : (s.set f v).pairs = s.pairs := rfl
@[simp] theorem set_takeover : (s.set f v).takeover = s.takeover := rfl
@[simp] theorem set_locks : (s.set f v).locks = s.locks := rfl
@[simp] theorem set_waits : (s.set f v).waits = s.waits := rfl
@[simp] theorem set_arbs : (s.set f v).arbs = s.arbs := rfl
@[simp] theorem set_scrub : (s.set f v).scrub = s.scrub := rfl
@[simp] theorem set_bistTb : (s.set f v).bistTb = s.bistTb := rfl
@[simp] theorem set_bistJob : (s.set f v).bistJob = s.bistJob := rfl
@[simp] theorem set_dmas : (s.set f v).dmas = s.dmas := rfl
@[simp] theorem set_queues : (s.set f v).queues = s.queues := rfl
@[simp] theorem set_perc : (s.set f v).perc = s.perc := rfl
@[simp] theorem set_update : (s.set f v).update = s.update := rfl
@[simp] theorem set_fuses : (s.set f v).fuses = s.fuses := rfl
@[simp] theorem set_ring : (s.set f v).ring = s.ring := rfl
@[simp] theorem set_power : (s.set f v).power = s.power := rfl
@[simp] theorem set_ports : (s.set f v).ports = s.ports := rfl
@[simp] theorem set_draws : (s.set f v).draws = s.draws := rfl
@[simp] theorem set_byte (b : Nat) : (s.set f v).byte b = s.byte b := rfl
@[simp] theorem set_inp_of (m : Nat) : (s.set f v).inp m = s.inp m := rfl
@[simp] theorem set_trk_of (m : Nat) : (s.set f v).trk m = s.trk m := rfl
@[simp] theorem set_occ_of (m : Nat) : (s.set f v).occ m = s.occ m := rfl
@[simp] theorem set_unit_of (m : Nat) : (s.set f v).unit m = s.unit m := rfl
@[simp] theorem set_esq_of (m : Nat) : (s.set f v).esq m = s.esq m := rfl
@[simp] theorem set_loop_of (m : Nat) : (s.set f v).loop m = s.loop m := rfl
@[simp] theorem set_cse_of (m : Nat) : (s.set f v).cse m = s.cse m := rfl
@[simp] theorem set_gpt_of (m : Nat) : (s.set f v).gpt m = s.gpt m := rfl
@[simp] theorem set_cmp_of (m : Nat) : (s.set f v).cmp m = s.cmp m := rfl
@[simp] theorem set_core_of (m : Nat) : (s.set f v).core m = s.core m := rfl
@[simp] theorem set_pair_of (m : Nat) : (s.set f v).pair m = s.pair m := rfl
@[simp] theorem set_lock_of (m : Nat) : (s.set f v).lock m = s.lock m := rfl
@[simp] theorem set_wait_of (m : Nat) : (s.set f v).wait m = s.wait m := rfl
@[simp] theorem set_arb_of (m : Nat) : (s.set f v).arb m = s.arb m := rfl
@[simp] theorem set_dma_of (m : Nat) : (s.set f v).dma m = s.dma m := rfl
@[simp] theorem set_queue_of (m : Nat) : (s.set f v).queue m = s.queue m := rfl
@[simp] theorem set_now : (s.set f v).now = s.now := rfl
end

/-! ### `State.putByte` -/

section
variable (s : State) (a : Nat) (v : Byte)
@[simp] theorem putByte_pending : (s.putByte a v).pending = s.pending := rfl
@[simp] theorem putByte_tb : (s.putByte a v).tb = s.tb := rfl
@[simp] theorem putByte_clock : (s.putByte a v).clock = s.clock := rfl
@[simp] theorem putByte_regs : (s.putByte a v).regs = s.regs := rfl
@[simp] theorem putByte_ecc : (s.putByte a v).ecc = s.ecc := rfl
@[simp] theorem putByte_soft : (s.putByte a v).soft = s.soft := rfl
@[simp] theorem putByte_hold : (s.putByte a v).hold = s.hold := rfl
@[simp] theorem putByte_resp : (s.putByte a v).resp = s.resp := rfl
@[simp] theorem putByte_inputs : (s.putByte a v).inputs = s.inputs := rfl
@[simp] theorem putByte_trackers : (s.putByte a v).trackers = s.trackers := rfl
@[simp] theorem putByte_occs : (s.putByte a v).occs = s.occs := rfl
@[simp] theorem putByte_units : (s.putByte a v).units = s.units := rfl
@[simp] theorem putByte_switched : (s.putByte a v).switched = s.switched := rfl
@[simp] theorem putByte_held : (s.putByte a v).held = s.held := rfl
@[simp] theorem putByte_bankCyl : (s.putByte a v).bankCyl = s.bankCyl := rfl
@[simp] theorem putByte_bankJob : (s.putByte a v).bankJob = s.bankJob := rfl
@[simp] theorem putByte_copyTb : (s.putByte a v).copyTb = s.copyTb := rfl
@[simp] theorem putByte_copySrc : (s.putByte a v).copySrc = s.copySrc := rfl
@[simp] theorem putByte_published : (s.putByte a v).published = s.published := rfl
@[simp] theorem putByte_copyJob : (s.putByte a v).copyJob = s.copyJob := rfl
@[simp] theorem putByte_esqs : (s.putByte a v).esqs = s.esqs := rfl
@[simp] theorem putByte_loops : (s.putByte a v).loops = s.loops := rfl
@[simp] theorem putByte_cses : (s.putByte a v).cses = s.cses := rfl
@[simp] theorem putByte_padc : (s.putByte a v).padc = s.padc := rfl
@[simp] theorem putByte_cae : (s.putByte a v).cae = s.cae := rfl
@[simp] theorem putByte_gpts : (s.putByte a v).gpts = s.gpts := rfl
@[simp] theorem putByte_hadc : (s.putByte a v).hadc = s.hadc := rfl
@[simp] theorem putByte_cmps : (s.putByte a v).cmps = s.cmps := rfl
@[simp] theorem putByte_gnorum : (s.putByte a v).gnorum = s.gnorum := rfl
@[simp] theorem putByte_cores : (s.putByte a v).cores = s.cores := rfl
@[simp] theorem putByte_moved : (s.putByte a v).moved = s.moved := rfl
@[simp] theorem putByte_pairs : (s.putByte a v).pairs = s.pairs := rfl
@[simp] theorem putByte_takeover : (s.putByte a v).takeover = s.takeover := rfl
@[simp] theorem putByte_locks : (s.putByte a v).locks = s.locks := rfl
@[simp] theorem putByte_waits : (s.putByte a v).waits = s.waits := rfl
@[simp] theorem putByte_arbs : (s.putByte a v).arbs = s.arbs := rfl
@[simp] theorem putByte_scrub : (s.putByte a v).scrub = s.scrub := rfl
@[simp] theorem putByte_bistTb : (s.putByte a v).bistTb = s.bistTb := rfl
@[simp] theorem putByte_bistJob : (s.putByte a v).bistJob = s.bistJob := rfl
@[simp] theorem putByte_dmas : (s.putByte a v).dmas = s.dmas := rfl
@[simp] theorem putByte_queues : (s.putByte a v).queues = s.queues := rfl
@[simp] theorem putByte_perc : (s.putByte a v).perc = s.perc := rfl
@[simp] theorem putByte_update : (s.putByte a v).update = s.update := rfl
@[simp] theorem putByte_fuses : (s.putByte a v).fuses = s.fuses := rfl
@[simp] theorem putByte_ring : (s.putByte a v).ring = s.ring := rfl
@[simp] theorem putByte_power : (s.putByte a v).power = s.power := rfl
@[simp] theorem putByte_ports : (s.putByte a v).ports = s.ports := rfl
@[simp] theorem putByte_draws : (s.putByte a v).draws = s.draws := rfl
@[simp] theorem putByte_rd (b : Nat) : (s.putByte a v).rd b = s.rd b := rfl
@[simp] theorem putByte_rdn (b : Nat) : (s.putByte a v).rdn b = s.rdn b := rfl
@[simp] theorem putByte_get (g : Fld) : (s.putByte a v).get g = s.get g := rfl
@[simp] theorem putByte_geti (g : Fld) : (s.putByte a v).geti g = s.geti g := rfl
@[simp] theorem putByte_flag (g : Fld) : (s.putByte a v).flag g = s.flag g := rfl
@[simp] theorem putByte_inp_of (m : Nat) : (s.putByte a v).inp m = s.inp m := rfl
@[simp] theorem putByte_trk_of (m : Nat) : (s.putByte a v).trk m = s.trk m := rfl
@[simp] theorem putByte_occ_of (m : Nat) : (s.putByte a v).occ m = s.occ m := rfl
@[simp] theorem putByte_unit_of (m : Nat) : (s.putByte a v).unit m = s.unit m := rfl
@[simp] theorem putByte_esq_of (m : Nat) : (s.putByte a v).esq m = s.esq m := rfl
@[simp] theorem putByte_loop_of (m : Nat) : (s.putByte a v).loop m = s.loop m := rfl
@[simp] theorem putByte_cse_of (m : Nat) : (s.putByte a v).cse m = s.cse m := rfl
@[simp] theorem putByte_gpt_of (m : Nat) : (s.putByte a v).gpt m = s.gpt m := rfl
@[simp] theorem putByte_cmp_of (m : Nat) : (s.putByte a v).cmp m = s.cmp m := rfl
@[simp] theorem putByte_core_of (m : Nat) : (s.putByte a v).core m = s.core m := rfl
@[simp] theorem putByte_pair_of (m : Nat) : (s.putByte a v).pair m = s.pair m := rfl
@[simp] theorem putByte_lock_of (m : Nat) : (s.putByte a v).lock m = s.lock m := rfl
@[simp] theorem putByte_wait_of (m : Nat) : (s.putByte a v).wait m = s.wait m := rfl
@[simp] theorem putByte_arb_of (m : Nat) : (s.putByte a v).arb m = s.arb m := rfl
@[simp] theorem putByte_dma_of (m : Nat) : (s.putByte a v).dma m = s.dma m := rfl
@[simp] theorem putByte_queue_of (m : Nat) : (s.putByte a v).queue m = s.queue m := rfl
@[simp] theorem putByte_now : (s.putByte a v).now = s.now := rfl
end

/-! ### `State.putWord` -/

section
variable (s : State) (a : Nat) (v : Word)
@[simp] theorem putWord_pending : (s.putWord a v).pending = s.pending := by simp only [State.putWord, putByte_pending]
@[simp] theorem putWord_tb : (s.putWord a v).tb = s.tb := by simp only [State.putWord, putByte_tb]
@[simp] theorem putWord_clock : (s.putWord a v).clock = s.clock := by simp only [State.putWord, putByte_clock]
@[simp] theorem putWord_regs : (s.putWord a v).regs = s.regs := by simp only [State.putWord, putByte_regs]
@[simp] theorem putWord_ecc : (s.putWord a v).ecc = s.ecc := by simp only [State.putWord, putByte_ecc]
@[simp] theorem putWord_soft : (s.putWord a v).soft = s.soft := by simp only [State.putWord, putByte_soft]
@[simp] theorem putWord_hold : (s.putWord a v).hold = s.hold := by simp only [State.putWord, putByte_hold]
@[simp] theorem putWord_resp : (s.putWord a v).resp = s.resp := by simp only [State.putWord, putByte_resp]
@[simp] theorem putWord_inputs : (s.putWord a v).inputs = s.inputs := by simp only [State.putWord, putByte_inputs]
@[simp] theorem putWord_trackers : (s.putWord a v).trackers = s.trackers := by simp only [State.putWord, putByte_trackers]
@[simp] theorem putWord_occs : (s.putWord a v).occs = s.occs := by simp only [State.putWord, putByte_occs]
@[simp] theorem putWord_units : (s.putWord a v).units = s.units := by simp only [State.putWord, putByte_units]
@[simp] theorem putWord_switched : (s.putWord a v).switched = s.switched := by simp only [State.putWord, putByte_switched]
@[simp] theorem putWord_held : (s.putWord a v).held = s.held := by simp only [State.putWord, putByte_held]
@[simp] theorem putWord_bankCyl : (s.putWord a v).bankCyl = s.bankCyl := by simp only [State.putWord, putByte_bankCyl]
@[simp] theorem putWord_bankJob : (s.putWord a v).bankJob = s.bankJob := by simp only [State.putWord, putByte_bankJob]
@[simp] theorem putWord_copyTb : (s.putWord a v).copyTb = s.copyTb := by simp only [State.putWord, putByte_copyTb]
@[simp] theorem putWord_copySrc : (s.putWord a v).copySrc = s.copySrc := by simp only [State.putWord, putByte_copySrc]
@[simp] theorem putWord_published : (s.putWord a v).published = s.published := by simp only [State.putWord, putByte_published]
@[simp] theorem putWord_copyJob : (s.putWord a v).copyJob = s.copyJob := by simp only [State.putWord, putByte_copyJob]
@[simp] theorem putWord_esqs : (s.putWord a v).esqs = s.esqs := by simp only [State.putWord, putByte_esqs]
@[simp] theorem putWord_loops : (s.putWord a v).loops = s.loops := by simp only [State.putWord, putByte_loops]
@[simp] theorem putWord_cses : (s.putWord a v).cses = s.cses := by simp only [State.putWord, putByte_cses]
@[simp] theorem putWord_padc : (s.putWord a v).padc = s.padc := by simp only [State.putWord, putByte_padc]
@[simp] theorem putWord_cae : (s.putWord a v).cae = s.cae := by simp only [State.putWord, putByte_cae]
@[simp] theorem putWord_gpts : (s.putWord a v).gpts = s.gpts := by simp only [State.putWord, putByte_gpts]
@[simp] theorem putWord_hadc : (s.putWord a v).hadc = s.hadc := by simp only [State.putWord, putByte_hadc]
@[simp] theorem putWord_cmps : (s.putWord a v).cmps = s.cmps := by simp only [State.putWord, putByte_cmps]
@[simp] theorem putWord_gnorum : (s.putWord a v).gnorum = s.gnorum := by simp only [State.putWord, putByte_gnorum]
@[simp] theorem putWord_cores : (s.putWord a v).cores = s.cores := by simp only [State.putWord, putByte_cores]
@[simp] theorem putWord_moved : (s.putWord a v).moved = s.moved := by simp only [State.putWord, putByte_moved]
@[simp] theorem putWord_pairs : (s.putWord a v).pairs = s.pairs := by simp only [State.putWord, putByte_pairs]
@[simp] theorem putWord_takeover : (s.putWord a v).takeover = s.takeover := by simp only [State.putWord, putByte_takeover]
@[simp] theorem putWord_locks : (s.putWord a v).locks = s.locks := by simp only [State.putWord, putByte_locks]
@[simp] theorem putWord_waits : (s.putWord a v).waits = s.waits := by simp only [State.putWord, putByte_waits]
@[simp] theorem putWord_arbs : (s.putWord a v).arbs = s.arbs := by simp only [State.putWord, putByte_arbs]
@[simp] theorem putWord_scrub : (s.putWord a v).scrub = s.scrub := by simp only [State.putWord, putByte_scrub]
@[simp] theorem putWord_bistTb : (s.putWord a v).bistTb = s.bistTb := by simp only [State.putWord, putByte_bistTb]
@[simp] theorem putWord_bistJob : (s.putWord a v).bistJob = s.bistJob := by simp only [State.putWord, putByte_bistJob]
@[simp] theorem putWord_dmas : (s.putWord a v).dmas = s.dmas := by simp only [State.putWord, putByte_dmas]
@[simp] theorem putWord_queues : (s.putWord a v).queues = s.queues := by simp only [State.putWord, putByte_queues]
@[simp] theorem putWord_perc : (s.putWord a v).perc = s.perc := by simp only [State.putWord, putByte_perc]
@[simp] theorem putWord_update : (s.putWord a v).update = s.update := by simp only [State.putWord, putByte_update]
@[simp] theorem putWord_fuses : (s.putWord a v).fuses = s.fuses := by simp only [State.putWord, putByte_fuses]
@[simp] theorem putWord_ring : (s.putWord a v).ring = s.ring := by simp only [State.putWord, putByte_ring]
@[simp] theorem putWord_power : (s.putWord a v).power = s.power := by simp only [State.putWord, putByte_power]
@[simp] theorem putWord_ports : (s.putWord a v).ports = s.ports := by simp only [State.putWord, putByte_ports]
@[simp] theorem putWord_draws : (s.putWord a v).draws = s.draws := by simp only [State.putWord, putByte_draws]
@[simp] theorem putWord_rd (b : Nat) : (s.putWord a v).rd b = s.rd b := by simp only [State.putWord, putByte_rd]
@[simp] theorem putWord_rdn (b : Nat) : (s.putWord a v).rdn b = s.rdn b := by simp only [State.putWord, putByte_rdn]
@[simp] theorem putWord_get (g : Fld) : (s.putWord a v).get g = s.get g := by simp only [State.putWord, putByte_get]
@[simp] theorem putWord_geti (g : Fld) : (s.putWord a v).geti g = s.geti g := by simp only [State.putWord, putByte_geti]
@[simp] theorem putWord_flag (g : Fld) : (s.putWord a v).flag g = s.flag g := by simp only [State.putWord, putByte_flag]
@[simp] theorem putWord_inp_of (m : Nat) : (s.putWord a v).inp m = s.inp m := by simp only [State.putWord, putByte_inp_of]
@[simp] theorem putWord_trk_of (m : Nat) : (s.putWord a v).trk m = s.trk m := by simp only [State.putWord, putByte_trk_of]
@[simp] theorem putWord_occ_of (m : Nat) : (s.putWord a v).occ m = s.occ m := by simp only [State.putWord, putByte_occ_of]
@[simp] theorem putWord_unit_of (m : Nat) : (s.putWord a v).unit m = s.unit m := by simp only [State.putWord, putByte_unit_of]
@[simp] theorem putWord_esq_of (m : Nat) : (s.putWord a v).esq m = s.esq m := by simp only [State.putWord, putByte_esq_of]
@[simp] theorem putWord_loop_of (m : Nat) : (s.putWord a v).loop m = s.loop m := by simp only [State.putWord, putByte_loop_of]
@[simp] theorem putWord_cse_of (m : Nat) : (s.putWord a v).cse m = s.cse m := by simp only [State.putWord, putByte_cse_of]
@[simp] theorem putWord_gpt_of (m : Nat) : (s.putWord a v).gpt m = s.gpt m := by simp only [State.putWord, putByte_gpt_of]
@[simp] theorem putWord_cmp_of (m : Nat) : (s.putWord a v).cmp m = s.cmp m := by simp only [State.putWord, putByte_cmp_of]
@[simp] theorem putWord_core_of (m : Nat) : (s.putWord a v).core m = s.core m := by simp only [State.putWord, putByte_core_of]
@[simp] theorem putWord_pair_of (m : Nat) : (s.putWord a v).pair m = s.pair m := by simp only [State.putWord, putByte_pair_of]
@[simp] theorem putWord_lock_of (m : Nat) : (s.putWord a v).lock m = s.lock m := by simp only [State.putWord, putByte_lock_of]
@[simp] theorem putWord_wait_of (m : Nat) : (s.putWord a v).wait m = s.wait m := by simp only [State.putWord, putByte_wait_of]
@[simp] theorem putWord_arb_of (m : Nat) : (s.putWord a v).arb m = s.arb m := by simp only [State.putWord, putByte_arb_of]
@[simp] theorem putWord_dma_of (m : Nat) : (s.putWord a v).dma m = s.dma m := by simp only [State.putWord, putByte_dma_of]
@[simp] theorem putWord_queue_of (m : Nat) : (s.putWord a v).queue m = s.queue m := by simp only [State.putWord, putByte_queue_of]
@[simp] theorem putWord_now : (s.putWord a v).now = s.now := by simp only [State.putWord, putByte_now]
end

/-! ### `State.putInp` -/

section
variable (s : State) (n : Nat) (v : Input)
@[simp] theorem putInp_pending : (s.putInp n v).pending = s.pending := rfl
@[simp] theorem putInp_tb : (s.putInp n v).tb = s.tb := rfl
@[simp] theorem putInp_clock : (s.putInp n v).clock = s.clock := rfl
@[simp] theorem putInp_regs : (s.putInp n v).regs = s.regs := rfl
@[simp] theorem putInp_mem : (s.putInp n v).mem = s.mem := rfl
@[simp] theorem putInp_ecc : (s.putInp n v).ecc = s.ecc := rfl
@[simp] theorem putInp_soft : (s.putInp n v).soft = s.soft := rfl
@[simp] theorem putInp_hold : (s.putInp n v).hold = s.hold := rfl
@[simp] theorem putInp_resp : (s.putInp n v).resp = s.resp := rfl
@[simp] theorem putInp_trackers : (s.putInp n v).trackers = s.trackers := rfl
@[simp] theorem putInp_occs : (s.putInp n v).occs = s.occs := rfl
@[simp] theorem putInp_units : (s.putInp n v).units = s.units := rfl
@[simp] theorem putInp_switched : (s.putInp n v).switched = s.switched := rfl
@[simp] theorem putInp_held : (s.putInp n v).held = s.held := rfl
@[simp] theorem putInp_bankCyl : (s.putInp n v).bankCyl = s.bankCyl := rfl
@[simp] theorem putInp_bankJob : (s.putInp n v).bankJob = s.bankJob := rfl
@[simp] theorem putInp_copyTb : (s.putInp n v).copyTb = s.copyTb := rfl
@[simp] theorem putInp_copySrc : (s.putInp n v).copySrc = s.copySrc := rfl
@[simp] theorem putInp_published : (s.putInp n v).published = s.published := rfl
@[simp] theorem putInp_copyJob : (s.putInp n v).copyJob = s.copyJob := rfl
@[simp] theorem putInp_esqs : (s.putInp n v).esqs = s.esqs := rfl
@[simp] theorem putInp_loops : (s.putInp n v).loops = s.loops := rfl
@[simp] theorem putInp_cses : (s.putInp n v).cses = s.cses := rfl
@[simp] theorem putInp_padc : (s.putInp n v).padc = s.padc := rfl
@[simp] theorem putInp_cae : (s.putInp n v).cae = s.cae := rfl
@[simp] theorem putInp_gpts : (s.putInp n v).gpts = s.gpts := rfl
@[simp] theorem putInp_hadc : (s.putInp n v).hadc = s.hadc := rfl
@[simp] theorem putInp_cmps : (s.putInp n v).cmps = s.cmps := rfl
@[simp] theorem putInp_gnorum : (s.putInp n v).gnorum = s.gnorum := rfl
@[simp] theorem putInp_cores : (s.putInp n v).cores = s.cores := rfl
@[simp] theorem putInp_moved : (s.putInp n v).moved = s.moved := rfl
@[simp] theorem putInp_pairs : (s.putInp n v).pairs = s.pairs := rfl
@[simp] theorem putInp_takeover : (s.putInp n v).takeover = s.takeover := rfl
@[simp] theorem putInp_locks : (s.putInp n v).locks = s.locks := rfl
@[simp] theorem putInp_waits : (s.putInp n v).waits = s.waits := rfl
@[simp] theorem putInp_arbs : (s.putInp n v).arbs = s.arbs := rfl
@[simp] theorem putInp_scrub : (s.putInp n v).scrub = s.scrub := rfl
@[simp] theorem putInp_bistTb : (s.putInp n v).bistTb = s.bistTb := rfl
@[simp] theorem putInp_bistJob : (s.putInp n v).bistJob = s.bistJob := rfl
@[simp] theorem putInp_dmas : (s.putInp n v).dmas = s.dmas := rfl
@[simp] theorem putInp_queues : (s.putInp n v).queues = s.queues := rfl
@[simp] theorem putInp_perc : (s.putInp n v).perc = s.perc := rfl
@[simp] theorem putInp_update : (s.putInp n v).update = s.update := rfl
@[simp] theorem putInp_fuses : (s.putInp n v).fuses = s.fuses := rfl
@[simp] theorem putInp_ring : (s.putInp n v).ring = s.ring := rfl
@[simp] theorem putInp_power : (s.putInp n v).power = s.power := rfl
@[simp] theorem putInp_ports : (s.putInp n v).ports = s.ports := rfl
@[simp] theorem putInp_draws : (s.putInp n v).draws = s.draws := rfl
@[simp] theorem putInp_rd (b : Nat) : (s.putInp n v).rd b = s.rd b := rfl
@[simp] theorem putInp_rdn (b : Nat) : (s.putInp n v).rdn b = s.rdn b := rfl
@[simp] theorem putInp_get (g : Fld) : (s.putInp n v).get g = s.get g := rfl
@[simp] theorem putInp_geti (g : Fld) : (s.putInp n v).geti g = s.geti g := rfl
@[simp] theorem putInp_flag (g : Fld) : (s.putInp n v).flag g = s.flag g := rfl
@[simp] theorem putInp_byte (b : Nat) : (s.putInp n v).byte b = s.byte b := rfl
@[simp] theorem putInp_trk_of (m : Nat) : (s.putInp n v).trk m = s.trk m := rfl
@[simp] theorem putInp_occ_of (m : Nat) : (s.putInp n v).occ m = s.occ m := rfl
@[simp] theorem putInp_unit_of (m : Nat) : (s.putInp n v).unit m = s.unit m := rfl
@[simp] theorem putInp_esq_of (m : Nat) : (s.putInp n v).esq m = s.esq m := rfl
@[simp] theorem putInp_loop_of (m : Nat) : (s.putInp n v).loop m = s.loop m := rfl
@[simp] theorem putInp_cse_of (m : Nat) : (s.putInp n v).cse m = s.cse m := rfl
@[simp] theorem putInp_gpt_of (m : Nat) : (s.putInp n v).gpt m = s.gpt m := rfl
@[simp] theorem putInp_cmp_of (m : Nat) : (s.putInp n v).cmp m = s.cmp m := rfl
@[simp] theorem putInp_core_of (m : Nat) : (s.putInp n v).core m = s.core m := rfl
@[simp] theorem putInp_pair_of (m : Nat) : (s.putInp n v).pair m = s.pair m := rfl
@[simp] theorem putInp_lock_of (m : Nat) : (s.putInp n v).lock m = s.lock m := rfl
@[simp] theorem putInp_wait_of (m : Nat) : (s.putInp n v).wait m = s.wait m := rfl
@[simp] theorem putInp_arb_of (m : Nat) : (s.putInp n v).arb m = s.arb m := rfl
@[simp] theorem putInp_dma_of (m : Nat) : (s.putInp n v).dma m = s.dma m := rfl
@[simp] theorem putInp_queue_of (m : Nat) : (s.putInp n v).queue m = s.queue m := rfl
@[simp] theorem putInp_now : (s.putInp n v).now = s.now := rfl
end

/-! ### `State.putTrk` -/

section
variable (s : State) (n : Nat) (v : Tracker)
@[simp] theorem putTrk_pending : (s.putTrk n v).pending = s.pending := rfl
@[simp] theorem putTrk_tb : (s.putTrk n v).tb = s.tb := rfl
@[simp] theorem putTrk_clock : (s.putTrk n v).clock = s.clock := rfl
@[simp] theorem putTrk_regs : (s.putTrk n v).regs = s.regs := rfl
@[simp] theorem putTrk_mem : (s.putTrk n v).mem = s.mem := rfl
@[simp] theorem putTrk_ecc : (s.putTrk n v).ecc = s.ecc := rfl
@[simp] theorem putTrk_soft : (s.putTrk n v).soft = s.soft := rfl
@[simp] theorem putTrk_hold : (s.putTrk n v).hold = s.hold := rfl
@[simp] theorem putTrk_resp : (s.putTrk n v).resp = s.resp := rfl
@[simp] theorem putTrk_inputs : (s.putTrk n v).inputs = s.inputs := rfl
@[simp] theorem putTrk_occs : (s.putTrk n v).occs = s.occs := rfl
@[simp] theorem putTrk_units : (s.putTrk n v).units = s.units := rfl
@[simp] theorem putTrk_switched : (s.putTrk n v).switched = s.switched := rfl
@[simp] theorem putTrk_held : (s.putTrk n v).held = s.held := rfl
@[simp] theorem putTrk_bankCyl : (s.putTrk n v).bankCyl = s.bankCyl := rfl
@[simp] theorem putTrk_bankJob : (s.putTrk n v).bankJob = s.bankJob := rfl
@[simp] theorem putTrk_copyTb : (s.putTrk n v).copyTb = s.copyTb := rfl
@[simp] theorem putTrk_copySrc : (s.putTrk n v).copySrc = s.copySrc := rfl
@[simp] theorem putTrk_published : (s.putTrk n v).published = s.published := rfl
@[simp] theorem putTrk_copyJob : (s.putTrk n v).copyJob = s.copyJob := rfl
@[simp] theorem putTrk_esqs : (s.putTrk n v).esqs = s.esqs := rfl
@[simp] theorem putTrk_loops : (s.putTrk n v).loops = s.loops := rfl
@[simp] theorem putTrk_cses : (s.putTrk n v).cses = s.cses := rfl
@[simp] theorem putTrk_padc : (s.putTrk n v).padc = s.padc := rfl
@[simp] theorem putTrk_cae : (s.putTrk n v).cae = s.cae := rfl
@[simp] theorem putTrk_gpts : (s.putTrk n v).gpts = s.gpts := rfl
@[simp] theorem putTrk_hadc : (s.putTrk n v).hadc = s.hadc := rfl
@[simp] theorem putTrk_cmps : (s.putTrk n v).cmps = s.cmps := rfl
@[simp] theorem putTrk_gnorum : (s.putTrk n v).gnorum = s.gnorum := rfl
@[simp] theorem putTrk_cores : (s.putTrk n v).cores = s.cores := rfl
@[simp] theorem putTrk_moved : (s.putTrk n v).moved = s.moved := rfl
@[simp] theorem putTrk_pairs : (s.putTrk n v).pairs = s.pairs := rfl
@[simp] theorem putTrk_takeover : (s.putTrk n v).takeover = s.takeover := rfl
@[simp] theorem putTrk_locks : (s.putTrk n v).locks = s.locks := rfl
@[simp] theorem putTrk_waits : (s.putTrk n v).waits = s.waits := rfl
@[simp] theorem putTrk_arbs : (s.putTrk n v).arbs = s.arbs := rfl
@[simp] theorem putTrk_scrub : (s.putTrk n v).scrub = s.scrub := rfl
@[simp] theorem putTrk_bistTb : (s.putTrk n v).bistTb = s.bistTb := rfl
@[simp] theorem putTrk_bistJob : (s.putTrk n v).bistJob = s.bistJob := rfl
@[simp] theorem putTrk_dmas : (s.putTrk n v).dmas = s.dmas := rfl
@[simp] theorem putTrk_queues : (s.putTrk n v).queues = s.queues := rfl
@[simp] theorem putTrk_perc : (s.putTrk n v).perc = s.perc := rfl
@[simp] theorem putTrk_update : (s.putTrk n v).update = s.update := rfl
@[simp] theorem putTrk_fuses : (s.putTrk n v).fuses = s.fuses := rfl
@[simp] theorem putTrk_ring : (s.putTrk n v).ring = s.ring := rfl
@[simp] theorem putTrk_power : (s.putTrk n v).power = s.power := rfl
@[simp] theorem putTrk_ports : (s.putTrk n v).ports = s.ports := rfl
@[simp] theorem putTrk_draws : (s.putTrk n v).draws = s.draws := rfl
@[simp] theorem putTrk_rd (b : Nat) : (s.putTrk n v).rd b = s.rd b := rfl
@[simp] theorem putTrk_rdn (b : Nat) : (s.putTrk n v).rdn b = s.rdn b := rfl
@[simp] theorem putTrk_get (g : Fld) : (s.putTrk n v).get g = s.get g := rfl
@[simp] theorem putTrk_geti (g : Fld) : (s.putTrk n v).geti g = s.geti g := rfl
@[simp] theorem putTrk_flag (g : Fld) : (s.putTrk n v).flag g = s.flag g := rfl
@[simp] theorem putTrk_byte (b : Nat) : (s.putTrk n v).byte b = s.byte b := rfl
@[simp] theorem putTrk_inp_of (m : Nat) : (s.putTrk n v).inp m = s.inp m := rfl
@[simp] theorem putTrk_occ_of (m : Nat) : (s.putTrk n v).occ m = s.occ m := rfl
@[simp] theorem putTrk_unit_of (m : Nat) : (s.putTrk n v).unit m = s.unit m := rfl
@[simp] theorem putTrk_esq_of (m : Nat) : (s.putTrk n v).esq m = s.esq m := rfl
@[simp] theorem putTrk_loop_of (m : Nat) : (s.putTrk n v).loop m = s.loop m := rfl
@[simp] theorem putTrk_cse_of (m : Nat) : (s.putTrk n v).cse m = s.cse m := rfl
@[simp] theorem putTrk_gpt_of (m : Nat) : (s.putTrk n v).gpt m = s.gpt m := rfl
@[simp] theorem putTrk_cmp_of (m : Nat) : (s.putTrk n v).cmp m = s.cmp m := rfl
@[simp] theorem putTrk_core_of (m : Nat) : (s.putTrk n v).core m = s.core m := rfl
@[simp] theorem putTrk_pair_of (m : Nat) : (s.putTrk n v).pair m = s.pair m := rfl
@[simp] theorem putTrk_lock_of (m : Nat) : (s.putTrk n v).lock m = s.lock m := rfl
@[simp] theorem putTrk_wait_of (m : Nat) : (s.putTrk n v).wait m = s.wait m := rfl
@[simp] theorem putTrk_arb_of (m : Nat) : (s.putTrk n v).arb m = s.arb m := rfl
@[simp] theorem putTrk_dma_of (m : Nat) : (s.putTrk n v).dma m = s.dma m := rfl
@[simp] theorem putTrk_queue_of (m : Nat) : (s.putTrk n v).queue m = s.queue m := rfl
@[simp] theorem putTrk_now : (s.putTrk n v).now = s.now := rfl
end

/-! ### `State.putOcc` -/

section
variable (s : State) (n : Nat) (v : Occ)
@[simp] theorem putOcc_pending : (s.putOcc n v).pending = s.pending := rfl
@[simp] theorem putOcc_tb : (s.putOcc n v).tb = s.tb := rfl
@[simp] theorem putOcc_clock : (s.putOcc n v).clock = s.clock := rfl
@[simp] theorem putOcc_regs : (s.putOcc n v).regs = s.regs := rfl
@[simp] theorem putOcc_mem : (s.putOcc n v).mem = s.mem := rfl
@[simp] theorem putOcc_ecc : (s.putOcc n v).ecc = s.ecc := rfl
@[simp] theorem putOcc_soft : (s.putOcc n v).soft = s.soft := rfl
@[simp] theorem putOcc_hold : (s.putOcc n v).hold = s.hold := rfl
@[simp] theorem putOcc_resp : (s.putOcc n v).resp = s.resp := rfl
@[simp] theorem putOcc_inputs : (s.putOcc n v).inputs = s.inputs := rfl
@[simp] theorem putOcc_trackers : (s.putOcc n v).trackers = s.trackers := rfl
@[simp] theorem putOcc_units : (s.putOcc n v).units = s.units := rfl
@[simp] theorem putOcc_switched : (s.putOcc n v).switched = s.switched := rfl
@[simp] theorem putOcc_held : (s.putOcc n v).held = s.held := rfl
@[simp] theorem putOcc_bankCyl : (s.putOcc n v).bankCyl = s.bankCyl := rfl
@[simp] theorem putOcc_bankJob : (s.putOcc n v).bankJob = s.bankJob := rfl
@[simp] theorem putOcc_copyTb : (s.putOcc n v).copyTb = s.copyTb := rfl
@[simp] theorem putOcc_copySrc : (s.putOcc n v).copySrc = s.copySrc := rfl
@[simp] theorem putOcc_published : (s.putOcc n v).published = s.published := rfl
@[simp] theorem putOcc_copyJob : (s.putOcc n v).copyJob = s.copyJob := rfl
@[simp] theorem putOcc_esqs : (s.putOcc n v).esqs = s.esqs := rfl
@[simp] theorem putOcc_loops : (s.putOcc n v).loops = s.loops := rfl
@[simp] theorem putOcc_cses : (s.putOcc n v).cses = s.cses := rfl
@[simp] theorem putOcc_padc : (s.putOcc n v).padc = s.padc := rfl
@[simp] theorem putOcc_cae : (s.putOcc n v).cae = s.cae := rfl
@[simp] theorem putOcc_gpts : (s.putOcc n v).gpts = s.gpts := rfl
@[simp] theorem putOcc_hadc : (s.putOcc n v).hadc = s.hadc := rfl
@[simp] theorem putOcc_cmps : (s.putOcc n v).cmps = s.cmps := rfl
@[simp] theorem putOcc_gnorum : (s.putOcc n v).gnorum = s.gnorum := rfl
@[simp] theorem putOcc_cores : (s.putOcc n v).cores = s.cores := rfl
@[simp] theorem putOcc_moved : (s.putOcc n v).moved = s.moved := rfl
@[simp] theorem putOcc_pairs : (s.putOcc n v).pairs = s.pairs := rfl
@[simp] theorem putOcc_takeover : (s.putOcc n v).takeover = s.takeover := rfl
@[simp] theorem putOcc_locks : (s.putOcc n v).locks = s.locks := rfl
@[simp] theorem putOcc_waits : (s.putOcc n v).waits = s.waits := rfl
@[simp] theorem putOcc_arbs : (s.putOcc n v).arbs = s.arbs := rfl
@[simp] theorem putOcc_scrub : (s.putOcc n v).scrub = s.scrub := rfl
@[simp] theorem putOcc_bistTb : (s.putOcc n v).bistTb = s.bistTb := rfl
@[simp] theorem putOcc_bistJob : (s.putOcc n v).bistJob = s.bistJob := rfl
@[simp] theorem putOcc_dmas : (s.putOcc n v).dmas = s.dmas := rfl
@[simp] theorem putOcc_queues : (s.putOcc n v).queues = s.queues := rfl
@[simp] theorem putOcc_perc : (s.putOcc n v).perc = s.perc := rfl
@[simp] theorem putOcc_update : (s.putOcc n v).update = s.update := rfl
@[simp] theorem putOcc_fuses : (s.putOcc n v).fuses = s.fuses := rfl
@[simp] theorem putOcc_ring : (s.putOcc n v).ring = s.ring := rfl
@[simp] theorem putOcc_power : (s.putOcc n v).power = s.power := rfl
@[simp] theorem putOcc_ports : (s.putOcc n v).ports = s.ports := rfl
@[simp] theorem putOcc_draws : (s.putOcc n v).draws = s.draws := rfl
@[simp] theorem putOcc_rd (b : Nat) : (s.putOcc n v).rd b = s.rd b := rfl
@[simp] theorem putOcc_rdn (b : Nat) : (s.putOcc n v).rdn b = s.rdn b := rfl
@[simp] theorem putOcc_get (g : Fld) : (s.putOcc n v).get g = s.get g := rfl
@[simp] theorem putOcc_geti (g : Fld) : (s.putOcc n v).geti g = s.geti g := rfl
@[simp] theorem putOcc_flag (g : Fld) : (s.putOcc n v).flag g = s.flag g := rfl
@[simp] theorem putOcc_byte (b : Nat) : (s.putOcc n v).byte b = s.byte b := rfl
@[simp] theorem putOcc_inp_of (m : Nat) : (s.putOcc n v).inp m = s.inp m := rfl
@[simp] theorem putOcc_trk_of (m : Nat) : (s.putOcc n v).trk m = s.trk m := rfl
@[simp] theorem putOcc_unit_of (m : Nat) : (s.putOcc n v).unit m = s.unit m := rfl
@[simp] theorem putOcc_esq_of (m : Nat) : (s.putOcc n v).esq m = s.esq m := rfl
@[simp] theorem putOcc_loop_of (m : Nat) : (s.putOcc n v).loop m = s.loop m := rfl
@[simp] theorem putOcc_cse_of (m : Nat) : (s.putOcc n v).cse m = s.cse m := rfl
@[simp] theorem putOcc_gpt_of (m : Nat) : (s.putOcc n v).gpt m = s.gpt m := rfl
@[simp] theorem putOcc_cmp_of (m : Nat) : (s.putOcc n v).cmp m = s.cmp m := rfl
@[simp] theorem putOcc_core_of (m : Nat) : (s.putOcc n v).core m = s.core m := rfl
@[simp] theorem putOcc_pair_of (m : Nat) : (s.putOcc n v).pair m = s.pair m := rfl
@[simp] theorem putOcc_lock_of (m : Nat) : (s.putOcc n v).lock m = s.lock m := rfl
@[simp] theorem putOcc_wait_of (m : Nat) : (s.putOcc n v).wait m = s.wait m := rfl
@[simp] theorem putOcc_arb_of (m : Nat) : (s.putOcc n v).arb m = s.arb m := rfl
@[simp] theorem putOcc_dma_of (m : Nat) : (s.putOcc n v).dma m = s.dma m := rfl
@[simp] theorem putOcc_queue_of (m : Nat) : (s.putOcc n v).queue m = s.queue m := rfl
@[simp] theorem putOcc_now : (s.putOcc n v).now = s.now := rfl
end

/-! ### `State.putUnit` -/

section
variable (s : State) (n : Nat) (v : OutUnit)
@[simp] theorem putUnit_pending : (s.putUnit n v).pending = s.pending := rfl
@[simp] theorem putUnit_tb : (s.putUnit n v).tb = s.tb := rfl
@[simp] theorem putUnit_clock : (s.putUnit n v).clock = s.clock := rfl
@[simp] theorem putUnit_regs : (s.putUnit n v).regs = s.regs := rfl
@[simp] theorem putUnit_mem : (s.putUnit n v).mem = s.mem := rfl
@[simp] theorem putUnit_ecc : (s.putUnit n v).ecc = s.ecc := rfl
@[simp] theorem putUnit_soft : (s.putUnit n v).soft = s.soft := rfl
@[simp] theorem putUnit_hold : (s.putUnit n v).hold = s.hold := rfl
@[simp] theorem putUnit_resp : (s.putUnit n v).resp = s.resp := rfl
@[simp] theorem putUnit_inputs : (s.putUnit n v).inputs = s.inputs := rfl
@[simp] theorem putUnit_trackers : (s.putUnit n v).trackers = s.trackers := rfl
@[simp] theorem putUnit_occs : (s.putUnit n v).occs = s.occs := rfl
@[simp] theorem putUnit_switched : (s.putUnit n v).switched = s.switched := rfl
@[simp] theorem putUnit_held : (s.putUnit n v).held = s.held := rfl
@[simp] theorem putUnit_bankCyl : (s.putUnit n v).bankCyl = s.bankCyl := rfl
@[simp] theorem putUnit_bankJob : (s.putUnit n v).bankJob = s.bankJob := rfl
@[simp] theorem putUnit_copyTb : (s.putUnit n v).copyTb = s.copyTb := rfl
@[simp] theorem putUnit_copySrc : (s.putUnit n v).copySrc = s.copySrc := rfl
@[simp] theorem putUnit_published : (s.putUnit n v).published = s.published := rfl
@[simp] theorem putUnit_copyJob : (s.putUnit n v).copyJob = s.copyJob := rfl
@[simp] theorem putUnit_esqs : (s.putUnit n v).esqs = s.esqs := rfl
@[simp] theorem putUnit_loops : (s.putUnit n v).loops = s.loops := rfl
@[simp] theorem putUnit_cses : (s.putUnit n v).cses = s.cses := rfl
@[simp] theorem putUnit_padc : (s.putUnit n v).padc = s.padc := rfl
@[simp] theorem putUnit_cae : (s.putUnit n v).cae = s.cae := rfl
@[simp] theorem putUnit_gpts : (s.putUnit n v).gpts = s.gpts := rfl
@[simp] theorem putUnit_hadc : (s.putUnit n v).hadc = s.hadc := rfl
@[simp] theorem putUnit_cmps : (s.putUnit n v).cmps = s.cmps := rfl
@[simp] theorem putUnit_gnorum : (s.putUnit n v).gnorum = s.gnorum := rfl
@[simp] theorem putUnit_cores : (s.putUnit n v).cores = s.cores := rfl
@[simp] theorem putUnit_moved : (s.putUnit n v).moved = s.moved := rfl
@[simp] theorem putUnit_pairs : (s.putUnit n v).pairs = s.pairs := rfl
@[simp] theorem putUnit_takeover : (s.putUnit n v).takeover = s.takeover := rfl
@[simp] theorem putUnit_locks : (s.putUnit n v).locks = s.locks := rfl
@[simp] theorem putUnit_waits : (s.putUnit n v).waits = s.waits := rfl
@[simp] theorem putUnit_arbs : (s.putUnit n v).arbs = s.arbs := rfl
@[simp] theorem putUnit_scrub : (s.putUnit n v).scrub = s.scrub := rfl
@[simp] theorem putUnit_bistTb : (s.putUnit n v).bistTb = s.bistTb := rfl
@[simp] theorem putUnit_bistJob : (s.putUnit n v).bistJob = s.bistJob := rfl
@[simp] theorem putUnit_dmas : (s.putUnit n v).dmas = s.dmas := rfl
@[simp] theorem putUnit_queues : (s.putUnit n v).queues = s.queues := rfl
@[simp] theorem putUnit_perc : (s.putUnit n v).perc = s.perc := rfl
@[simp] theorem putUnit_update : (s.putUnit n v).update = s.update := rfl
@[simp] theorem putUnit_fuses : (s.putUnit n v).fuses = s.fuses := rfl
@[simp] theorem putUnit_ring : (s.putUnit n v).ring = s.ring := rfl
@[simp] theorem putUnit_power : (s.putUnit n v).power = s.power := rfl
@[simp] theorem putUnit_ports : (s.putUnit n v).ports = s.ports := rfl
@[simp] theorem putUnit_draws : (s.putUnit n v).draws = s.draws := rfl
@[simp] theorem putUnit_rd (b : Nat) : (s.putUnit n v).rd b = s.rd b := rfl
@[simp] theorem putUnit_rdn (b : Nat) : (s.putUnit n v).rdn b = s.rdn b := rfl
@[simp] theorem putUnit_get (g : Fld) : (s.putUnit n v).get g = s.get g := rfl
@[simp] theorem putUnit_geti (g : Fld) : (s.putUnit n v).geti g = s.geti g := rfl
@[simp] theorem putUnit_flag (g : Fld) : (s.putUnit n v).flag g = s.flag g := rfl
@[simp] theorem putUnit_byte (b : Nat) : (s.putUnit n v).byte b = s.byte b := rfl
@[simp] theorem putUnit_inp_of (m : Nat) : (s.putUnit n v).inp m = s.inp m := rfl
@[simp] theorem putUnit_trk_of (m : Nat) : (s.putUnit n v).trk m = s.trk m := rfl
@[simp] theorem putUnit_occ_of (m : Nat) : (s.putUnit n v).occ m = s.occ m := rfl
@[simp] theorem putUnit_esq_of (m : Nat) : (s.putUnit n v).esq m = s.esq m := rfl
@[simp] theorem putUnit_loop_of (m : Nat) : (s.putUnit n v).loop m = s.loop m := rfl
@[simp] theorem putUnit_cse_of (m : Nat) : (s.putUnit n v).cse m = s.cse m := rfl
@[simp] theorem putUnit_gpt_of (m : Nat) : (s.putUnit n v).gpt m = s.gpt m := rfl
@[simp] theorem putUnit_cmp_of (m : Nat) : (s.putUnit n v).cmp m = s.cmp m := rfl
@[simp] theorem putUnit_core_of (m : Nat) : (s.putUnit n v).core m = s.core m := rfl
@[simp] theorem putUnit_pair_of (m : Nat) : (s.putUnit n v).pair m = s.pair m := rfl
@[simp] theorem putUnit_lock_of (m : Nat) : (s.putUnit n v).lock m = s.lock m := rfl
@[simp] theorem putUnit_wait_of (m : Nat) : (s.putUnit n v).wait m = s.wait m := rfl
@[simp] theorem putUnit_arb_of (m : Nat) : (s.putUnit n v).arb m = s.arb m := rfl
@[simp] theorem putUnit_dma_of (m : Nat) : (s.putUnit n v).dma m = s.dma m := rfl
@[simp] theorem putUnit_queue_of (m : Nat) : (s.putUnit n v).queue m = s.queue m := rfl
@[simp] theorem putUnit_now : (s.putUnit n v).now = s.now := rfl
end

/-! ### `State.putEsq` -/

section
variable (s : State) (n : Nat) (v : Esq)
@[simp] theorem putEsq_pending : (s.putEsq n v).pending = s.pending := rfl
@[simp] theorem putEsq_tb : (s.putEsq n v).tb = s.tb := rfl
@[simp] theorem putEsq_clock : (s.putEsq n v).clock = s.clock := rfl
@[simp] theorem putEsq_regs : (s.putEsq n v).regs = s.regs := rfl
@[simp] theorem putEsq_mem : (s.putEsq n v).mem = s.mem := rfl
@[simp] theorem putEsq_ecc : (s.putEsq n v).ecc = s.ecc := rfl
@[simp] theorem putEsq_soft : (s.putEsq n v).soft = s.soft := rfl
@[simp] theorem putEsq_hold : (s.putEsq n v).hold = s.hold := rfl
@[simp] theorem putEsq_resp : (s.putEsq n v).resp = s.resp := rfl
@[simp] theorem putEsq_inputs : (s.putEsq n v).inputs = s.inputs := rfl
@[simp] theorem putEsq_trackers : (s.putEsq n v).trackers = s.trackers := rfl
@[simp] theorem putEsq_occs : (s.putEsq n v).occs = s.occs := rfl
@[simp] theorem putEsq_units : (s.putEsq n v).units = s.units := rfl
@[simp] theorem putEsq_switched : (s.putEsq n v).switched = s.switched := rfl
@[simp] theorem putEsq_held : (s.putEsq n v).held = s.held := rfl
@[simp] theorem putEsq_bankCyl : (s.putEsq n v).bankCyl = s.bankCyl := rfl
@[simp] theorem putEsq_bankJob : (s.putEsq n v).bankJob = s.bankJob := rfl
@[simp] theorem putEsq_copyTb : (s.putEsq n v).copyTb = s.copyTb := rfl
@[simp] theorem putEsq_copySrc : (s.putEsq n v).copySrc = s.copySrc := rfl
@[simp] theorem putEsq_published : (s.putEsq n v).published = s.published := rfl
@[simp] theorem putEsq_copyJob : (s.putEsq n v).copyJob = s.copyJob := rfl
@[simp] theorem putEsq_loops : (s.putEsq n v).loops = s.loops := rfl
@[simp] theorem putEsq_cses : (s.putEsq n v).cses = s.cses := rfl
@[simp] theorem putEsq_padc : (s.putEsq n v).padc = s.padc := rfl
@[simp] theorem putEsq_cae : (s.putEsq n v).cae = s.cae := rfl
@[simp] theorem putEsq_gpts : (s.putEsq n v).gpts = s.gpts := rfl
@[simp] theorem putEsq_hadc : (s.putEsq n v).hadc = s.hadc := rfl
@[simp] theorem putEsq_cmps : (s.putEsq n v).cmps = s.cmps := rfl
@[simp] theorem putEsq_gnorum : (s.putEsq n v).gnorum = s.gnorum := rfl
@[simp] theorem putEsq_cores : (s.putEsq n v).cores = s.cores := rfl
@[simp] theorem putEsq_moved : (s.putEsq n v).moved = s.moved := rfl
@[simp] theorem putEsq_pairs : (s.putEsq n v).pairs = s.pairs := rfl
@[simp] theorem putEsq_takeover : (s.putEsq n v).takeover = s.takeover := rfl
@[simp] theorem putEsq_locks : (s.putEsq n v).locks = s.locks := rfl
@[simp] theorem putEsq_waits : (s.putEsq n v).waits = s.waits := rfl
@[simp] theorem putEsq_arbs : (s.putEsq n v).arbs = s.arbs := rfl
@[simp] theorem putEsq_scrub : (s.putEsq n v).scrub = s.scrub := rfl
@[simp] theorem putEsq_bistTb : (s.putEsq n v).bistTb = s.bistTb := rfl
@[simp] theorem putEsq_bistJob : (s.putEsq n v).bistJob = s.bistJob := rfl
@[simp] theorem putEsq_dmas : (s.putEsq n v).dmas = s.dmas := rfl
@[simp] theorem putEsq_queues : (s.putEsq n v).queues = s.queues := rfl
@[simp] theorem putEsq_perc : (s.putEsq n v).perc = s.perc := rfl
@[simp] theorem putEsq_update : (s.putEsq n v).update = s.update := rfl
@[simp] theorem putEsq_fuses : (s.putEsq n v).fuses = s.fuses := rfl
@[simp] theorem putEsq_ring : (s.putEsq n v).ring = s.ring := rfl
@[simp] theorem putEsq_power : (s.putEsq n v).power = s.power := rfl
@[simp] theorem putEsq_ports : (s.putEsq n v).ports = s.ports := rfl
@[simp] theorem putEsq_draws : (s.putEsq n v).draws = s.draws := rfl
@[simp] theorem putEsq_rd (b : Nat) : (s.putEsq n v).rd b = s.rd b := rfl
@[simp] theorem putEsq_rdn (b : Nat) : (s.putEsq n v).rdn b = s.rdn b := rfl
@[simp] theorem putEsq_get (g : Fld) : (s.putEsq n v).get g = s.get g := rfl
@[simp] theorem putEsq_geti (g : Fld) : (s.putEsq n v).geti g = s.geti g := rfl
@[simp] theorem putEsq_flag (g : Fld) : (s.putEsq n v).flag g = s.flag g := rfl
@[simp] theorem putEsq_byte (b : Nat) : (s.putEsq n v).byte b = s.byte b := rfl
@[simp] theorem putEsq_inp_of (m : Nat) : (s.putEsq n v).inp m = s.inp m := rfl
@[simp] theorem putEsq_trk_of (m : Nat) : (s.putEsq n v).trk m = s.trk m := rfl
@[simp] theorem putEsq_occ_of (m : Nat) : (s.putEsq n v).occ m = s.occ m := rfl
@[simp] theorem putEsq_unit_of (m : Nat) : (s.putEsq n v).unit m = s.unit m := rfl
@[simp] theorem putEsq_loop_of (m : Nat) : (s.putEsq n v).loop m = s.loop m := rfl
@[simp] theorem putEsq_cse_of (m : Nat) : (s.putEsq n v).cse m = s.cse m := rfl
@[simp] theorem putEsq_gpt_of (m : Nat) : (s.putEsq n v).gpt m = s.gpt m := rfl
@[simp] theorem putEsq_cmp_of (m : Nat) : (s.putEsq n v).cmp m = s.cmp m := rfl
@[simp] theorem putEsq_core_of (m : Nat) : (s.putEsq n v).core m = s.core m := rfl
@[simp] theorem putEsq_pair_of (m : Nat) : (s.putEsq n v).pair m = s.pair m := rfl
@[simp] theorem putEsq_lock_of (m : Nat) : (s.putEsq n v).lock m = s.lock m := rfl
@[simp] theorem putEsq_wait_of (m : Nat) : (s.putEsq n v).wait m = s.wait m := rfl
@[simp] theorem putEsq_arb_of (m : Nat) : (s.putEsq n v).arb m = s.arb m := rfl
@[simp] theorem putEsq_dma_of (m : Nat) : (s.putEsq n v).dma m = s.dma m := rfl
@[simp] theorem putEsq_queue_of (m : Nat) : (s.putEsq n v).queue m = s.queue m := rfl
@[simp] theorem putEsq_now : (s.putEsq n v).now = s.now := rfl
end

/-! ### `State.putLoop` -/

section
variable (s : State) (n : Nat) (v : Loop)
@[simp] theorem putLoop_pending : (s.putLoop n v).pending = s.pending := rfl
@[simp] theorem putLoop_tb : (s.putLoop n v).tb = s.tb := rfl
@[simp] theorem putLoop_clock : (s.putLoop n v).clock = s.clock := rfl
@[simp] theorem putLoop_regs : (s.putLoop n v).regs = s.regs := rfl
@[simp] theorem putLoop_mem : (s.putLoop n v).mem = s.mem := rfl
@[simp] theorem putLoop_ecc : (s.putLoop n v).ecc = s.ecc := rfl
@[simp] theorem putLoop_soft : (s.putLoop n v).soft = s.soft := rfl
@[simp] theorem putLoop_hold : (s.putLoop n v).hold = s.hold := rfl
@[simp] theorem putLoop_resp : (s.putLoop n v).resp = s.resp := rfl
@[simp] theorem putLoop_inputs : (s.putLoop n v).inputs = s.inputs := rfl
@[simp] theorem putLoop_trackers : (s.putLoop n v).trackers = s.trackers := rfl
@[simp] theorem putLoop_occs : (s.putLoop n v).occs = s.occs := rfl
@[simp] theorem putLoop_units : (s.putLoop n v).units = s.units := rfl
@[simp] theorem putLoop_switched : (s.putLoop n v).switched = s.switched := rfl
@[simp] theorem putLoop_held : (s.putLoop n v).held = s.held := rfl
@[simp] theorem putLoop_bankCyl : (s.putLoop n v).bankCyl = s.bankCyl := rfl
@[simp] theorem putLoop_bankJob : (s.putLoop n v).bankJob = s.bankJob := rfl
@[simp] theorem putLoop_copyTb : (s.putLoop n v).copyTb = s.copyTb := rfl
@[simp] theorem putLoop_copySrc : (s.putLoop n v).copySrc = s.copySrc := rfl
@[simp] theorem putLoop_published : (s.putLoop n v).published = s.published := rfl
@[simp] theorem putLoop_copyJob : (s.putLoop n v).copyJob = s.copyJob := rfl
@[simp] theorem putLoop_esqs : (s.putLoop n v).esqs = s.esqs := rfl
@[simp] theorem putLoop_cses : (s.putLoop n v).cses = s.cses := rfl
@[simp] theorem putLoop_padc : (s.putLoop n v).padc = s.padc := rfl
@[simp] theorem putLoop_cae : (s.putLoop n v).cae = s.cae := rfl
@[simp] theorem putLoop_gpts : (s.putLoop n v).gpts = s.gpts := rfl
@[simp] theorem putLoop_hadc : (s.putLoop n v).hadc = s.hadc := rfl
@[simp] theorem putLoop_cmps : (s.putLoop n v).cmps = s.cmps := rfl
@[simp] theorem putLoop_gnorum : (s.putLoop n v).gnorum = s.gnorum := rfl
@[simp] theorem putLoop_cores : (s.putLoop n v).cores = s.cores := rfl
@[simp] theorem putLoop_moved : (s.putLoop n v).moved = s.moved := rfl
@[simp] theorem putLoop_pairs : (s.putLoop n v).pairs = s.pairs := rfl
@[simp] theorem putLoop_takeover : (s.putLoop n v).takeover = s.takeover := rfl
@[simp] theorem putLoop_locks : (s.putLoop n v).locks = s.locks := rfl
@[simp] theorem putLoop_waits : (s.putLoop n v).waits = s.waits := rfl
@[simp] theorem putLoop_arbs : (s.putLoop n v).arbs = s.arbs := rfl
@[simp] theorem putLoop_scrub : (s.putLoop n v).scrub = s.scrub := rfl
@[simp] theorem putLoop_bistTb : (s.putLoop n v).bistTb = s.bistTb := rfl
@[simp] theorem putLoop_bistJob : (s.putLoop n v).bistJob = s.bistJob := rfl
@[simp] theorem putLoop_dmas : (s.putLoop n v).dmas = s.dmas := rfl
@[simp] theorem putLoop_queues : (s.putLoop n v).queues = s.queues := rfl
@[simp] theorem putLoop_perc : (s.putLoop n v).perc = s.perc := rfl
@[simp] theorem putLoop_update : (s.putLoop n v).update = s.update := rfl
@[simp] theorem putLoop_fuses : (s.putLoop n v).fuses = s.fuses := rfl
@[simp] theorem putLoop_ring : (s.putLoop n v).ring = s.ring := rfl
@[simp] theorem putLoop_power : (s.putLoop n v).power = s.power := rfl
@[simp] theorem putLoop_ports : (s.putLoop n v).ports = s.ports := rfl
@[simp] theorem putLoop_draws : (s.putLoop n v).draws = s.draws := rfl
@[simp] theorem putLoop_rd (b : Nat) : (s.putLoop n v).rd b = s.rd b := rfl
@[simp] theorem putLoop_rdn (b : Nat) : (s.putLoop n v).rdn b = s.rdn b := rfl
@[simp] theorem putLoop_get (g : Fld) : (s.putLoop n v).get g = s.get g := rfl
@[simp] theorem putLoop_geti (g : Fld) : (s.putLoop n v).geti g = s.geti g := rfl
@[simp] theorem putLoop_flag (g : Fld) : (s.putLoop n v).flag g = s.flag g := rfl
@[simp] theorem putLoop_byte (b : Nat) : (s.putLoop n v).byte b = s.byte b := rfl
@[simp] theorem putLoop_inp_of (m : Nat) : (s.putLoop n v).inp m = s.inp m := rfl
@[simp] theorem putLoop_trk_of (m : Nat) : (s.putLoop n v).trk m = s.trk m := rfl
@[simp] theorem putLoop_occ_of (m : Nat) : (s.putLoop n v).occ m = s.occ m := rfl
@[simp] theorem putLoop_unit_of (m : Nat) : (s.putLoop n v).unit m = s.unit m := rfl
@[simp] theorem putLoop_esq_of (m : Nat) : (s.putLoop n v).esq m = s.esq m := rfl
@[simp] theorem putLoop_cse_of (m : Nat) : (s.putLoop n v).cse m = s.cse m := rfl
@[simp] theorem putLoop_gpt_of (m : Nat) : (s.putLoop n v).gpt m = s.gpt m := rfl
@[simp] theorem putLoop_cmp_of (m : Nat) : (s.putLoop n v).cmp m = s.cmp m := rfl
@[simp] theorem putLoop_core_of (m : Nat) : (s.putLoop n v).core m = s.core m := rfl
@[simp] theorem putLoop_pair_of (m : Nat) : (s.putLoop n v).pair m = s.pair m := rfl
@[simp] theorem putLoop_lock_of (m : Nat) : (s.putLoop n v).lock m = s.lock m := rfl
@[simp] theorem putLoop_wait_of (m : Nat) : (s.putLoop n v).wait m = s.wait m := rfl
@[simp] theorem putLoop_arb_of (m : Nat) : (s.putLoop n v).arb m = s.arb m := rfl
@[simp] theorem putLoop_dma_of (m : Nat) : (s.putLoop n v).dma m = s.dma m := rfl
@[simp] theorem putLoop_queue_of (m : Nat) : (s.putLoop n v).queue m = s.queue m := rfl
@[simp] theorem putLoop_now : (s.putLoop n v).now = s.now := rfl
end

/-! ### `State.putCse` -/

section
variable (s : State) (n : Nat) (v : Cse)
@[simp] theorem putCse_pending : (s.putCse n v).pending = s.pending := rfl
@[simp] theorem putCse_tb : (s.putCse n v).tb = s.tb := rfl
@[simp] theorem putCse_clock : (s.putCse n v).clock = s.clock := rfl
@[simp] theorem putCse_regs : (s.putCse n v).regs = s.regs := rfl
@[simp] theorem putCse_mem : (s.putCse n v).mem = s.mem := rfl
@[simp] theorem putCse_ecc : (s.putCse n v).ecc = s.ecc := rfl
@[simp] theorem putCse_soft : (s.putCse n v).soft = s.soft := rfl
@[simp] theorem putCse_hold : (s.putCse n v).hold = s.hold := rfl
@[simp] theorem putCse_resp : (s.putCse n v).resp = s.resp := rfl
@[simp] theorem putCse_inputs : (s.putCse n v).inputs = s.inputs := rfl
@[simp] theorem putCse_trackers : (s.putCse n v).trackers = s.trackers := rfl
@[simp] theorem putCse_occs : (s.putCse n v).occs = s.occs := rfl
@[simp] theorem putCse_units : (s.putCse n v).units = s.units := rfl
@[simp] theorem putCse_switched : (s.putCse n v).switched = s.switched := rfl
@[simp] theorem putCse_held : (s.putCse n v).held = s.held := rfl
@[simp] theorem putCse_bankCyl : (s.putCse n v).bankCyl = s.bankCyl := rfl
@[simp] theorem putCse_bankJob : (s.putCse n v).bankJob = s.bankJob := rfl
@[simp] theorem putCse_copyTb : (s.putCse n v).copyTb = s.copyTb := rfl
@[simp] theorem putCse_copySrc : (s.putCse n v).copySrc = s.copySrc := rfl
@[simp] theorem putCse_published : (s.putCse n v).published = s.published := rfl
@[simp] theorem putCse_copyJob : (s.putCse n v).copyJob = s.copyJob := rfl
@[simp] theorem putCse_esqs : (s.putCse n v).esqs = s.esqs := rfl
@[simp] theorem putCse_loops : (s.putCse n v).loops = s.loops := rfl
@[simp] theorem putCse_padc : (s.putCse n v).padc = s.padc := rfl
@[simp] theorem putCse_cae : (s.putCse n v).cae = s.cae := rfl
@[simp] theorem putCse_gpts : (s.putCse n v).gpts = s.gpts := rfl
@[simp] theorem putCse_hadc : (s.putCse n v).hadc = s.hadc := rfl
@[simp] theorem putCse_cmps : (s.putCse n v).cmps = s.cmps := rfl
@[simp] theorem putCse_gnorum : (s.putCse n v).gnorum = s.gnorum := rfl
@[simp] theorem putCse_cores : (s.putCse n v).cores = s.cores := rfl
@[simp] theorem putCse_moved : (s.putCse n v).moved = s.moved := rfl
@[simp] theorem putCse_pairs : (s.putCse n v).pairs = s.pairs := rfl
@[simp] theorem putCse_takeover : (s.putCse n v).takeover = s.takeover := rfl
@[simp] theorem putCse_locks : (s.putCse n v).locks = s.locks := rfl
@[simp] theorem putCse_waits : (s.putCse n v).waits = s.waits := rfl
@[simp] theorem putCse_arbs : (s.putCse n v).arbs = s.arbs := rfl
@[simp] theorem putCse_scrub : (s.putCse n v).scrub = s.scrub := rfl
@[simp] theorem putCse_bistTb : (s.putCse n v).bistTb = s.bistTb := rfl
@[simp] theorem putCse_bistJob : (s.putCse n v).bistJob = s.bistJob := rfl
@[simp] theorem putCse_dmas : (s.putCse n v).dmas = s.dmas := rfl
@[simp] theorem putCse_queues : (s.putCse n v).queues = s.queues := rfl
@[simp] theorem putCse_perc : (s.putCse n v).perc = s.perc := rfl
@[simp] theorem putCse_update : (s.putCse n v).update = s.update := rfl
@[simp] theorem putCse_fuses : (s.putCse n v).fuses = s.fuses := rfl
@[simp] theorem putCse_ring : (s.putCse n v).ring = s.ring := rfl
@[simp] theorem putCse_power : (s.putCse n v).power = s.power := rfl
@[simp] theorem putCse_ports : (s.putCse n v).ports = s.ports := rfl
@[simp] theorem putCse_draws : (s.putCse n v).draws = s.draws := rfl
@[simp] theorem putCse_rd (b : Nat) : (s.putCse n v).rd b = s.rd b := rfl
@[simp] theorem putCse_rdn (b : Nat) : (s.putCse n v).rdn b = s.rdn b := rfl
@[simp] theorem putCse_get (g : Fld) : (s.putCse n v).get g = s.get g := rfl
@[simp] theorem putCse_geti (g : Fld) : (s.putCse n v).geti g = s.geti g := rfl
@[simp] theorem putCse_flag (g : Fld) : (s.putCse n v).flag g = s.flag g := rfl
@[simp] theorem putCse_byte (b : Nat) : (s.putCse n v).byte b = s.byte b := rfl
@[simp] theorem putCse_inp_of (m : Nat) : (s.putCse n v).inp m = s.inp m := rfl
@[simp] theorem putCse_trk_of (m : Nat) : (s.putCse n v).trk m = s.trk m := rfl
@[simp] theorem putCse_occ_of (m : Nat) : (s.putCse n v).occ m = s.occ m := rfl
@[simp] theorem putCse_unit_of (m : Nat) : (s.putCse n v).unit m = s.unit m := rfl
@[simp] theorem putCse_esq_of (m : Nat) : (s.putCse n v).esq m = s.esq m := rfl
@[simp] theorem putCse_loop_of (m : Nat) : (s.putCse n v).loop m = s.loop m := rfl
@[simp] theorem putCse_gpt_of (m : Nat) : (s.putCse n v).gpt m = s.gpt m := rfl
@[simp] theorem putCse_cmp_of (m : Nat) : (s.putCse n v).cmp m = s.cmp m := rfl
@[simp] theorem putCse_core_of (m : Nat) : (s.putCse n v).core m = s.core m := rfl
@[simp] theorem putCse_pair_of (m : Nat) : (s.putCse n v).pair m = s.pair m := rfl
@[simp] theorem putCse_lock_of (m : Nat) : (s.putCse n v).lock m = s.lock m := rfl
@[simp] theorem putCse_wait_of (m : Nat) : (s.putCse n v).wait m = s.wait m := rfl
@[simp] theorem putCse_arb_of (m : Nat) : (s.putCse n v).arb m = s.arb m := rfl
@[simp] theorem putCse_dma_of (m : Nat) : (s.putCse n v).dma m = s.dma m := rfl
@[simp] theorem putCse_queue_of (m : Nat) : (s.putCse n v).queue m = s.queue m := rfl
@[simp] theorem putCse_now : (s.putCse n v).now = s.now := rfl
end

/-! ### `State.putGpt` -/

section
variable (s : State) (n : Nat) (v : Gpt)
@[simp] theorem putGpt_pending : (s.putGpt n v).pending = s.pending := rfl
@[simp] theorem putGpt_tb : (s.putGpt n v).tb = s.tb := rfl
@[simp] theorem putGpt_clock : (s.putGpt n v).clock = s.clock := rfl
@[simp] theorem putGpt_regs : (s.putGpt n v).regs = s.regs := rfl
@[simp] theorem putGpt_mem : (s.putGpt n v).mem = s.mem := rfl
@[simp] theorem putGpt_ecc : (s.putGpt n v).ecc = s.ecc := rfl
@[simp] theorem putGpt_soft : (s.putGpt n v).soft = s.soft := rfl
@[simp] theorem putGpt_hold : (s.putGpt n v).hold = s.hold := rfl
@[simp] theorem putGpt_resp : (s.putGpt n v).resp = s.resp := rfl
@[simp] theorem putGpt_inputs : (s.putGpt n v).inputs = s.inputs := rfl
@[simp] theorem putGpt_trackers : (s.putGpt n v).trackers = s.trackers := rfl
@[simp] theorem putGpt_occs : (s.putGpt n v).occs = s.occs := rfl
@[simp] theorem putGpt_units : (s.putGpt n v).units = s.units := rfl
@[simp] theorem putGpt_switched : (s.putGpt n v).switched = s.switched := rfl
@[simp] theorem putGpt_held : (s.putGpt n v).held = s.held := rfl
@[simp] theorem putGpt_bankCyl : (s.putGpt n v).bankCyl = s.bankCyl := rfl
@[simp] theorem putGpt_bankJob : (s.putGpt n v).bankJob = s.bankJob := rfl
@[simp] theorem putGpt_copyTb : (s.putGpt n v).copyTb = s.copyTb := rfl
@[simp] theorem putGpt_copySrc : (s.putGpt n v).copySrc = s.copySrc := rfl
@[simp] theorem putGpt_published : (s.putGpt n v).published = s.published := rfl
@[simp] theorem putGpt_copyJob : (s.putGpt n v).copyJob = s.copyJob := rfl
@[simp] theorem putGpt_esqs : (s.putGpt n v).esqs = s.esqs := rfl
@[simp] theorem putGpt_loops : (s.putGpt n v).loops = s.loops := rfl
@[simp] theorem putGpt_cses : (s.putGpt n v).cses = s.cses := rfl
@[simp] theorem putGpt_padc : (s.putGpt n v).padc = s.padc := rfl
@[simp] theorem putGpt_cae : (s.putGpt n v).cae = s.cae := rfl
@[simp] theorem putGpt_hadc : (s.putGpt n v).hadc = s.hadc := rfl
@[simp] theorem putGpt_cmps : (s.putGpt n v).cmps = s.cmps := rfl
@[simp] theorem putGpt_gnorum : (s.putGpt n v).gnorum = s.gnorum := rfl
@[simp] theorem putGpt_cores : (s.putGpt n v).cores = s.cores := rfl
@[simp] theorem putGpt_moved : (s.putGpt n v).moved = s.moved := rfl
@[simp] theorem putGpt_pairs : (s.putGpt n v).pairs = s.pairs := rfl
@[simp] theorem putGpt_takeover : (s.putGpt n v).takeover = s.takeover := rfl
@[simp] theorem putGpt_locks : (s.putGpt n v).locks = s.locks := rfl
@[simp] theorem putGpt_waits : (s.putGpt n v).waits = s.waits := rfl
@[simp] theorem putGpt_arbs : (s.putGpt n v).arbs = s.arbs := rfl
@[simp] theorem putGpt_scrub : (s.putGpt n v).scrub = s.scrub := rfl
@[simp] theorem putGpt_bistTb : (s.putGpt n v).bistTb = s.bistTb := rfl
@[simp] theorem putGpt_bistJob : (s.putGpt n v).bistJob = s.bistJob := rfl
@[simp] theorem putGpt_dmas : (s.putGpt n v).dmas = s.dmas := rfl
@[simp] theorem putGpt_queues : (s.putGpt n v).queues = s.queues := rfl
@[simp] theorem putGpt_perc : (s.putGpt n v).perc = s.perc := rfl
@[simp] theorem putGpt_update : (s.putGpt n v).update = s.update := rfl
@[simp] theorem putGpt_fuses : (s.putGpt n v).fuses = s.fuses := rfl
@[simp] theorem putGpt_ring : (s.putGpt n v).ring = s.ring := rfl
@[simp] theorem putGpt_power : (s.putGpt n v).power = s.power := rfl
@[simp] theorem putGpt_ports : (s.putGpt n v).ports = s.ports := rfl
@[simp] theorem putGpt_draws : (s.putGpt n v).draws = s.draws := rfl
@[simp] theorem putGpt_rd (b : Nat) : (s.putGpt n v).rd b = s.rd b := rfl
@[simp] theorem putGpt_rdn (b : Nat) : (s.putGpt n v).rdn b = s.rdn b := rfl
@[simp] theorem putGpt_get (g : Fld) : (s.putGpt n v).get g = s.get g := rfl
@[simp] theorem putGpt_geti (g : Fld) : (s.putGpt n v).geti g = s.geti g := rfl
@[simp] theorem putGpt_flag (g : Fld) : (s.putGpt n v).flag g = s.flag g := rfl
@[simp] theorem putGpt_byte (b : Nat) : (s.putGpt n v).byte b = s.byte b := rfl
@[simp] theorem putGpt_inp_of (m : Nat) : (s.putGpt n v).inp m = s.inp m := rfl
@[simp] theorem putGpt_trk_of (m : Nat) : (s.putGpt n v).trk m = s.trk m := rfl
@[simp] theorem putGpt_occ_of (m : Nat) : (s.putGpt n v).occ m = s.occ m := rfl
@[simp] theorem putGpt_unit_of (m : Nat) : (s.putGpt n v).unit m = s.unit m := rfl
@[simp] theorem putGpt_esq_of (m : Nat) : (s.putGpt n v).esq m = s.esq m := rfl
@[simp] theorem putGpt_loop_of (m : Nat) : (s.putGpt n v).loop m = s.loop m := rfl
@[simp] theorem putGpt_cse_of (m : Nat) : (s.putGpt n v).cse m = s.cse m := rfl
@[simp] theorem putGpt_cmp_of (m : Nat) : (s.putGpt n v).cmp m = s.cmp m := rfl
@[simp] theorem putGpt_core_of (m : Nat) : (s.putGpt n v).core m = s.core m := rfl
@[simp] theorem putGpt_pair_of (m : Nat) : (s.putGpt n v).pair m = s.pair m := rfl
@[simp] theorem putGpt_lock_of (m : Nat) : (s.putGpt n v).lock m = s.lock m := rfl
@[simp] theorem putGpt_wait_of (m : Nat) : (s.putGpt n v).wait m = s.wait m := rfl
@[simp] theorem putGpt_arb_of (m : Nat) : (s.putGpt n v).arb m = s.arb m := rfl
@[simp] theorem putGpt_dma_of (m : Nat) : (s.putGpt n v).dma m = s.dma m := rfl
@[simp] theorem putGpt_queue_of (m : Nat) : (s.putGpt n v).queue m = s.queue m := rfl
@[simp] theorem putGpt_now : (s.putGpt n v).now = s.now := rfl
end

/-! ### `State.putCmp` -/

section
variable (s : State) (n : Nat) (v : Cmp)
@[simp] theorem putCmp_pending : (s.putCmp n v).pending = s.pending := rfl
@[simp] theorem putCmp_tb : (s.putCmp n v).tb = s.tb := rfl
@[simp] theorem putCmp_clock : (s.putCmp n v).clock = s.clock := rfl
@[simp] theorem putCmp_regs : (s.putCmp n v).regs = s.regs := rfl
@[simp] theorem putCmp_mem : (s.putCmp n v).mem = s.mem := rfl
@[simp] theorem putCmp_ecc : (s.putCmp n v).ecc = s.ecc := rfl
@[simp] theorem putCmp_soft : (s.putCmp n v).soft = s.soft := rfl
@[simp] theorem putCmp_hold : (s.putCmp n v).hold = s.hold := rfl
@[simp] theorem putCmp_resp : (s.putCmp n v).resp = s.resp := rfl
@[simp] theorem putCmp_inputs : (s.putCmp n v).inputs = s.inputs := rfl
@[simp] theorem putCmp_trackers : (s.putCmp n v).trackers = s.trackers := rfl
@[simp] theorem putCmp_occs : (s.putCmp n v).occs = s.occs := rfl
@[simp] theorem putCmp_units : (s.putCmp n v).units = s.units := rfl
@[simp] theorem putCmp_switched : (s.putCmp n v).switched = s.switched := rfl
@[simp] theorem putCmp_held : (s.putCmp n v).held = s.held := rfl
@[simp] theorem putCmp_bankCyl : (s.putCmp n v).bankCyl = s.bankCyl := rfl
@[simp] theorem putCmp_bankJob : (s.putCmp n v).bankJob = s.bankJob := rfl
@[simp] theorem putCmp_copyTb : (s.putCmp n v).copyTb = s.copyTb := rfl
@[simp] theorem putCmp_copySrc : (s.putCmp n v).copySrc = s.copySrc := rfl
@[simp] theorem putCmp_published : (s.putCmp n v).published = s.published := rfl
@[simp] theorem putCmp_copyJob : (s.putCmp n v).copyJob = s.copyJob := rfl
@[simp] theorem putCmp_esqs : (s.putCmp n v).esqs = s.esqs := rfl
@[simp] theorem putCmp_loops : (s.putCmp n v).loops = s.loops := rfl
@[simp] theorem putCmp_cses : (s.putCmp n v).cses = s.cses := rfl
@[simp] theorem putCmp_padc : (s.putCmp n v).padc = s.padc := rfl
@[simp] theorem putCmp_cae : (s.putCmp n v).cae = s.cae := rfl
@[simp] theorem putCmp_gpts : (s.putCmp n v).gpts = s.gpts := rfl
@[simp] theorem putCmp_hadc : (s.putCmp n v).hadc = s.hadc := rfl
@[simp] theorem putCmp_gnorum : (s.putCmp n v).gnorum = s.gnorum := rfl
@[simp] theorem putCmp_cores : (s.putCmp n v).cores = s.cores := rfl
@[simp] theorem putCmp_moved : (s.putCmp n v).moved = s.moved := rfl
@[simp] theorem putCmp_pairs : (s.putCmp n v).pairs = s.pairs := rfl
@[simp] theorem putCmp_takeover : (s.putCmp n v).takeover = s.takeover := rfl
@[simp] theorem putCmp_locks : (s.putCmp n v).locks = s.locks := rfl
@[simp] theorem putCmp_waits : (s.putCmp n v).waits = s.waits := rfl
@[simp] theorem putCmp_arbs : (s.putCmp n v).arbs = s.arbs := rfl
@[simp] theorem putCmp_scrub : (s.putCmp n v).scrub = s.scrub := rfl
@[simp] theorem putCmp_bistTb : (s.putCmp n v).bistTb = s.bistTb := rfl
@[simp] theorem putCmp_bistJob : (s.putCmp n v).bistJob = s.bistJob := rfl
@[simp] theorem putCmp_dmas : (s.putCmp n v).dmas = s.dmas := rfl
@[simp] theorem putCmp_queues : (s.putCmp n v).queues = s.queues := rfl
@[simp] theorem putCmp_perc : (s.putCmp n v).perc = s.perc := rfl
@[simp] theorem putCmp_update : (s.putCmp n v).update = s.update := rfl
@[simp] theorem putCmp_fuses : (s.putCmp n v).fuses = s.fuses := rfl
@[simp] theorem putCmp_ring : (s.putCmp n v).ring = s.ring := rfl
@[simp] theorem putCmp_power : (s.putCmp n v).power = s.power := rfl
@[simp] theorem putCmp_ports : (s.putCmp n v).ports = s.ports := rfl
@[simp] theorem putCmp_draws : (s.putCmp n v).draws = s.draws := rfl
@[simp] theorem putCmp_rd (b : Nat) : (s.putCmp n v).rd b = s.rd b := rfl
@[simp] theorem putCmp_rdn (b : Nat) : (s.putCmp n v).rdn b = s.rdn b := rfl
@[simp] theorem putCmp_get (g : Fld) : (s.putCmp n v).get g = s.get g := rfl
@[simp] theorem putCmp_geti (g : Fld) : (s.putCmp n v).geti g = s.geti g := rfl
@[simp] theorem putCmp_flag (g : Fld) : (s.putCmp n v).flag g = s.flag g := rfl
@[simp] theorem putCmp_byte (b : Nat) : (s.putCmp n v).byte b = s.byte b := rfl
@[simp] theorem putCmp_inp_of (m : Nat) : (s.putCmp n v).inp m = s.inp m := rfl
@[simp] theorem putCmp_trk_of (m : Nat) : (s.putCmp n v).trk m = s.trk m := rfl
@[simp] theorem putCmp_occ_of (m : Nat) : (s.putCmp n v).occ m = s.occ m := rfl
@[simp] theorem putCmp_unit_of (m : Nat) : (s.putCmp n v).unit m = s.unit m := rfl
@[simp] theorem putCmp_esq_of (m : Nat) : (s.putCmp n v).esq m = s.esq m := rfl
@[simp] theorem putCmp_loop_of (m : Nat) : (s.putCmp n v).loop m = s.loop m := rfl
@[simp] theorem putCmp_cse_of (m : Nat) : (s.putCmp n v).cse m = s.cse m := rfl
@[simp] theorem putCmp_gpt_of (m : Nat) : (s.putCmp n v).gpt m = s.gpt m := rfl
@[simp] theorem putCmp_core_of (m : Nat) : (s.putCmp n v).core m = s.core m := rfl
@[simp] theorem putCmp_pair_of (m : Nat) : (s.putCmp n v).pair m = s.pair m := rfl
@[simp] theorem putCmp_lock_of (m : Nat) : (s.putCmp n v).lock m = s.lock m := rfl
@[simp] theorem putCmp_wait_of (m : Nat) : (s.putCmp n v).wait m = s.wait m := rfl
@[simp] theorem putCmp_arb_of (m : Nat) : (s.putCmp n v).arb m = s.arb m := rfl
@[simp] theorem putCmp_dma_of (m : Nat) : (s.putCmp n v).dma m = s.dma m := rfl
@[simp] theorem putCmp_queue_of (m : Nat) : (s.putCmp n v).queue m = s.queue m := rfl
@[simp] theorem putCmp_now : (s.putCmp n v).now = s.now := rfl
end

/-! ### `State.putCore` -/

section
variable (s : State) (n : Nat) (v : Core)
@[simp] theorem putCore_pending : (s.putCore n v).pending = s.pending := rfl
@[simp] theorem putCore_tb : (s.putCore n v).tb = s.tb := rfl
@[simp] theorem putCore_clock : (s.putCore n v).clock = s.clock := rfl
@[simp] theorem putCore_regs : (s.putCore n v).regs = s.regs := rfl
@[simp] theorem putCore_mem : (s.putCore n v).mem = s.mem := rfl
@[simp] theorem putCore_ecc : (s.putCore n v).ecc = s.ecc := rfl
@[simp] theorem putCore_soft : (s.putCore n v).soft = s.soft := rfl
@[simp] theorem putCore_hold : (s.putCore n v).hold = s.hold := rfl
@[simp] theorem putCore_resp : (s.putCore n v).resp = s.resp := rfl
@[simp] theorem putCore_inputs : (s.putCore n v).inputs = s.inputs := rfl
@[simp] theorem putCore_trackers : (s.putCore n v).trackers = s.trackers := rfl
@[simp] theorem putCore_occs : (s.putCore n v).occs = s.occs := rfl
@[simp] theorem putCore_units : (s.putCore n v).units = s.units := rfl
@[simp] theorem putCore_switched : (s.putCore n v).switched = s.switched := rfl
@[simp] theorem putCore_held : (s.putCore n v).held = s.held := rfl
@[simp] theorem putCore_bankCyl : (s.putCore n v).bankCyl = s.bankCyl := rfl
@[simp] theorem putCore_bankJob : (s.putCore n v).bankJob = s.bankJob := rfl
@[simp] theorem putCore_copyTb : (s.putCore n v).copyTb = s.copyTb := rfl
@[simp] theorem putCore_copySrc : (s.putCore n v).copySrc = s.copySrc := rfl
@[simp] theorem putCore_published : (s.putCore n v).published = s.published := rfl
@[simp] theorem putCore_copyJob : (s.putCore n v).copyJob = s.copyJob := rfl
@[simp] theorem putCore_esqs : (s.putCore n v).esqs = s.esqs := rfl
@[simp] theorem putCore_loops : (s.putCore n v).loops = s.loops := rfl
@[simp] theorem putCore_cses : (s.putCore n v).cses = s.cses := rfl
@[simp] theorem putCore_padc : (s.putCore n v).padc = s.padc := rfl
@[simp] theorem putCore_cae : (s.putCore n v).cae = s.cae := rfl
@[simp] theorem putCore_gpts : (s.putCore n v).gpts = s.gpts := rfl
@[simp] theorem putCore_hadc : (s.putCore n v).hadc = s.hadc := rfl
@[simp] theorem putCore_cmps : (s.putCore n v).cmps = s.cmps := rfl
@[simp] theorem putCore_gnorum : (s.putCore n v).gnorum = s.gnorum := rfl
@[simp] theorem putCore_moved : (s.putCore n v).moved = s.moved := rfl
@[simp] theorem putCore_pairs : (s.putCore n v).pairs = s.pairs := rfl
@[simp] theorem putCore_takeover : (s.putCore n v).takeover = s.takeover := rfl
@[simp] theorem putCore_locks : (s.putCore n v).locks = s.locks := rfl
@[simp] theorem putCore_waits : (s.putCore n v).waits = s.waits := rfl
@[simp] theorem putCore_arbs : (s.putCore n v).arbs = s.arbs := rfl
@[simp] theorem putCore_scrub : (s.putCore n v).scrub = s.scrub := rfl
@[simp] theorem putCore_bistTb : (s.putCore n v).bistTb = s.bistTb := rfl
@[simp] theorem putCore_bistJob : (s.putCore n v).bistJob = s.bistJob := rfl
@[simp] theorem putCore_dmas : (s.putCore n v).dmas = s.dmas := rfl
@[simp] theorem putCore_queues : (s.putCore n v).queues = s.queues := rfl
@[simp] theorem putCore_perc : (s.putCore n v).perc = s.perc := rfl
@[simp] theorem putCore_update : (s.putCore n v).update = s.update := rfl
@[simp] theorem putCore_fuses : (s.putCore n v).fuses = s.fuses := rfl
@[simp] theorem putCore_ring : (s.putCore n v).ring = s.ring := rfl
@[simp] theorem putCore_power : (s.putCore n v).power = s.power := rfl
@[simp] theorem putCore_ports : (s.putCore n v).ports = s.ports := rfl
@[simp] theorem putCore_draws : (s.putCore n v).draws = s.draws := rfl
@[simp] theorem putCore_rd (b : Nat) : (s.putCore n v).rd b = s.rd b := rfl
@[simp] theorem putCore_rdn (b : Nat) : (s.putCore n v).rdn b = s.rdn b := rfl
@[simp] theorem putCore_get (g : Fld) : (s.putCore n v).get g = s.get g := rfl
@[simp] theorem putCore_geti (g : Fld) : (s.putCore n v).geti g = s.geti g := rfl
@[simp] theorem putCore_flag (g : Fld) : (s.putCore n v).flag g = s.flag g := rfl
@[simp] theorem putCore_byte (b : Nat) : (s.putCore n v).byte b = s.byte b := rfl
@[simp] theorem putCore_inp_of (m : Nat) : (s.putCore n v).inp m = s.inp m := rfl
@[simp] theorem putCore_trk_of (m : Nat) : (s.putCore n v).trk m = s.trk m := rfl
@[simp] theorem putCore_occ_of (m : Nat) : (s.putCore n v).occ m = s.occ m := rfl
@[simp] theorem putCore_unit_of (m : Nat) : (s.putCore n v).unit m = s.unit m := rfl
@[simp] theorem putCore_esq_of (m : Nat) : (s.putCore n v).esq m = s.esq m := rfl
@[simp] theorem putCore_loop_of (m : Nat) : (s.putCore n v).loop m = s.loop m := rfl
@[simp] theorem putCore_cse_of (m : Nat) : (s.putCore n v).cse m = s.cse m := rfl
@[simp] theorem putCore_gpt_of (m : Nat) : (s.putCore n v).gpt m = s.gpt m := rfl
@[simp] theorem putCore_cmp_of (m : Nat) : (s.putCore n v).cmp m = s.cmp m := rfl
@[simp] theorem putCore_pair_of (m : Nat) : (s.putCore n v).pair m = s.pair m := rfl
@[simp] theorem putCore_lock_of (m : Nat) : (s.putCore n v).lock m = s.lock m := rfl
@[simp] theorem putCore_wait_of (m : Nat) : (s.putCore n v).wait m = s.wait m := rfl
@[simp] theorem putCore_arb_of (m : Nat) : (s.putCore n v).arb m = s.arb m := rfl
@[simp] theorem putCore_dma_of (m : Nat) : (s.putCore n v).dma m = s.dma m := rfl
@[simp] theorem putCore_queue_of (m : Nat) : (s.putCore n v).queue m = s.queue m := rfl
@[simp] theorem putCore_now : (s.putCore n v).now = s.now := rfl
end

/-! ### `State.putPair` -/

section
variable (s : State) (n : Nat) (v : Pair)
@[simp] theorem putPair_pending : (s.putPair n v).pending = s.pending := rfl
@[simp] theorem putPair_tb : (s.putPair n v).tb = s.tb := rfl
@[simp] theorem putPair_clock : (s.putPair n v).clock = s.clock := rfl
@[simp] theorem putPair_regs : (s.putPair n v).regs = s.regs := rfl
@[simp] theorem putPair_mem : (s.putPair n v).mem = s.mem := rfl
@[simp] theorem putPair_ecc : (s.putPair n v).ecc = s.ecc := rfl
@[simp] theorem putPair_soft : (s.putPair n v).soft = s.soft := rfl
@[simp] theorem putPair_hold : (s.putPair n v).hold = s.hold := rfl
@[simp] theorem putPair_resp : (s.putPair n v).resp = s.resp := rfl
@[simp] theorem putPair_inputs : (s.putPair n v).inputs = s.inputs := rfl
@[simp] theorem putPair_trackers : (s.putPair n v).trackers = s.trackers := rfl
@[simp] theorem putPair_occs : (s.putPair n v).occs = s.occs := rfl
@[simp] theorem putPair_units : (s.putPair n v).units = s.units := rfl
@[simp] theorem putPair_switched : (s.putPair n v).switched = s.switched := rfl
@[simp] theorem putPair_held : (s.putPair n v).held = s.held := rfl
@[simp] theorem putPair_bankCyl : (s.putPair n v).bankCyl = s.bankCyl := rfl
@[simp] theorem putPair_bankJob : (s.putPair n v).bankJob = s.bankJob := rfl
@[simp] theorem putPair_copyTb : (s.putPair n v).copyTb = s.copyTb := rfl
@[simp] theorem putPair_copySrc : (s.putPair n v).copySrc = s.copySrc := rfl
@[simp] theorem putPair_published : (s.putPair n v).published = s.published := rfl
@[simp] theorem putPair_copyJob : (s.putPair n v).copyJob = s.copyJob := rfl
@[simp] theorem putPair_esqs : (s.putPair n v).esqs = s.esqs := rfl
@[simp] theorem putPair_loops : (s.putPair n v).loops = s.loops := rfl
@[simp] theorem putPair_cses : (s.putPair n v).cses = s.cses := rfl
@[simp] theorem putPair_padc : (s.putPair n v).padc = s.padc := rfl
@[simp] theorem putPair_cae : (s.putPair n v).cae = s.cae := rfl
@[simp] theorem putPair_gpts : (s.putPair n v).gpts = s.gpts := rfl
@[simp] theorem putPair_hadc : (s.putPair n v).hadc = s.hadc := rfl
@[simp] theorem putPair_cmps : (s.putPair n v).cmps = s.cmps := rfl
@[simp] theorem putPair_gnorum : (s.putPair n v).gnorum = s.gnorum := rfl
@[simp] theorem putPair_cores : (s.putPair n v).cores = s.cores := rfl
@[simp] theorem putPair_moved : (s.putPair n v).moved = s.moved := rfl
@[simp] theorem putPair_takeover : (s.putPair n v).takeover = s.takeover := rfl
@[simp] theorem putPair_locks : (s.putPair n v).locks = s.locks := rfl
@[simp] theorem putPair_waits : (s.putPair n v).waits = s.waits := rfl
@[simp] theorem putPair_arbs : (s.putPair n v).arbs = s.arbs := rfl
@[simp] theorem putPair_scrub : (s.putPair n v).scrub = s.scrub := rfl
@[simp] theorem putPair_bistTb : (s.putPair n v).bistTb = s.bistTb := rfl
@[simp] theorem putPair_bistJob : (s.putPair n v).bistJob = s.bistJob := rfl
@[simp] theorem putPair_dmas : (s.putPair n v).dmas = s.dmas := rfl
@[simp] theorem putPair_queues : (s.putPair n v).queues = s.queues := rfl
@[simp] theorem putPair_perc : (s.putPair n v).perc = s.perc := rfl
@[simp] theorem putPair_update : (s.putPair n v).update = s.update := rfl
@[simp] theorem putPair_fuses : (s.putPair n v).fuses = s.fuses := rfl
@[simp] theorem putPair_ring : (s.putPair n v).ring = s.ring := rfl
@[simp] theorem putPair_power : (s.putPair n v).power = s.power := rfl
@[simp] theorem putPair_ports : (s.putPair n v).ports = s.ports := rfl
@[simp] theorem putPair_draws : (s.putPair n v).draws = s.draws := rfl
@[simp] theorem putPair_rd (b : Nat) : (s.putPair n v).rd b = s.rd b := rfl
@[simp] theorem putPair_rdn (b : Nat) : (s.putPair n v).rdn b = s.rdn b := rfl
@[simp] theorem putPair_get (g : Fld) : (s.putPair n v).get g = s.get g := rfl
@[simp] theorem putPair_geti (g : Fld) : (s.putPair n v).geti g = s.geti g := rfl
@[simp] theorem putPair_flag (g : Fld) : (s.putPair n v).flag g = s.flag g := rfl
@[simp] theorem putPair_byte (b : Nat) : (s.putPair n v).byte b = s.byte b := rfl
@[simp] theorem putPair_inp_of (m : Nat) : (s.putPair n v).inp m = s.inp m := rfl
@[simp] theorem putPair_trk_of (m : Nat) : (s.putPair n v).trk m = s.trk m := rfl
@[simp] theorem putPair_occ_of (m : Nat) : (s.putPair n v).occ m = s.occ m := rfl
@[simp] theorem putPair_unit_of (m : Nat) : (s.putPair n v).unit m = s.unit m := rfl
@[simp] theorem putPair_esq_of (m : Nat) : (s.putPair n v).esq m = s.esq m := rfl
@[simp] theorem putPair_loop_of (m : Nat) : (s.putPair n v).loop m = s.loop m := rfl
@[simp] theorem putPair_cse_of (m : Nat) : (s.putPair n v).cse m = s.cse m := rfl
@[simp] theorem putPair_gpt_of (m : Nat) : (s.putPair n v).gpt m = s.gpt m := rfl
@[simp] theorem putPair_cmp_of (m : Nat) : (s.putPair n v).cmp m = s.cmp m := rfl
@[simp] theorem putPair_core_of (m : Nat) : (s.putPair n v).core m = s.core m := rfl
@[simp] theorem putPair_lock_of (m : Nat) : (s.putPair n v).lock m = s.lock m := rfl
@[simp] theorem putPair_wait_of (m : Nat) : (s.putPair n v).wait m = s.wait m := rfl
@[simp] theorem putPair_arb_of (m : Nat) : (s.putPair n v).arb m = s.arb m := rfl
@[simp] theorem putPair_dma_of (m : Nat) : (s.putPair n v).dma m = s.dma m := rfl
@[simp] theorem putPair_queue_of (m : Nat) : (s.putPair n v).queue m = s.queue m := rfl
@[simp] theorem putPair_now : (s.putPair n v).now = s.now := rfl
end

/-! ### `State.putLock` -/

section
variable (s : State) (n : Nat) (v : Lock)
@[simp] theorem putLock_pending : (s.putLock n v).pending = s.pending := rfl
@[simp] theorem putLock_tb : (s.putLock n v).tb = s.tb := rfl
@[simp] theorem putLock_clock : (s.putLock n v).clock = s.clock := rfl
@[simp] theorem putLock_regs : (s.putLock n v).regs = s.regs := rfl
@[simp] theorem putLock_mem : (s.putLock n v).mem = s.mem := rfl
@[simp] theorem putLock_ecc : (s.putLock n v).ecc = s.ecc := rfl
@[simp] theorem putLock_soft : (s.putLock n v).soft = s.soft := rfl
@[simp] theorem putLock_hold : (s.putLock n v).hold = s.hold := rfl
@[simp] theorem putLock_resp : (s.putLock n v).resp = s.resp := rfl
@[simp] theorem putLock_inputs : (s.putLock n v).inputs = s.inputs := rfl
@[simp] theorem putLock_trackers : (s.putLock n v).trackers = s.trackers := rfl
@[simp] theorem putLock_occs : (s.putLock n v).occs = s.occs := rfl
@[simp] theorem putLock_units : (s.putLock n v).units = s.units := rfl
@[simp] theorem putLock_switched : (s.putLock n v).switched = s.switched := rfl
@[simp] theorem putLock_held : (s.putLock n v).held = s.held := rfl
@[simp] theorem putLock_bankCyl : (s.putLock n v).bankCyl = s.bankCyl := rfl
@[simp] theorem putLock_bankJob : (s.putLock n v).bankJob = s.bankJob := rfl
@[simp] theorem putLock_copyTb : (s.putLock n v).copyTb = s.copyTb := rfl
@[simp] theorem putLock_copySrc : (s.putLock n v).copySrc = s.copySrc := rfl
@[simp] theorem putLock_published : (s.putLock n v).published = s.published := rfl
@[simp] theorem putLock_copyJob : (s.putLock n v).copyJob = s.copyJob := rfl
@[simp] theorem putLock_esqs : (s.putLock n v).esqs = s.esqs := rfl
@[simp] theorem putLock_loops : (s.putLock n v).loops = s.loops := rfl
@[simp] theorem putLock_cses : (s.putLock n v).cses = s.cses := rfl
@[simp] theorem putLock_padc : (s.putLock n v).padc = s.padc := rfl
@[simp] theorem putLock_cae : (s.putLock n v).cae = s.cae := rfl
@[simp] theorem putLock_gpts : (s.putLock n v).gpts = s.gpts := rfl
@[simp] theorem putLock_hadc : (s.putLock n v).hadc = s.hadc := rfl
@[simp] theorem putLock_cmps : (s.putLock n v).cmps = s.cmps := rfl
@[simp] theorem putLock_gnorum : (s.putLock n v).gnorum = s.gnorum := rfl
@[simp] theorem putLock_cores : (s.putLock n v).cores = s.cores := rfl
@[simp] theorem putLock_moved : (s.putLock n v).moved = s.moved := rfl
@[simp] theorem putLock_pairs : (s.putLock n v).pairs = s.pairs := rfl
@[simp] theorem putLock_takeover : (s.putLock n v).takeover = s.takeover := rfl
@[simp] theorem putLock_waits : (s.putLock n v).waits = s.waits := rfl
@[simp] theorem putLock_arbs : (s.putLock n v).arbs = s.arbs := rfl
@[simp] theorem putLock_scrub : (s.putLock n v).scrub = s.scrub := rfl
@[simp] theorem putLock_bistTb : (s.putLock n v).bistTb = s.bistTb := rfl
@[simp] theorem putLock_bistJob : (s.putLock n v).bistJob = s.bistJob := rfl
@[simp] theorem putLock_dmas : (s.putLock n v).dmas = s.dmas := rfl
@[simp] theorem putLock_queues : (s.putLock n v).queues = s.queues := rfl
@[simp] theorem putLock_perc : (s.putLock n v).perc = s.perc := rfl
@[simp] theorem putLock_update : (s.putLock n v).update = s.update := rfl
@[simp] theorem putLock_fuses : (s.putLock n v).fuses = s.fuses := rfl
@[simp] theorem putLock_ring : (s.putLock n v).ring = s.ring := rfl
@[simp] theorem putLock_power : (s.putLock n v).power = s.power := rfl
@[simp] theorem putLock_ports : (s.putLock n v).ports = s.ports := rfl
@[simp] theorem putLock_draws : (s.putLock n v).draws = s.draws := rfl
@[simp] theorem putLock_rd (b : Nat) : (s.putLock n v).rd b = s.rd b := rfl
@[simp] theorem putLock_rdn (b : Nat) : (s.putLock n v).rdn b = s.rdn b := rfl
@[simp] theorem putLock_get (g : Fld) : (s.putLock n v).get g = s.get g := rfl
@[simp] theorem putLock_geti (g : Fld) : (s.putLock n v).geti g = s.geti g := rfl
@[simp] theorem putLock_flag (g : Fld) : (s.putLock n v).flag g = s.flag g := rfl
@[simp] theorem putLock_byte (b : Nat) : (s.putLock n v).byte b = s.byte b := rfl
@[simp] theorem putLock_inp_of (m : Nat) : (s.putLock n v).inp m = s.inp m := rfl
@[simp] theorem putLock_trk_of (m : Nat) : (s.putLock n v).trk m = s.trk m := rfl
@[simp] theorem putLock_occ_of (m : Nat) : (s.putLock n v).occ m = s.occ m := rfl
@[simp] theorem putLock_unit_of (m : Nat) : (s.putLock n v).unit m = s.unit m := rfl
@[simp] theorem putLock_esq_of (m : Nat) : (s.putLock n v).esq m = s.esq m := rfl
@[simp] theorem putLock_loop_of (m : Nat) : (s.putLock n v).loop m = s.loop m := rfl
@[simp] theorem putLock_cse_of (m : Nat) : (s.putLock n v).cse m = s.cse m := rfl
@[simp] theorem putLock_gpt_of (m : Nat) : (s.putLock n v).gpt m = s.gpt m := rfl
@[simp] theorem putLock_cmp_of (m : Nat) : (s.putLock n v).cmp m = s.cmp m := rfl
@[simp] theorem putLock_core_of (m : Nat) : (s.putLock n v).core m = s.core m := rfl
@[simp] theorem putLock_pair_of (m : Nat) : (s.putLock n v).pair m = s.pair m := rfl
@[simp] theorem putLock_wait_of (m : Nat) : (s.putLock n v).wait m = s.wait m := rfl
@[simp] theorem putLock_arb_of (m : Nat) : (s.putLock n v).arb m = s.arb m := rfl
@[simp] theorem putLock_dma_of (m : Nat) : (s.putLock n v).dma m = s.dma m := rfl
@[simp] theorem putLock_queue_of (m : Nat) : (s.putLock n v).queue m = s.queue m := rfl
@[simp] theorem putLock_now : (s.putLock n v).now = s.now := rfl
end

/-! ### `State.putWait` -/

section
variable (s : State) (n : Nat) (v : Wait)
@[simp] theorem putWait_pending : (s.putWait n v).pending = s.pending := rfl
@[simp] theorem putWait_tb : (s.putWait n v).tb = s.tb := rfl
@[simp] theorem putWait_clock : (s.putWait n v).clock = s.clock := rfl
@[simp] theorem putWait_regs : (s.putWait n v).regs = s.regs := rfl
@[simp] theorem putWait_mem : (s.putWait n v).mem = s.mem := rfl
@[simp] theorem putWait_ecc : (s.putWait n v).ecc = s.ecc := rfl
@[simp] theorem putWait_soft : (s.putWait n v).soft = s.soft := rfl
@[simp] theorem putWait_hold : (s.putWait n v).hold = s.hold := rfl
@[simp] theorem putWait_resp : (s.putWait n v).resp = s.resp := rfl
@[simp] theorem putWait_inputs : (s.putWait n v).inputs = s.inputs := rfl
@[simp] theorem putWait_trackers : (s.putWait n v).trackers = s.trackers := rfl
@[simp] theorem putWait_occs : (s.putWait n v).occs = s.occs := rfl
@[simp] theorem putWait_units : (s.putWait n v).units = s.units := rfl
@[simp] theorem putWait_switched : (s.putWait n v).switched = s.switched := rfl
@[simp] theorem putWait_held : (s.putWait n v).held = s.held := rfl
@[simp] theorem putWait_bankCyl : (s.putWait n v).bankCyl = s.bankCyl := rfl
@[simp] theorem putWait_bankJob : (s.putWait n v).bankJob = s.bankJob := rfl
@[simp] theorem putWait_copyTb : (s.putWait n v).copyTb = s.copyTb := rfl
@[simp] theorem putWait_copySrc : (s.putWait n v).copySrc = s.copySrc := rfl
@[simp] theorem putWait_published : (s.putWait n v).published = s.published := rfl
@[simp] theorem putWait_copyJob : (s.putWait n v).copyJob = s.copyJob := rfl
@[simp] theorem putWait_esqs : (s.putWait n v).esqs = s.esqs := rfl
@[simp] theorem putWait_loops : (s.putWait n v).loops = s.loops := rfl
@[simp] theorem putWait_cses : (s.putWait n v).cses = s.cses := rfl
@[simp] theorem putWait_padc : (s.putWait n v).padc = s.padc := rfl
@[simp] theorem putWait_cae : (s.putWait n v).cae = s.cae := rfl
@[simp] theorem putWait_gpts : (s.putWait n v).gpts = s.gpts := rfl
@[simp] theorem putWait_hadc : (s.putWait n v).hadc = s.hadc := rfl
@[simp] theorem putWait_cmps : (s.putWait n v).cmps = s.cmps := rfl
@[simp] theorem putWait_gnorum : (s.putWait n v).gnorum = s.gnorum := rfl
@[simp] theorem putWait_cores : (s.putWait n v).cores = s.cores := rfl
@[simp] theorem putWait_moved : (s.putWait n v).moved = s.moved := rfl
@[simp] theorem putWait_pairs : (s.putWait n v).pairs = s.pairs := rfl
@[simp] theorem putWait_takeover : (s.putWait n v).takeover = s.takeover := rfl
@[simp] theorem putWait_locks : (s.putWait n v).locks = s.locks := rfl
@[simp] theorem putWait_arbs : (s.putWait n v).arbs = s.arbs := rfl
@[simp] theorem putWait_scrub : (s.putWait n v).scrub = s.scrub := rfl
@[simp] theorem putWait_bistTb : (s.putWait n v).bistTb = s.bistTb := rfl
@[simp] theorem putWait_bistJob : (s.putWait n v).bistJob = s.bistJob := rfl
@[simp] theorem putWait_dmas : (s.putWait n v).dmas = s.dmas := rfl
@[simp] theorem putWait_queues : (s.putWait n v).queues = s.queues := rfl
@[simp] theorem putWait_perc : (s.putWait n v).perc = s.perc := rfl
@[simp] theorem putWait_update : (s.putWait n v).update = s.update := rfl
@[simp] theorem putWait_fuses : (s.putWait n v).fuses = s.fuses := rfl
@[simp] theorem putWait_ring : (s.putWait n v).ring = s.ring := rfl
@[simp] theorem putWait_power : (s.putWait n v).power = s.power := rfl
@[simp] theorem putWait_ports : (s.putWait n v).ports = s.ports := rfl
@[simp] theorem putWait_draws : (s.putWait n v).draws = s.draws := rfl
@[simp] theorem putWait_rd (b : Nat) : (s.putWait n v).rd b = s.rd b := rfl
@[simp] theorem putWait_rdn (b : Nat) : (s.putWait n v).rdn b = s.rdn b := rfl
@[simp] theorem putWait_get (g : Fld) : (s.putWait n v).get g = s.get g := rfl
@[simp] theorem putWait_geti (g : Fld) : (s.putWait n v).geti g = s.geti g := rfl
@[simp] theorem putWait_flag (g : Fld) : (s.putWait n v).flag g = s.flag g := rfl
@[simp] theorem putWait_byte (b : Nat) : (s.putWait n v).byte b = s.byte b := rfl
@[simp] theorem putWait_inp_of (m : Nat) : (s.putWait n v).inp m = s.inp m := rfl
@[simp] theorem putWait_trk_of (m : Nat) : (s.putWait n v).trk m = s.trk m := rfl
@[simp] theorem putWait_occ_of (m : Nat) : (s.putWait n v).occ m = s.occ m := rfl
@[simp] theorem putWait_unit_of (m : Nat) : (s.putWait n v).unit m = s.unit m := rfl
@[simp] theorem putWait_esq_of (m : Nat) : (s.putWait n v).esq m = s.esq m := rfl
@[simp] theorem putWait_loop_of (m : Nat) : (s.putWait n v).loop m = s.loop m := rfl
@[simp] theorem putWait_cse_of (m : Nat) : (s.putWait n v).cse m = s.cse m := rfl
@[simp] theorem putWait_gpt_of (m : Nat) : (s.putWait n v).gpt m = s.gpt m := rfl
@[simp] theorem putWait_cmp_of (m : Nat) : (s.putWait n v).cmp m = s.cmp m := rfl
@[simp] theorem putWait_core_of (m : Nat) : (s.putWait n v).core m = s.core m := rfl
@[simp] theorem putWait_pair_of (m : Nat) : (s.putWait n v).pair m = s.pair m := rfl
@[simp] theorem putWait_lock_of (m : Nat) : (s.putWait n v).lock m = s.lock m := rfl
@[simp] theorem putWait_arb_of (m : Nat) : (s.putWait n v).arb m = s.arb m := rfl
@[simp] theorem putWait_dma_of (m : Nat) : (s.putWait n v).dma m = s.dma m := rfl
@[simp] theorem putWait_queue_of (m : Nat) : (s.putWait n v).queue m = s.queue m := rfl
@[simp] theorem putWait_now : (s.putWait n v).now = s.now := rfl
end

/-! ### `State.putArb` -/

section
variable (s : State) (n : Nat) (v : Arb)
@[simp] theorem putArb_pending : (s.putArb n v).pending = s.pending := rfl
@[simp] theorem putArb_tb : (s.putArb n v).tb = s.tb := rfl
@[simp] theorem putArb_clock : (s.putArb n v).clock = s.clock := rfl
@[simp] theorem putArb_regs : (s.putArb n v).regs = s.regs := rfl
@[simp] theorem putArb_mem : (s.putArb n v).mem = s.mem := rfl
@[simp] theorem putArb_ecc : (s.putArb n v).ecc = s.ecc := rfl
@[simp] theorem putArb_soft : (s.putArb n v).soft = s.soft := rfl
@[simp] theorem putArb_hold : (s.putArb n v).hold = s.hold := rfl
@[simp] theorem putArb_resp : (s.putArb n v).resp = s.resp := rfl
@[simp] theorem putArb_inputs : (s.putArb n v).inputs = s.inputs := rfl
@[simp] theorem putArb_trackers : (s.putArb n v).trackers = s.trackers := rfl
@[simp] theorem putArb_occs : (s.putArb n v).occs = s.occs := rfl
@[simp] theorem putArb_units : (s.putArb n v).units = s.units := rfl
@[simp] theorem putArb_switched : (s.putArb n v).switched = s.switched := rfl
@[simp] theorem putArb_held : (s.putArb n v).held = s.held := rfl
@[simp] theorem putArb_bankCyl : (s.putArb n v).bankCyl = s.bankCyl := rfl
@[simp] theorem putArb_bankJob : (s.putArb n v).bankJob = s.bankJob := rfl
@[simp] theorem putArb_copyTb : (s.putArb n v).copyTb = s.copyTb := rfl
@[simp] theorem putArb_copySrc : (s.putArb n v).copySrc = s.copySrc := rfl
@[simp] theorem putArb_published : (s.putArb n v).published = s.published := rfl
@[simp] theorem putArb_copyJob : (s.putArb n v).copyJob = s.copyJob := rfl
@[simp] theorem putArb_esqs : (s.putArb n v).esqs = s.esqs := rfl
@[simp] theorem putArb_loops : (s.putArb n v).loops = s.loops := rfl
@[simp] theorem putArb_cses : (s.putArb n v).cses = s.cses := rfl
@[simp] theorem putArb_padc : (s.putArb n v).padc = s.padc := rfl
@[simp] theorem putArb_cae : (s.putArb n v).cae = s.cae := rfl
@[simp] theorem putArb_gpts : (s.putArb n v).gpts = s.gpts := rfl
@[simp] theorem putArb_hadc : (s.putArb n v).hadc = s.hadc := rfl
@[simp] theorem putArb_cmps : (s.putArb n v).cmps = s.cmps := rfl
@[simp] theorem putArb_gnorum : (s.putArb n v).gnorum = s.gnorum := rfl
@[simp] theorem putArb_cores : (s.putArb n v).cores = s.cores := rfl
@[simp] theorem putArb_moved : (s.putArb n v).moved = s.moved := rfl
@[simp] theorem putArb_pairs : (s.putArb n v).pairs = s.pairs := rfl
@[simp] theorem putArb_takeover : (s.putArb n v).takeover = s.takeover := rfl
@[simp] theorem putArb_locks : (s.putArb n v).locks = s.locks := rfl
@[simp] theorem putArb_waits : (s.putArb n v).waits = s.waits := rfl
@[simp] theorem putArb_scrub : (s.putArb n v).scrub = s.scrub := rfl
@[simp] theorem putArb_bistTb : (s.putArb n v).bistTb = s.bistTb := rfl
@[simp] theorem putArb_bistJob : (s.putArb n v).bistJob = s.bistJob := rfl
@[simp] theorem putArb_dmas : (s.putArb n v).dmas = s.dmas := rfl
@[simp] theorem putArb_queues : (s.putArb n v).queues = s.queues := rfl
@[simp] theorem putArb_perc : (s.putArb n v).perc = s.perc := rfl
@[simp] theorem putArb_update : (s.putArb n v).update = s.update := rfl
@[simp] theorem putArb_fuses : (s.putArb n v).fuses = s.fuses := rfl
@[simp] theorem putArb_ring : (s.putArb n v).ring = s.ring := rfl
@[simp] theorem putArb_power : (s.putArb n v).power = s.power := rfl
@[simp] theorem putArb_ports : (s.putArb n v).ports = s.ports := rfl
@[simp] theorem putArb_draws : (s.putArb n v).draws = s.draws := rfl
@[simp] theorem putArb_rd (b : Nat) : (s.putArb n v).rd b = s.rd b := rfl
@[simp] theorem putArb_rdn (b : Nat) : (s.putArb n v).rdn b = s.rdn b := rfl
@[simp] theorem putArb_get (g : Fld) : (s.putArb n v).get g = s.get g := rfl
@[simp] theorem putArb_geti (g : Fld) : (s.putArb n v).geti g = s.geti g := rfl
@[simp] theorem putArb_flag (g : Fld) : (s.putArb n v).flag g = s.flag g := rfl
@[simp] theorem putArb_byte (b : Nat) : (s.putArb n v).byte b = s.byte b := rfl
@[simp] theorem putArb_inp_of (m : Nat) : (s.putArb n v).inp m = s.inp m := rfl
@[simp] theorem putArb_trk_of (m : Nat) : (s.putArb n v).trk m = s.trk m := rfl
@[simp] theorem putArb_occ_of (m : Nat) : (s.putArb n v).occ m = s.occ m := rfl
@[simp] theorem putArb_unit_of (m : Nat) : (s.putArb n v).unit m = s.unit m := rfl
@[simp] theorem putArb_esq_of (m : Nat) : (s.putArb n v).esq m = s.esq m := rfl
@[simp] theorem putArb_loop_of (m : Nat) : (s.putArb n v).loop m = s.loop m := rfl
@[simp] theorem putArb_cse_of (m : Nat) : (s.putArb n v).cse m = s.cse m := rfl
@[simp] theorem putArb_gpt_of (m : Nat) : (s.putArb n v).gpt m = s.gpt m := rfl
@[simp] theorem putArb_cmp_of (m : Nat) : (s.putArb n v).cmp m = s.cmp m := rfl
@[simp] theorem putArb_core_of (m : Nat) : (s.putArb n v).core m = s.core m := rfl
@[simp] theorem putArb_pair_of (m : Nat) : (s.putArb n v).pair m = s.pair m := rfl
@[simp] theorem putArb_lock_of (m : Nat) : (s.putArb n v).lock m = s.lock m := rfl
@[simp] theorem putArb_wait_of (m : Nat) : (s.putArb n v).wait m = s.wait m := rfl
@[simp] theorem putArb_dma_of (m : Nat) : (s.putArb n v).dma m = s.dma m := rfl
@[simp] theorem putArb_queue_of (m : Nat) : (s.putArb n v).queue m = s.queue m := rfl
@[simp] theorem putArb_now : (s.putArb n v).now = s.now := rfl
end

/-! ### `State.putDma` -/

section
variable (s : State) (n : Nat) (v : Dma)
@[simp] theorem putDma_pending : (s.putDma n v).pending = s.pending := rfl
@[simp] theorem putDma_tb : (s.putDma n v).tb = s.tb := rfl
@[simp] theorem putDma_clock : (s.putDma n v).clock = s.clock := rfl
@[simp] theorem putDma_regs : (s.putDma n v).regs = s.regs := rfl
@[simp] theorem putDma_mem : (s.putDma n v).mem = s.mem := rfl
@[simp] theorem putDma_ecc : (s.putDma n v).ecc = s.ecc := rfl
@[simp] theorem putDma_soft : (s.putDma n v).soft = s.soft := rfl
@[simp] theorem putDma_hold : (s.putDma n v).hold = s.hold := rfl
@[simp] theorem putDma_resp : (s.putDma n v).resp = s.resp := rfl
@[simp] theorem putDma_inputs : (s.putDma n v).inputs = s.inputs := rfl
@[simp] theorem putDma_trackers : (s.putDma n v).trackers = s.trackers := rfl
@[simp] theorem putDma_occs : (s.putDma n v).occs = s.occs := rfl
@[simp] theorem putDma_units : (s.putDma n v).units = s.units := rfl
@[simp] theorem putDma_switched : (s.putDma n v).switched = s.switched := rfl
@[simp] theorem putDma_held : (s.putDma n v).held = s.held := rfl
@[simp] theorem putDma_bankCyl : (s.putDma n v).bankCyl = s.bankCyl := rfl
@[simp] theorem putDma_bankJob : (s.putDma n v).bankJob = s.bankJob := rfl
@[simp] theorem putDma_copyTb : (s.putDma n v).copyTb = s.copyTb := rfl
@[simp] theorem putDma_copySrc : (s.putDma n v).copySrc = s.copySrc := rfl
@[simp] theorem putDma_published : (s.putDma n v).published = s.published := rfl
@[simp] theorem putDma_copyJob : (s.putDma n v).copyJob = s.copyJob := rfl
@[simp] theorem putDma_esqs : (s.putDma n v).esqs = s.esqs := rfl
@[simp] theorem putDma_loops : (s.putDma n v).loops = s.loops := rfl
@[simp] theorem putDma_cses : (s.putDma n v).cses = s.cses := rfl
@[simp] theorem putDma_padc : (s.putDma n v).padc = s.padc := rfl
@[simp] theorem putDma_cae : (s.putDma n v).cae = s.cae := rfl
@[simp] theorem putDma_gpts : (s.putDma n v).gpts = s.gpts := rfl
@[simp] theorem putDma_hadc : (s.putDma n v).hadc = s.hadc := rfl
@[simp] theorem putDma_cmps : (s.putDma n v).cmps = s.cmps := rfl
@[simp] theorem putDma_gnorum : (s.putDma n v).gnorum = s.gnorum := rfl
@[simp] theorem putDma_cores : (s.putDma n v).cores = s.cores := rfl
@[simp] theorem putDma_moved : (s.putDma n v).moved = s.moved := rfl
@[simp] theorem putDma_pairs : (s.putDma n v).pairs = s.pairs := rfl
@[simp] theorem putDma_takeover : (s.putDma n v).takeover = s.takeover := rfl
@[simp] theorem putDma_locks : (s.putDma n v).locks = s.locks := rfl
@[simp] theorem putDma_waits : (s.putDma n v).waits = s.waits := rfl
@[simp] theorem putDma_arbs : (s.putDma n v).arbs = s.arbs := rfl
@[simp] theorem putDma_scrub : (s.putDma n v).scrub = s.scrub := rfl
@[simp] theorem putDma_bistTb : (s.putDma n v).bistTb = s.bistTb := rfl
@[simp] theorem putDma_bistJob : (s.putDma n v).bistJob = s.bistJob := rfl
@[simp] theorem putDma_queues : (s.putDma n v).queues = s.queues := rfl
@[simp] theorem putDma_perc : (s.putDma n v).perc = s.perc := rfl
@[simp] theorem putDma_update : (s.putDma n v).update = s.update := rfl
@[simp] theorem putDma_fuses : (s.putDma n v).fuses = s.fuses := rfl
@[simp] theorem putDma_ring : (s.putDma n v).ring = s.ring := rfl
@[simp] theorem putDma_power : (s.putDma n v).power = s.power := rfl
@[simp] theorem putDma_ports : (s.putDma n v).ports = s.ports := rfl
@[simp] theorem putDma_draws : (s.putDma n v).draws = s.draws := rfl
@[simp] theorem putDma_rd (b : Nat) : (s.putDma n v).rd b = s.rd b := rfl
@[simp] theorem putDma_rdn (b : Nat) : (s.putDma n v).rdn b = s.rdn b := rfl
@[simp] theorem putDma_get (g : Fld) : (s.putDma n v).get g = s.get g := rfl
@[simp] theorem putDma_geti (g : Fld) : (s.putDma n v).geti g = s.geti g := rfl
@[simp] theorem putDma_flag (g : Fld) : (s.putDma n v).flag g = s.flag g := rfl
@[simp] theorem putDma_byte (b : Nat) : (s.putDma n v).byte b = s.byte b := rfl
@[simp] theorem putDma_inp_of (m : Nat) : (s.putDma n v).inp m = s.inp m := rfl
@[simp] theorem putDma_trk_of (m : Nat) : (s.putDma n v).trk m = s.trk m := rfl
@[simp] theorem putDma_occ_of (m : Nat) : (s.putDma n v).occ m = s.occ m := rfl
@[simp] theorem putDma_unit_of (m : Nat) : (s.putDma n v).unit m = s.unit m := rfl
@[simp] theorem putDma_esq_of (m : Nat) : (s.putDma n v).esq m = s.esq m := rfl
@[simp] theorem putDma_loop_of (m : Nat) : (s.putDma n v).loop m = s.loop m := rfl
@[simp] theorem putDma_cse_of (m : Nat) : (s.putDma n v).cse m = s.cse m := rfl
@[simp] theorem putDma_gpt_of (m : Nat) : (s.putDma n v).gpt m = s.gpt m := rfl
@[simp] theorem putDma_cmp_of (m : Nat) : (s.putDma n v).cmp m = s.cmp m := rfl
@[simp] theorem putDma_core_of (m : Nat) : (s.putDma n v).core m = s.core m := rfl
@[simp] theorem putDma_pair_of (m : Nat) : (s.putDma n v).pair m = s.pair m := rfl
@[simp] theorem putDma_lock_of (m : Nat) : (s.putDma n v).lock m = s.lock m := rfl
@[simp] theorem putDma_wait_of (m : Nat) : (s.putDma n v).wait m = s.wait m := rfl
@[simp] theorem putDma_arb_of (m : Nat) : (s.putDma n v).arb m = s.arb m := rfl
@[simp] theorem putDma_queue_of (m : Nat) : (s.putDma n v).queue m = s.queue m := rfl
@[simp] theorem putDma_now : (s.putDma n v).now = s.now := rfl
end

/-! ### `State.putQueue` -/

section
variable (s : State) (n : Nat) (v : Queue)
@[simp] theorem putQueue_pending : (s.putQueue n v).pending = s.pending := rfl
@[simp] theorem putQueue_tb : (s.putQueue n v).tb = s.tb := rfl
@[simp] theorem putQueue_clock : (s.putQueue n v).clock = s.clock := rfl
@[simp] theorem putQueue_regs : (s.putQueue n v).regs = s.regs := rfl
@[simp] theorem putQueue_mem : (s.putQueue n v).mem = s.mem := rfl
@[simp] theorem putQueue_ecc : (s.putQueue n v).ecc = s.ecc := rfl
@[simp] theorem putQueue_soft : (s.putQueue n v).soft = s.soft := rfl
@[simp] theorem putQueue_hold : (s.putQueue n v).hold = s.hold := rfl
@[simp] theorem putQueue_resp : (s.putQueue n v).resp = s.resp := rfl
@[simp] theorem putQueue_inputs : (s.putQueue n v).inputs = s.inputs := rfl
@[simp] theorem putQueue_trackers : (s.putQueue n v).trackers = s.trackers := rfl
@[simp] theorem putQueue_occs : (s.putQueue n v).occs = s.occs := rfl
@[simp] theorem putQueue_units : (s.putQueue n v).units = s.units := rfl
@[simp] theorem putQueue_switched : (s.putQueue n v).switched = s.switched := rfl
@[simp] theorem putQueue_held : (s.putQueue n v).held = s.held := rfl
@[simp] theorem putQueue_bankCyl : (s.putQueue n v).bankCyl = s.bankCyl := rfl
@[simp] theorem putQueue_bankJob : (s.putQueue n v).bankJob = s.bankJob := rfl
@[simp] theorem putQueue_copyTb : (s.putQueue n v).copyTb = s.copyTb := rfl
@[simp] theorem putQueue_copySrc : (s.putQueue n v).copySrc = s.copySrc := rfl
@[simp] theorem putQueue_published : (s.putQueue n v).published = s.published := rfl
@[simp] theorem putQueue_copyJob : (s.putQueue n v).copyJob = s.copyJob := rfl
@[simp] theorem putQueue_esqs : (s.putQueue n v).esqs = s.esqs := rfl
@[simp] theorem putQueue_loops : (s.putQueue n v).loops = s.loops := rfl
@[simp] theorem putQueue_cses : (s.putQueue n v).cses = s.cses := rfl
@[simp] theorem putQueue_padc : (s.putQueue n v).padc = s.padc := rfl
@[simp] theorem putQueue_cae : (s.putQueue n v).cae = s.cae := rfl
@[simp] theorem putQueue_gpts : (s.putQueue n v).gpts = s.gpts := rfl
@[simp] theorem putQueue_hadc : (s.putQueue n v).hadc = s.hadc := rfl
@[simp] theorem putQueue_cmps : (s.putQueue n v).cmps = s.cmps := rfl
@[simp] theorem putQueue_gnorum : (s.putQueue n v).gnorum = s.gnorum := rfl
@[simp] theorem putQueue_cores : (s.putQueue n v).cores = s.cores := rfl
@[simp] theorem putQueue_moved : (s.putQueue n v).moved = s.moved := rfl
@[simp] theorem putQueue_pairs : (s.putQueue n v).pairs = s.pairs := rfl
@[simp] theorem putQueue_takeover : (s.putQueue n v).takeover = s.takeover := rfl
@[simp] theorem putQueue_locks : (s.putQueue n v).locks = s.locks := rfl
@[simp] theorem putQueue_waits : (s.putQueue n v).waits = s.waits := rfl
@[simp] theorem putQueue_arbs : (s.putQueue n v).arbs = s.arbs := rfl
@[simp] theorem putQueue_scrub : (s.putQueue n v).scrub = s.scrub := rfl
@[simp] theorem putQueue_bistTb : (s.putQueue n v).bistTb = s.bistTb := rfl
@[simp] theorem putQueue_bistJob : (s.putQueue n v).bistJob = s.bistJob := rfl
@[simp] theorem putQueue_dmas : (s.putQueue n v).dmas = s.dmas := rfl
@[simp] theorem putQueue_perc : (s.putQueue n v).perc = s.perc := rfl
@[simp] theorem putQueue_update : (s.putQueue n v).update = s.update := rfl
@[simp] theorem putQueue_fuses : (s.putQueue n v).fuses = s.fuses := rfl
@[simp] theorem putQueue_ring : (s.putQueue n v).ring = s.ring := rfl
@[simp] theorem putQueue_power : (s.putQueue n v).power = s.power := rfl
@[simp] theorem putQueue_ports : (s.putQueue n v).ports = s.ports := rfl
@[simp] theorem putQueue_draws : (s.putQueue n v).draws = s.draws := rfl
@[simp] theorem putQueue_rd (b : Nat) : (s.putQueue n v).rd b = s.rd b := rfl
@[simp] theorem putQueue_rdn (b : Nat) : (s.putQueue n v).rdn b = s.rdn b := rfl
@[simp] theorem putQueue_get (g : Fld) : (s.putQueue n v).get g = s.get g := rfl
@[simp] theorem putQueue_geti (g : Fld) : (s.putQueue n v).geti g = s.geti g := rfl
@[simp] theorem putQueue_flag (g : Fld) : (s.putQueue n v).flag g = s.flag g := rfl
@[simp] theorem putQueue_byte (b : Nat) : (s.putQueue n v).byte b = s.byte b := rfl
@[simp] theorem putQueue_inp_of (m : Nat) : (s.putQueue n v).inp m = s.inp m := rfl
@[simp] theorem putQueue_trk_of (m : Nat) : (s.putQueue n v).trk m = s.trk m := rfl
@[simp] theorem putQueue_occ_of (m : Nat) : (s.putQueue n v).occ m = s.occ m := rfl
@[simp] theorem putQueue_unit_of (m : Nat) : (s.putQueue n v).unit m = s.unit m := rfl
@[simp] theorem putQueue_esq_of (m : Nat) : (s.putQueue n v).esq m = s.esq m := rfl
@[simp] theorem putQueue_loop_of (m : Nat) : (s.putQueue n v).loop m = s.loop m := rfl
@[simp] theorem putQueue_cse_of (m : Nat) : (s.putQueue n v).cse m = s.cse m := rfl
@[simp] theorem putQueue_gpt_of (m : Nat) : (s.putQueue n v).gpt m = s.gpt m := rfl
@[simp] theorem putQueue_cmp_of (m : Nat) : (s.putQueue n v).cmp m = s.cmp m := rfl
@[simp] theorem putQueue_core_of (m : Nat) : (s.putQueue n v).core m = s.core m := rfl
@[simp] theorem putQueue_pair_of (m : Nat) : (s.putQueue n v).pair m = s.pair m := rfl
@[simp] theorem putQueue_lock_of (m : Nat) : (s.putQueue n v).lock m = s.lock m := rfl
@[simp] theorem putQueue_wait_of (m : Nat) : (s.putQueue n v).wait m = s.wait m := rfl
@[simp] theorem putQueue_arb_of (m : Nat) : (s.putQueue n v).arb m = s.arb m := rfl
@[simp] theorem putQueue_dma_of (m : Nat) : (s.putQueue n v).dma m = s.dma m := rfl
@[simp] theorem putQueue_now : (s.putQueue n v).now = s.now := rfl
end

/-! ### Reads of the table that was updated -/

@[simp] theorem inp_putInp_self (s : State) (n : Nat) (v : Input) : (s.putInp n v).inp n = v := findAt_putAt_self ..
theorem inp_putInp_ne (s : State) {n m : Nat} (v : Input) (h : m ≠ n) : (s.putInp n v).inp m = s.inp m := findAt_putAt_ne _ v _ h
@[simp] theorem trk_putTrk_self (s : State) (n : Nat) (v : Tracker) : (s.putTrk n v).trk n = v := findAt_putAt_self ..
theorem trk_putTrk_ne (s : State) {n m : Nat} (v : Tracker) (h : m ≠ n) : (s.putTrk n v).trk m = s.trk m := findAt_putAt_ne _ v _ h
@[simp] theorem occ_putOcc_self (s : State) (n : Nat) (v : Occ) : (s.putOcc n v).occ n = v := findAt_putAt_self ..
theorem occ_putOcc_ne (s : State) {n m : Nat} (v : Occ) (h : m ≠ n) : (s.putOcc n v).occ m = s.occ m := findAt_putAt_ne _ v _ h
@[simp] theorem unit_putUnit_self (s : State) (n : Nat) (v : OutUnit) : (s.putUnit n v).unit n = v := findAt_putAt_self ..
theorem unit_putUnit_ne (s : State) {n m : Nat} (v : OutUnit) (h : m ≠ n) : (s.putUnit n v).unit m = s.unit m := findAt_putAt_ne _ v _ h
@[simp] theorem esq_putEsq_self (s : State) (n : Nat) (v : Esq) : (s.putEsq n v).esq n = v := findAt_putAt_self ..
theorem esq_putEsq_ne (s : State) {n m : Nat} (v : Esq) (h : m ≠ n) : (s.putEsq n v).esq m = s.esq m := findAt_putAt_ne _ v _ h
@[simp] theorem loop_putLoop_self (s : State) (n : Nat) (v : Loop) : (s.putLoop n v).loop n = v := findAt_putAt_self ..
theorem loop_putLoop_ne (s : State) {n m : Nat} (v : Loop) (h : m ≠ n) : (s.putLoop n v).loop m = s.loop m := findAt_putAt_ne _ v _ h
@[simp] theorem cse_putCse_self (s : State) (n : Nat) (v : Cse) : (s.putCse n v).cse n = v := findAt_putAt_self ..
theorem cse_putCse_ne (s : State) {n m : Nat} (v : Cse) (h : m ≠ n) : (s.putCse n v).cse m = s.cse m := findAt_putAt_ne _ v _ h
@[simp] theorem gpt_putGpt_self (s : State) (n : Nat) (v : Gpt) : (s.putGpt n v).gpt n = v := findAt_putAt_self ..
theorem gpt_putGpt_ne (s : State) {n m : Nat} (v : Gpt) (h : m ≠ n) : (s.putGpt n v).gpt m = s.gpt m := findAt_putAt_ne _ v _ h
@[simp] theorem cmp_putCmp_self (s : State) (n : Nat) (v : Cmp) : (s.putCmp n v).cmp n = v := findAt_putAt_self ..
theorem cmp_putCmp_ne (s : State) {n m : Nat} (v : Cmp) (h : m ≠ n) : (s.putCmp n v).cmp m = s.cmp m := findAt_putAt_ne _ v _ h
@[simp] theorem core_putCore_self (s : State) (n : Nat) (v : Core) : (s.putCore n v).core n = v := findAt_putAt_self ..
theorem core_putCore_ne (s : State) {n m : Nat} (v : Core) (h : m ≠ n) : (s.putCore n v).core m = s.core m := findAt_putAt_ne _ v _ h
@[simp] theorem pair_putPair_self (s : State) (n : Nat) (v : Pair) : (s.putPair n v).pair n = v := findAt_putAt_self ..
theorem pair_putPair_ne (s : State) {n m : Nat} (v : Pair) (h : m ≠ n) : (s.putPair n v).pair m = s.pair m := findAt_putAt_ne _ v _ h
@[simp] theorem lock_putLock_self (s : State) (n : Nat) (v : Lock) : (s.putLock n v).lock n = v := findAt_putAt_self ..
theorem lock_putLock_ne (s : State) {n m : Nat} (v : Lock) (h : m ≠ n) : (s.putLock n v).lock m = s.lock m := findAt_putAt_ne _ v _ h
@[simp] theorem wait_putWait_self (s : State) (n : Nat) (v : Wait) : (s.putWait n v).wait n = v := findAt_putAt_self ..
theorem wait_putWait_ne (s : State) {n m : Nat} (v : Wait) (h : m ≠ n) : (s.putWait n v).wait m = s.wait m := findAt_putAt_ne _ v _ h
@[simp] theorem arb_putArb_self (s : State) (n : Nat) (v : Arb) : (s.putArb n v).arb n = v := findAt_putAt_self ..
theorem arb_putArb_ne (s : State) {n m : Nat} (v : Arb) (h : m ≠ n) : (s.putArb n v).arb m = s.arb m := findAt_putAt_ne _ v _ h
@[simp] theorem dma_putDma_self (s : State) (n : Nat) (v : Dma) : (s.putDma n v).dma n = v := findAt_putAt_self ..
theorem dma_putDma_ne (s : State) {n m : Nat} (v : Dma) (h : m ≠ n) : (s.putDma n v).dma m = s.dma m := findAt_putAt_ne _ v _ h
@[simp] theorem queue_putQueue_self (s : State) (n : Nat) (v : Queue) : (s.putQueue n v).queue n = v := findAt_putAt_self ..
theorem queue_putQueue_ne (s : State) {n m : Nat} (v : Queue) (h : m ≠ n) : (s.putQueue n v).queue m = s.queue m := findAt_putAt_ne _ v _ h

end Sys2Proof.Machine
end

