-- ==== Sys2Proof/Laws/Settle.lean ====
section
/-! SUPPORT. `State.settle`, with which every command ends, changes nothing but the pending words of the interrupt controller and the
list of the requests that stand on their fallback. -/

namespace Sys2Proof.Machine

theorem pendWord_eq (s : State) (w : Nat) : pendWord s w = s ∨ ∃ v, pendWord s w = s.wr (Reg.IRQC_PNDSET w) v := by
  cases h : (raisedBits s w == 0) with
  | true => exact .inl (by simp only [pendWord, h, cond_true])
  | false => exact .inr ⟨_, by simp only [pendWord, h, cond_false, State.wrn]; rfl⟩

theorem pendWord_rd (s : State) {w a : Nat} (h : a ≠ Reg.IRQC_PNDSET w) : (pendWord s w).rd a = s.rd a := by
  rcases pendWord_eq s w with e | ⟨v, e⟩
  · rw [e]
  · rw [e, rd_wr_ne _ _ h]

theorem pendWord_pending (s : State) (w : Nat) : (pendWord s w).pending = s.pending := by
  rcases pendWord_eq s w with e | ⟨v, e⟩ <;> rw [e]; rfl
theorem pendWord_tb (s : State) (w : Nat) : (pendWord s w).tb = s.tb := by
  rcases pendWord_eq s w with e | ⟨v, e⟩ <;> rw [e]; rfl
theorem pendWord_clock (s : State) (w : Nat) : (pendWord s w).clock = s.clock := by
  rcases pendWord_eq s w with e | ⟨v, e⟩ <;> rw [e]; rfl
theorem pendWord_mem (s : State) (w : Nat) : (pendWord s w).mem = s.mem := by
  rcases pendWord_eq s w with e | ⟨v, e⟩ <;> rw [e]; rfl
theorem pendWord_ecc (s : State) (w : Nat) : (pendWord s w).ecc = s.ecc := by
  rcases pendWord_eq s w with e | ⟨v, e⟩ <;> rw [e]; rfl
theorem pendWord_soft (s : State) (w : Nat) : (pendWord s w).soft = s.soft := by
  rcases pendWord_eq s w with e | ⟨v, e⟩ <;> rw [e]; rfl
theorem pendWord_hold (s : State) (w : Nat) : (pendWord s w).hold = s.hold := by
  rcases pendWord_eq s w with e | ⟨v, e⟩ <;> rw [e]; rfl
theorem pendWord_resp (s : State) (w : Nat) : (pendWord s w).resp = s.resp := by
  rcases pendWord_eq s w with e | ⟨v, e⟩ <;> rw [e]; rfl
theorem pendWord_inputs (s : State) (w : Nat) : (pendWord s w).inputs = s.inputs := by
  rcases pendWord_eq s w with e | ⟨v, e⟩ <;> rw [e]; rfl
theorem pendWord_trackers (s : State) (w : Nat) : (pendWord s w).trackers = s.trackers := by
  rcases pendWord_eq s w with e | ⟨v, e⟩ <;> rw [e]; rfl
theorem pendWord_occs (s : State) (w : Nat) : (pendWord s w).occs = s.occs := by
  rcases pendWord_eq s w with e | ⟨v, e⟩ <;> rw [e]; rfl
theorem pendWord_units (s : State) (w : Nat) : (pendWord s w).units = s.units := by
  rcases pendWord_eq s w with e | ⟨v, e⟩ <;> rw [e]; rfl
theorem pendWord_switched (s : State) (w : Nat) : (pendWord s w).switched = s.switched := by
  rcases pendWord_eq s w with e | ⟨v, e⟩ <;> rw [e]; rfl
theorem pendWord_held (s : State) (w : Nat) : (pendWord s w).held = s.held := by
  rcases pendWord_eq s w with e | ⟨v, e⟩ <;> rw [e]; rfl
theorem pendWord_bankCyl (s : State) (w : Nat) : (pendWord s w).bankCyl = s.bankCyl := by
  rcases pendWord_eq s w with e | ⟨v, e⟩ <;> rw [e]; rfl
theorem pendWord_bankJob (s : State) (w : Nat) : (pendWord s w).bankJob = s.bankJob := by
  rcases pendWord_eq s w with e | ⟨v, e⟩ <;> rw [e]; rfl
theorem pendWord_copyTb (s : State) (w : Nat) : (pendWord s w).copyTb = s.copyTb := by
  rcases pendWord_eq s w with e | ⟨v, e⟩ <;> rw [e]; rfl
theorem pendWord_copySrc (s : State) (w : Nat) : (pendWord s w).copySrc = s.copySrc := by
  rcases pendWord_eq s w with e | ⟨v, e⟩ <;> rw [e]; rfl
theorem pendWord_published (s : State) (w : Nat) : (pendWord s w).published = s.published := by
  rcases pendWord_eq s w with e | ⟨v, e⟩ <;> rw [e]; rfl
theorem pendWord_copyJob (s : State) (w : Nat) : (pendWord s w).copyJob = s.copyJob := by
  rcases pendWord_eq s w with e | ⟨v, e⟩ <;> rw [e]; rfl
theorem pendWord_esqs (s : State) (w : Nat) : (pendWord s w).esqs = s.esqs := by
  rcases pendWord_eq s w with e | ⟨v, e⟩ <;> rw [e]; rfl
theorem pendWord_loops (s : State) (w : Nat) : (pendWord s w).loops = s.loops := by
  rcases pendWord_eq s w with e | ⟨v, e⟩ <;> rw [e]; rfl
theorem pendWord_cses (s : State) (w : Nat) : (pendWord s w).cses = s.cses := by
  rcases pendWord_eq s w with e | ⟨v, e⟩ <;> rw [e]; rfl
theorem pendWord_padc (s : State) (w : Nat) : (pendWord s w).padc = s.padc := by
  rcases pendWord_eq s w with e | ⟨v, e⟩ <;> rw [e]; rfl
theorem pendWord_cae (s : State) (w : Nat) : (pendWord s w).cae = s.cae := by
  rcases pendWord_eq s w with e | ⟨v, e⟩ <;> rw [e]; rfl
theorem pendWord_gpts (s : State) (w : Nat) : (pendWord s w).gpts = s.gpts := by
  rcases pendWord_eq s w with e | ⟨v, e⟩ <;> rw [e]; rfl
theorem pendWord_hadc (s : State) (w : Nat) : (pendWord s w).hadc = s.hadc := by
  rcases pendWord_eq s w with e | ⟨v, e⟩ <;> rw [e]; rfl
theorem pendWord_cmps (s : State) (w : Nat) : (pendWord s w).cmps = s.cmps := by
  rcases pendWord_eq s w with e | ⟨v, e⟩ <;> rw [e]; rfl
theorem pendWord_gnorum (s : State) (w : Nat) : (pendWord s w).gnorum = s.gnorum := by
  rcases pendWord_eq s w with e | ⟨v, e⟩ <;> rw [e]; rfl
theorem pendWord_cores (s : State) (w : Nat) : (pendWord s w).cores = s.cores := by
  rcases pendWord_eq s w with e | ⟨v, e⟩ <;> rw [e]; rfl
theorem pendWord_pairs (s : State) (w : Nat) : (pendWord s w).pairs = s.pairs := by
  rcases pendWord_eq s w with e | ⟨v, e⟩ <;> rw [e]; rfl
theorem pendWord_takeover (s : State) (w : Nat) : (pendWord s w).takeover = s.takeover := by
  rcases pendWord_eq s w with e | ⟨v, e⟩ <;> rw [e]; rfl
theorem pendWord_locks (s : State) (w : Nat) : (pendWord s w).locks = s.locks := by
  rcases pendWord_eq s w with e | ⟨v, e⟩ <;> rw [e]; rfl
theorem pendWord_waits (s : State) (w : Nat) : (pendWord s w).waits = s.waits := by
  rcases pendWord_eq s w with e | ⟨v, e⟩ <;> rw [e]; rfl
theorem pendWord_arbs (s : State) (w : Nat) : (pendWord s w).arbs = s.arbs := by
  rcases pendWord_eq s w with e | ⟨v, e⟩ <;> rw [e]; rfl
theorem pendWord_scrub (s : State) (w : Nat) : (pendWord s w).scrub = s.scrub := by
  rcases pendWord_eq s w with e | ⟨v, e⟩ <;> rw [e]; rfl
theorem pendWord_bistTb (s : State) (w : Nat) : (pendWord s w).bistTb = s.bistTb := by
  rcases pendWord_eq s w with e | ⟨v, e⟩ <;> rw [e]; rfl
theorem pendWord_bistJob (s : State) (w : Nat) : (pendWord s w).bistJob = s.bistJob := by
  rcases pendWord_eq s w with e | ⟨v, e⟩ <;> rw [e]; rfl
theorem pendWord_dmas (s : State) (w : Nat) : (pendWord s w).dmas = s.dmas := by
  rcases pendWord_eq s w with e | ⟨v, e⟩ <;> rw [e]; rfl
theorem pendWord_queues (s : State) (w : Nat) : (pendWord s w).queues = s.queues := by
  rcases pendWord_eq s w with e | ⟨v, e⟩ <;> rw [e]; rfl
theorem pendWord_perc (s : State) (w : Nat) : (pendWord s w).perc = s.perc := by
  rcases pendWord_eq s w with e | ⟨v, e⟩ <;> rw [e]; rfl
theorem pendWord_update (s : State) (w : Nat) : (pendWord s w).update = s.update := by
  rcases pendWord_eq s w with e | ⟨v, e⟩ <;> rw [e]; rfl
theorem pendWord_fuses (s : State) (w : Nat) : (pendWord s w).fuses = s.fuses := by
  rcases pendWord_eq s w with e | ⟨v, e⟩ <;> rw [e]; rfl
theorem pendWord_ring (s : State) (w : Nat) : (pendWord s w).ring = s.ring := by
  rcases pendWord_eq s w with e | ⟨v, e⟩ <;> rw [e]; rfl
theorem pendWord_power (s : State) (w : Nat) : (pendWord s w).power = s.power := by
  rcases pendWord_eq s w with e | ⟨v, e⟩ <;> rw [e]; rfl
theorem pendWord_ports (s : State) (w : Nat) : (pendWord s w).ports = s.ports := by
  rcases pendWord_eq s w with e | ⟨v, e⟩ <;> rw [e]; rfl
theorem pendWord_draws (s : State) (w : Nat) : (pendWord s w).draws = s.draws := by
  rcases pendWord_eq s w with e | ⟨v, e⟩ <;> rw [e]; rfl

section
variable (s : State)

theorem notPending_ne {a w : Nat} (h : notPending a = true) (hw : w < 8) : a ≠ Reg.IRQC_PNDSET w := by
  simp only [notPending, List.all_eq_true, List.mem_range, bne_iff_ne] at h
  exact h w hw

/-- Every register other than the pending words is as before. -/
theorem settle_rd {a : Nat} (h : notPending a = true) : s.settle.rd a = s.rd a := by
  show (pendRaised s).rd a = s.rd a
  unfold pendRaised
  rw [pendWord_rd _ (notPending_ne h (by decide)), pendWord_rd _ (notPending_ne h (by decide)),
    pendWord_rd _ (notPending_ne h (by decide)), pendWord_rd _ (notPending_ne h (by decide)),
    pendWord_rd _ (notPending_ne h (by decide)), pendWord_rd _ (notPending_ne h (by decide)),
    pendWord_rd _ (notPending_ne h (by decide)), pendWord_rd _ (notPending_ne h (by decide))]

theorem settle_rdn {a : Nat} (h : notPending a = true) : s.settle.rdn a = s.rdn a := by
  rw [State.rdn, settle_rd s h, State.rdn]

theorem settle_get {f : Fld} (h : notPending f.reg = true) : s.settle.get f = s.get f := by
  rw [State.get, settle_rd s h, State.get]

theorem settle_flag {f : Fld} (h : notPending f.reg = true) : s.settle.flag f = s.flag f := by
  rw [State.flag, settle_get s h, State.flag]

@[simp] theorem settle_pending : s.settle.pending = s.pending := by
  show (pendRaised s).pending = s.pending
  simp only [pendRaised, pendWord_pending]
@[simp] theorem settle_tb : s.settle.tb = s.tb := by
  show (pendRaised s).tb = s.tb
  simp only [pendRaised, pendWord_tb]
@[simp] theorem settle_clock : s.settle.clock = s.clock := by
  show (pendRaised s).clock = s.clock
  simp only [pendRaised, pendWord_clock]
@[simp] theorem settle_mem : s.settle.mem = s.mem := by
  show (pendRaised s).mem = s.mem
  simp only [pendRaised, pendWord_mem]
@[simp] theorem settle_ecc : s.settle.ecc = s.ecc := by
  show (pendRaised s).ecc = s.ecc
  simp only [pendRaised, pendWord_ecc]
@[simp] theorem settle_soft : s.settle.soft = s.soft := by
  show (pendRaised s).soft = s.soft
  simp only [pendRaised, pendWord_soft]
@[simp] theorem settle_hold : s.settle.hold = s.hold := by
  show (pendRaised s).hold = s.hold
  simp only [pendRaised, pendWord_hold]
@[simp] theorem settle_resp : s.settle.resp = s.resp := by
  show (pendRaised s).resp = s.resp
  simp only [pendRaised, pendWord_resp]
@[simp] theorem settle_inputs : s.settle.inputs = s.inputs := by
  show (pendRaised s).inputs = s.inputs
  simp only [pendRaised, pendWord_inputs]
@[simp] theorem settle_trackers : s.settle.trackers = s.trackers := by
  show (pendRaised s).trackers = s.trackers
  simp only [pendRaised, pendWord_trackers]
@[simp] theorem settle_occs : s.settle.occs = s.occs := by
  show (pendRaised s).occs = s.occs
  simp only [pendRaised, pendWord_occs]
@[simp] theorem settle_units : s.settle.units = s.units := by
  show (pendRaised s).units = s.units
  simp only [pendRaised, pendWord_units]
@[simp] theorem settle_switched : s.settle.switched = s.switched := by
  show (pendRaised s).switched = s.switched
  simp only [pendRaised, pendWord_switched]
@[simp] theorem settle_held : s.settle.held = s.held := by
  show (pendRaised s).held = s.held
  simp only [pendRaised, pendWord_held]
@[simp] theorem settle_bankCyl : s.settle.bankCyl = s.bankCyl := by
  show (pendRaised s).bankCyl = s.bankCyl
  simp only [pendRaised, pendWord_bankCyl]
@[simp] theorem settle_bankJob : s.settle.bankJob = s.bankJob := by
  show (pendRaised s).bankJob = s.bankJob
  simp only [pendRaised, pendWord_bankJob]
@[simp] theorem settle_copyTb : s.settle.copyTb = s.copyTb := by
  show (pendRaised s).copyTb = s.copyTb
  simp only [pendRaised, pendWord_copyTb]
@[simp] theorem settle_copySrc : s.settle.copySrc = s.copySrc := by
  show (pendRaised s).copySrc = s.copySrc
  simp only [pendRaised, pendWord_copySrc]
@[simp] theorem settle_published : s.settle.published = s.published := by
  show (pendRaised s).published = s.published
  simp only [pendRaised, pendWord_published]
@[simp] theorem settle_copyJob : s.settle.copyJob = s.copyJob := by
  show (pendRaised s).copyJob = s.copyJob
  simp only [pendRaised, pendWord_copyJob]
@[simp] theorem settle_esqs : s.settle.esqs = s.esqs := by
  show (pendRaised s).esqs = s.esqs
  simp only [pendRaised, pendWord_esqs]
@[simp] theorem settle_loops : s.settle.loops = s.loops := by
  show (pendRaised s).loops = s.loops
  simp only [pendRaised, pendWord_loops]
@[simp] theorem settle_cses : s.settle.cses = s.cses := by
  show (pendRaised s).cses = s.cses
  simp only [pendRaised, pendWord_cses]
@[simp] theorem settle_padc : s.settle.padc = s.padc := by
  show (pendRaised s).padc = s.padc
  simp only [pendRaised, pendWord_padc]
@[simp] theorem settle_cae : s.settle.cae = s.cae := by
  show (pendRaised s).cae = s.cae
  simp only [pendRaised, pendWord_cae]
@[simp] theorem settle_gpts : s.settle.gpts = s.gpts := by
  show (pendRaised s).gpts = s.gpts
  simp only [pendRaised, pendWord_gpts]
@[simp] theorem settle_hadc : s.settle.hadc = s.hadc := by
  show (pendRaised s).hadc = s.hadc
  simp only [pendRaised, pendWord_hadc]
@[simp] theorem settle_cmps : s.settle.cmps = s.cmps := by
  show (pendRaised s).cmps = s.cmps
  simp only [pendRaised, pendWord_cmps]
@[simp] theorem settle_gnorum : s.settle.gnorum = s.gnorum := by
  show (pendRaised s).gnorum = s.gnorum
  simp only [pendRaised, pendWord_gnorum]
@[simp] theorem settle_cores : s.settle.cores = s.cores := by
  show (pendRaised s).cores = s.cores
  simp only [pendRaised, pendWord_cores]
@[simp] theorem settle_pairs : s.settle.pairs = s.pairs := by
  show (pendRaised s).pairs = s.pairs
  simp only [pendRaised, pendWord_pairs]
@[simp] theorem settle_takeover : s.settle.takeover = s.takeover := by
  show (pendRaised s).takeover = s.takeover
  simp only [pendRaised, pendWord_takeover]
@[simp] theorem settle_locks : s.settle.locks = s.locks := by
  show (pendRaised s).locks = s.locks
  simp only [pendRaised, pendWord_locks]
@[simp] theorem settle_waits : s.settle.waits = s.waits := by
  show (pendRaised s).waits = s.waits
  simp only [pendRaised, pendWord_waits]
@[simp] theorem settle_arbs : s.settle.arbs = s.arbs := by
  show (pendRaised s).arbs = s.arbs
  simp only [pendRaised, pendWord_arbs]
@[simp] theorem settle_scrub : s.settle.scrub = s.scrub := by
  show (pendRaised s).scrub = s.scrub
  simp only [pendRaised, pendWord_scrub]
@[simp] theorem settle_bistTb : s.settle.bistTb = s.bistTb := by
  show (pendRaised s).bistTb = s.bistTb
  simp only [pendRaised, pendWord_bistTb]
@[simp] theorem settle_bistJob : s.settle.bistJob = s.bistJob := by
  show (pendRaised s).bistJob = s.bistJob
  simp only [pendRaised, pendWord_bistJob]
@[simp] theorem settle_dmas : s.settle.dmas = s.dmas := by
  show (pendRaised s).dmas = s.dmas
  simp only [pendRaised, pendWord_dmas]
@[simp] theorem settle_queues : s.settle.queues = s.queues := by
  show (pendRaised s).queues = s.queues
  simp only [pendRaised, pendWord_queues]
@[simp] theorem settle_perc : s.settle.perc = s.perc := by
  show (pendRaised s).perc = s.perc
  simp only [pendRaised, pendWord_perc]
@[simp] theorem settle_update : s.settle.update = s.update := by
  show (pendRaised s).update = s.update
  simp only [pendRaised, pendWord_update]
@[simp] theorem settle_fuses : s.settle.fuses = s.fuses := by
  show (pendRaised s).fuses = s.fuses
  simp only [pendRaised, pendWord_fuses]
@[simp] theorem settle_ring : s.settle.ring = s.ring := by
  show (pendRaised s).ring = s.ring
  simp only [pendRaised, pendWord_ring]
@[simp] theorem settle_power : s.settle.power = s.power := by
  show (pendRaised s).power = s.power
  simp only [pendRaised, pendWord_power]
@[simp] theorem settle_ports : s.settle.ports = s.ports := by
  show (pendRaised s).ports = s.ports
  simp only [pendRaised, pendWord_ports]
@[simp] theorem settle_draws : s.settle.draws = s.draws := by
  show (pendRaised s).draws = s.draws
  simp only [pendRaised, pendWord_draws]
@[simp] theorem settle_byte (a : Nat) : s.settle.byte a = s.byte a := by simp only [State.byte, settle_mem]
@[simp] theorem settle_inp_of (n : Nat) : s.settle.inp n = s.inp n := by simp only [State.inp, settle_inputs]
@[simp] theorem settle_trk_of (n : Nat) : s.settle.trk n = s.trk n := by simp only [State.trk, settle_trackers]
@[simp] theorem settle_occ_of (n : Nat) : s.settle.occ n = s.occ n := by simp only [State.occ, settle_occs]
@[simp] theorem settle_unit_of (n : Nat) : s.settle.unit n = s.unit n := by simp only [State.unit, settle_units]
@[simp] theorem settle_esq_of (n : Nat) : s.settle.esq n = s.esq n := by simp only [State.esq, settle_esqs]
@[simp] theorem settle_loop_of (n : Nat) : s.settle.loop n = s.loop n := by simp only [State.loop, settle_loops]
@[simp] theorem settle_cse_of (n : Nat) : s.settle.cse n = s.cse n := by simp only [State.cse, settle_cses]
@[simp] theorem settle_gpt_of (n : Nat) : s.settle.gpt n = s.gpt n := by simp only [State.gpt, settle_gpts]
@[simp] theorem settle_cmp_of (n : Nat) : s.settle.cmp n = s.cmp n := by simp only [State.cmp, settle_cmps]
@[simp] theorem settle_core_of (n : Nat) : s.settle.core n = s.core n := by simp only [State.core, settle_cores]
@[simp] theorem settle_pair_of (n : Nat) : s.settle.pair n = s.pair n := by simp only [State.pair, settle_pairs]
@[simp] theorem settle_lock_of (n : Nat) : s.settle.lock n = s.lock n := by simp only [State.lock, settle_locks]
@[simp] theorem settle_wait_of (n : Nat) : s.settle.wait n = s.wait n := by simp only [State.wait, settle_waits]
@[simp] theorem settle_arb_of (n : Nat) : s.settle.arb n = s.arb n := by simp only [State.arb, settle_arbs]
@[simp] theorem settle_dma_of (n : Nat) : s.settle.dma n = s.dma n := by simp only [State.dma, settle_dmas]
@[simp] theorem settle_queue_of (n : Nat) : s.settle.queue n = s.queue n := by simp only [State.queue, settle_queues]
@[simp] theorem settle_now : s.settle.now = s.now := by simp only [State.now, settle_tb]
end

/-- What every command ends with: the outcome is the next state whose raised sources are pending. -/
theorem done_eq (s : State) : done s = .next s.settle := rfl

end Sys2Proof.Machine
end

