-- ==== Sys2Proof/Laws/Fcp.lean ====
section
/-! SUPPORT. An accepted request reduces to its handler and its answer: one lemma for the command path (R240, R242, R247). -/

namespace Sys2Proof.Machine

open Fields

/-- The checks leave the power state and PERC as they are. -/
theorem frontCheck_keeps (q : Req) (s : State) :
    (frontCheck q s).2.power = s.power ∧ (frontCheck q s).2.perc = s.perc ∧ (frontCheck q s).2.gnorum.slow = s.gnorum.slow ∧
      (frontCheck q s).2.regs = s.regs := by
  have key : ∀ t, (∃ x e, t = seqAccept q x e s) ∨ t = s →
      t.power = s.power ∧ t.perc = s.perc ∧ t.gnorum.slow = s.gnorum.slow ∧ t.regs = s.regs := by
    rintro t (⟨x, e, rfl⟩ | rfl) <;> simp [seqAccept, State.putSession]
  have tc : (∃ x e, (tagCheck q s).2 = seqAccept q x e s) ∨ (tagCheck q s).2 = s := by
    simp only [tagCheck, cond_eq_ite]
    repeat' split
    all_goals first | exact .inr rfl | exact .inl ⟨_, _, rfl⟩
  have hu : (frontCheck q s).2 = (tagCheck q s).2 ∨ (frontCheck q s).2 = s := by
    simp only [frontCheck]
    cases fallbackRefuses s q.opc.toNat with
    | true => exact .inr rfl
    | false =>
      refine .inl ?_
      generalize tagCheck q s = z
      obtain ⟨z1, z2⟩ := z
      cases z1 <;> rfl
  rcases hu with hu | hu <;> rw [hu]
  · exact key _ tc
  · exact key _ (.inr rfl)

/-- A list of one request keeps it. -/
theorem withChain_alone {q : Req} (h : isChained q = false) : withChain false q = q := by
  have k : ∀ f : BitVec 8, bitAt f.toNat 3 = false → BitVec.ofNat 8 (putBits f.toNat 3 1 0) = f := by decide
  simp only [withChain, Bool.toNat_false, k q.flg h]

/-- A request that passes its checks is performed, or handed to PERC. -/
theorem arrive_passed {q : Req} {t c : State} (h1 : listening t q.src = true) (h2 : lengthAgrees q = true) (h3 : bitAt q.flg.toNat 7 = false)
    (h4 : isChained q = false) (h6 : chainOf t q.src = none) (h7 : (frontCheck q t).1 = .pass) (hc : (frontCheck q t).2 = c) :
    arrive q t = if isFast q then perform [q] c else slowGroup [q] c := by
  simp only [arrive, h1, h2, h3, packet, h6, freshPacket, h4, takeGroup, checkEach, h7, hc, Bool.not_true, cond_false, List.filter,
    show (Front.pass == Front.again) = false by decide, show (Front.pass != Front.again) = true by decide, List.foldl, List.map,
    List.isEmpty, List.any, bne_self_eq_false, Bool.or_self, List.all, Bool.and_true]
  cases isFast q <;> rfl

/-- PERC takes a slow request alone in its queue at once. -/
theorem percGroup_alone {q : Req} {c : State} (h4 : isChained q = false) (h9 : c.perc.running = true) (h10 : c.gnorum.slow = [])
    (ha : (c.power.angleReset && opcAngle q.opc.toNat) = false) :
    percGroup (slowGroup [q] c) = updPoll (perform [q] (requestsTake c)) := by
  have hs : ({ c with gnorum := { c.gnorum with slow := [] } } : State) = c := by rw [← h10]
  have hl : slowGroup [q] c = { c with gnorum := { c.gnorum with slow := [q] } } := by
    simp [slowGroup, slowStatus, ha, h9, h10, asGroup, withChain_alone h4, show Nat.ble 1 32 = true from rfl]
  simp only [hl, percGroup, firstGroup, h4, cond_false, List.isEmpty]
  rw [hs]

/-- An accepted request is executed and answered in one step. -/
theorem request_accepted {q : Req} {s u : State} (h : Accepted q s u) :
    request q s = (let x := runReq q u
      if isFast q then afterReply x.1 (answer q x.1 x.2) else updPoll (afterReply x.1 (answer q x.1 x.2))) := by
  simp only [Accepted] at h
  simp only [request]
  generalize requestsBefore q.src s = t at h ⊢
  obtain ⟨h1, h2, h3, h4, h5, h6, h7, h8, h9⟩ := h
  have k := frontCheck_keeps q t
  generalize hc : (frontCheck q t).2 = c at k h9
  rw [arrive_passed h1 h2 h3 h4 h6 h7 hc]
  have run (v : State) : perform [q] v = runOne q v := by simp [perform, h5, runGroup]
  rcases h9 with ⟨hf, hu⟩ | ⟨hf, h9, h10, hu, _⟩
  · rw [hu]; simp only [hf, Bool.not_true, Bool.and_false, cond_false, if_true, run, runOne]
  · have ha : (c.power.angleReset && opcAngle q.opc.toNat) = false := by
      rw [k.1]; cases hr : t.power.angleReset <;> simp [h8, hr]
    simp only [hf, h10, List.isEmpty, Bool.not_false, Bool.and_self, cond_true, Bool.false_eq_true, if_false]
    rw [percGroup_alone h4 (k.2.1 ▸ h9) (k.2.2.1.trans h10) ha, run, hu, runOne]

/-- With the angle domain out of reset, or an opcode of another domain, the handler of the opcode runs. -/
theorem runReq_accepted {q : Req} {s u : State} (h : Accepted q s u) : runReq q u = handlerOf q.opc.toNat q u := by
  simp only [Accepted] at h
  generalize requestsBefore q.src s = t at h
  obtain ⟨_, _, _, _, _, _, _, h8, h9⟩ := h
  have k := frontCheck_keeps q t
  generalize (frontCheck q t).2 = c at k h9
  have h11 : (u.power.angleReset && opcAngle q.opc.toNat) = false := by
    rcases h9 with ⟨_, hu⟩ | ⟨_, _, _, _, h9⟩
    · rw [hu, k.1]; cases hr : t.power.angleReset <;> simp [h8, hr]
    · cases hr : u.power.angleReset <;> simp [h9, hr]
  simp [runReq, h11]

/-- An opcode whose handler gives the answer `a` and the state `t`. -/
theorem replies_of_handler {c : Instr} {q : Req} {s u t : State} {a : Ans} (hc : exec c s = done (request q s)) (h : Accepted q s u)
    (e : handlerOf q.opc.toNat q u = (a, t)) : Replies c q s a t := by
  simp only [Replies, hc, request_accepted h, runReq_accepted h, done_eq, e]

end Sys2Proof.Machine
end

