-- ==== Sys2Proof/Laws/Memory.lean ====
section
/-! SUPPORT. Every operation over the byte memory keeps its canonical form, and the memory after reset has it. -/

namespace Sys2Proof.Machine

theorem reset_memory_wf : Memory.wf State.reset.mem = true := rfl

theorem putByte_memory_wf (s : State) (a : Nat) (v : Byte) (h : Memory.wf s.mem = true) : Memory.wf (s.putByte a v).mem = true :=
  tableWf_storeAt memDefault a v h

theorem putWord_memory_wf (s : State) (a : Nat) (v : Word) (h : Memory.wf s.mem = true) : Memory.wf (s.putWord a v).mem = true :=
  putByte_memory_wf _ _ _ (putByte_memory_wf _ _ _ (putByte_memory_wf _ _ _ (putByte_memory_wf _ _ _ h)))

theorem putBytes_memory_wf (s : State) (a : Nat) (l : List Byte) (h : Memory.wf s.mem = true) :
    Memory.wf (s.putBytes a l).mem = true := by
  induction l generalizing s a with
  | nil => exact h
  | cons b l ih => exact ih _ _ (putByte_memory_wf s a b h)

theorem filter_memory_wf (p : Host.Cell → Bool) (m : List Host.Cell) (h : Memory.wf m = true) : Memory.wf (m.filter p) = true :=
  tableWf_filter memDefault p h

theorem clearBytes_memory_wf (s : State) (a n : Nat) (h : Memory.wf s.mem = true) : Memory.wf (s.clearBytes a n).mem = true :=
  filter_memory_wf _ _ h

/-- What STEEP keeps of the memory is in the canonical form (R397). -/
theorem steep_memory_wf (s : State) (h : Memory.wf s.mem = true) :
    Memory.wf (s.mem.filter fun c => steepByte s c.1) = true := filter_memory_wf _ _ h

end Sys2Proof.Machine
end

