-- ==== Sys2Proof/WellFormed.lean ====
section
/-! DEFINITION. Well-formed commands: what the operand types of `Instr` do not already say. -/

namespace Sys2Proof

/-- The sender is inside the device: the core pairs and PERC, which send over the internal mailboxes (R238). -/
def Source.inside : Source → Bool
  | .mailbox _ => true
  | _ => false

/-- A request carries as many parameter words as LEN says, at most 250 (R226), and a session tag exactly when SESS is not 0 and it comes
over a port (R227, R233). -/
def Req.wf (r : Req) : Bool :=
  r.params.length == r.len.toNat && Nat.ble r.len.toNat 250 &&
    (bif r.src.inside then r.tag.isNone else r.tag.isSome == (r.sess != 0))

/-- A well-formed request with opcode `o`, so that the row of another opcode does not carry it. -/
def Req.isOpcode (o : BitVec 8) (r : Req) : Bool := r.opc == o && r.wf

/-- The data lengths of a classical and of an FD frame (R237). -/
def CanFrame.wf (f : CanFrame) : Bool :=
  (bif f.fd then [0, 1, 2, 3, 4, 5, 6, 7, 8, 12, 16, 20, 24, 32, 48, 64].contains f.data.length else Nat.ble f.data.length 8) &&
    (f.ide || Nat.blt f.id.toNat 2048)

/-- A ring frame carries four tracker blocks and four slots (R373). -/
def RingFrame.wf (f : RingFrame) : Bool := f.trk.length == 4 && f.slots.length == 4

/-- The payload of an Ethernet frame is at most 1500 bytes, headers of IPv4 and UDP included (R414). -/
def EthFrame.wf (f : EthFrame) : Bool :=
  match f.kind with
  | .udp _ _ _ _ payload => Nat.ble payload.length 1472
  | .otherIp _ payload => Nat.ble payload.length 1480
  | _ => true

/-- What R308 says of a request: the DMA channels and the Ethernet MACs are preemptible, the CAE and the ring receive agent in their bulk
transfers, no other master. -/
def preemptWf (mid : Nat) (preemptible : Bool) : Bool :=
  bif Nat.ble 32 mid || mid == 18 || mid == 19 then preemptible else mid == 4 || mid == 17 || !preemptible

/-- A MID that appears on the bus: those from 21 to 31 and from 48 on are reserved (R25). -/
def midWf (mid : Fin 64) : Bool := Nat.ble mid.val 20 || (Nat.ble 32 mid.val && Nat.ble mid.val 47)

/-- A request at an arbiter asks for 1 to 16 beats (R305). -/
def beatsWf (n : Nat) : Bool := Nat.ble 1 n && Nat.ble n 16

/-- The occurrences that PERC itself observes have the log sources 0 to 31 (R339). -/
def LogEvent.wf (ev : LogEvent) : Bool := Nat.blt ev.src.toNat 32

/-- Records of class CRIT come from the sources of R335 and R338 whose events are marked so (R343). -/
def LogEvent.critWf (ev : LogEvent) : Bool :=
  ev.cls != 0 || (Nat.ble 1 ev.src.toNat && Nat.ble ev.src.toNat 2) || (Nat.ble 12 ev.src.toNat && Nat.ble ev.src.toNat 22) ||
    ev.src == 25 || ev.src == 27

/-- The command is one that the device can meet. -/
def Instr.wf (i : Instr) : Bool :=
  match i with
  | .registerWrite mid _ _ _ => midWf mid
  | .rcFieldRead mid _ => midWf mid
  | .lowWordRead mid _ => midWf mid
  | .toothEntryWrite mid _ _ _ => midWf mid
  | .tiPinEdge _ _ => true
  | .filteredEdge _ => true
  | .dirpwWidthSaturate _ => true
  | .inputEnable _ => true
  | .inputDisable _ => true
  | .vrGenuineCrossing _ _ => true
  | .vrZeroCrossing _ _ => true
  | .vrTimeout _ => true
  | .capTslRead mid _ => midWf mid
  | .toothEntryPop _ => true
  | .virtualTooth _ => true
  | .catchupComplete _ => true
  | .accumulatorHalt _ => true
  | .toothPeriodStall _ => true
  | .cammiss _ => true
  | .angleCycleWrap _ => true
  | .wcylWrite mid _ _ _ => midWf mid
  | .trackerEnable _ => true
  | .trackerDisable _ => true
  | .wheelSwitchRequest _ => true
  | .syncRestart _ => true
  | .syncDrop _ => true
  | .setph0 _ => true
  | .setph1 _ => true
  | .passStrobe _ => true
  | .coastExpiry _ => true
  | .committedEdgeOutput _ => true
  | .maxdurCut _ => true
  | .outputUnitSyncLoss _ => true
  | .directionChangeCancel _ => true
  | .outenWrite _ _ => true
  | .bankSwitchRequest _ => true
  | .bankCopyStart _ => true
  | .bankCopyDone => true
  | .stagedWriteApply _ => true
  | .esqNop _ => true
  | .esqAdd _ _ _ _ => true
  | .esqSub _ _ _ _ => true
  | .esqAnd _ _ _ _ => true
  | .esqOr _ _ _ _ => true
  | .esqXor _ _ _ _ => true
  | .esqShl _ _ _ _ => true
  | .esqShr _ _ _ _ => true
  | .esqSra _ _ _ _ => true
  | .esqMul _ _ _ _ => true
  | .esqAddi _ _ _ _ => true
  | .esqAndi _ _ _ _ => true
  | .esqOri _ _ _ _ => true
  | .esqXori _ _ _ _ => true
  | .esqShli _ _ _ _ => true
  | .esqShri _ _ _ _ => true
  | .esqSrai _ _ _ _ => true
  | .esqLui _ _ _ => true
  | .esqLd _ _ _ _ => true
  | .esqSt _ _ _ _ => true
  | .esqLde _ _ _ _ => true
  | .esqAbr _ _ _ => true
  | .esqTbr _ _ _ => true
  | .esqFlg _ _ _ => true
  | .esqEres _ _ => true
  | .esqBeq _ _ _ _ => true
  | .esqBne _ _ _ _ => true
  | .esqBlt _ _ _ _ => true
  | .esqBge _ _ _ _ => true
  | .esqBltu _ _ _ _ => true
  | .esqBgeu _ _ _ _ => true
  | .esqJmp _ _ => true
  | .esqCall _ _ => true
  | .esqJr _ _ => true
  | .esqWpass _ => true
  | .esqEval _ _ => true
  | .esqEdrain _ => true
  | .esqChsafe _ _ => true
  | .esqSwi _ _ => true
  | .esqHalt _ => true
  | .esqWtb _ _ => true
  | .illegalInstruction _ _ => true
  | .esqRun _ => true
  | .esqStop _ => true
  | .esqFclr _ => true
  | .esqUbreq _ => true
  | .esqSelftestStart _ => true
  | .esqSelftestDone _ _ => true
  | .esqOwnWrite _ _ => true
  | .crlComparatorCrossing _ _ _ => true
  | .blankingEnd _ => true
  | .phaseTimeElapsed _ => true
  | .deadTimeEnd _ => true
  | .ovcTimeout _ => true
  | .watchWindowOpen _ => true
  | .traceSample _ _ => true
  | .analyseComplete _ => true
  | .loopEnable _ => true
  | .loopDisable _ => true
  | .loopFclr _ => true
  | .crlCalreq _ => true
  | .idleTimerCalStart _ => true
  | .crlCalComplete _ _ => true
  | .crlCalStarved _ => true
  | .programBankRequest _ => true
  | .samplingMark => true
  | .padcConversionDone _ _ => true
  | .padcEnable => true
  | .padcCalreq _ => true
  | .padcCalComplete _ _ _ => true
  | .padcCalRotation => true
  | .caeAnalysisComplete _ => true
  | .phaseTrimReply _ => true
  | .caeAnalysisTimeout _ => true
  | .caeRun => true
  | .caeStop => true
  | .caeFclr => true
  | .kernelBankRequest => true
  | .gptPeriodEnd _ => true
  | .gptCompareEvent _ _ => true
  | .gptWidthSaturate _ _ => true
  | .gptCaptureRead mid _ _ => midWf mid
  | .gptPerImmediate _ _ _ => true
  | .brewMaskWrite _ => true
  | .ringBrewWrite => true
  | .ringBrewStart => true
  | .hadcSwtrg _ => true
  | .hadcSeqStop _ => true
  | .hadcAngleTrigger _ => true
  | .hadcEntryDelayEnd _ => true
  | .hadcConversionDone _ => true
  | .resRead mid _ => midWf mid
  | .hadcCalreq => true
  | .hadcCalStep _ => true
  | .hadcCalStarved => true
  | .hadcDisable => true
  | .comparatorCrossing _ _ => true
  | .thresholdWrite _ _ => true
  | .comparatorEnable _ _ => true
  | .hspiRequestTransaction _ _ => true
  | .hspiReadTransaction _ _ => true
  | .ethFrameReceive _ f => f.wf
  | .canFrameReceive _ f => f.wf
  | .canReassemblyTimeout _ => true
  | .uartFrameReceive _ _ _ => true
  | .uartReplySend _ => true
  | .mailboxWrite _ _ => true
  | .chainTimeout _ => true
  | .percWriteGroup => true
  | .ping r => r.isOpcode 0x00
  | .info r => r.isOpcode 0x01
  | .status r => r.isOpcode 0x02
  | .regRead r => r.isOpcode 0x03
  | .regWrite r => r.isOpcode 0x04
  | .jobQuery r => r.isOpcode 0x05
  | .resetUnit r => r.isOpcode 0x06
  | .trkCfg r => r.isOpcode 0x10
  | .trkEn r => r.isOpcode 0x11
  | .wheelStage r => r.isOpcode 0x12
  | .wheelLoad r => r.isOpcode 0x13
  | .wheelSwitch r => r.isOpcode 0x14
  | .syncCtl r => r.isOpcode 0x15
  | .corrLoad r => r.isOpcode 0x16
  | .profLoad r => r.isOpcode 0x17
  | .trkRead r => r.isOpcode 0x18
  | .pstoreRead r => r.isOpcode 0x19
  | .tiCfg r => r.isOpcode 0x1A
  | .tiRead r => r.isOpcode 0x1B
  | .evtWrite r => r.isOpcode 0x20
  | .evtEn r => r.isOpcode 0x21
  | .trimWrite r => r.isOpcode 0x22
  | .trimAdd r => r.isOpcode 0x23
  | .evtFire r => r.isOpcode 0x24
  | .evtWriteN r => r.isOpcode 0x25
  | .evtRead r => r.isOpcode 0x26
  | .chRead r => r.isOpcode 0x27
  | .envWrite r => r.isOpcode 0x28
  | .bankSwitch r => r.isOpcode 0x29
  | .bankCopy r => r.isOpcode 0x2A
  | .bankAng r => r.isOpcode 0x2B
  | .horizon r => r.isOpcode 0x2C
  | .esqAssign r => r.isOpcode 0x2D
  | .esqCtl r => r.isOpcode 0x2E
  | .esqUbank r => r.isOpcode 0x2F
  | .crlCfg r => r.isOpcode 0x30
  | .crlCtl r => r.isOpcode 0x31
  | .cseProf r => r.isOpcode 0x32
  | .csePbank r => r.isOpcode 0x33
  | .crlRead r => r.isOpcode 0x34
  | .cseRing r => r.isOpcode 0x35
  | .gptCfg r => r.isOpcode 0x38
  | .brew r => r.isOpcode 0x39
  | .brewRing r => r.isOpcode 0x3A
  | .gptRead r => r.isOpcode 0x3B
  | .workWrite r => r.isOpcode 0x40
  | .caeParam r => r.isOpcode 0x41
  | .caeCyl r => r.isOpcode 0x42
  | .caeCtl r => r.isOpcode 0x43
  | .padcCfg r => r.isOpcode 0x44
  | .recRead r => r.isOpcode 0x45
  | .caeKbank r => r.isOpcode 0x46
  | .hadcSeq r => r.isOpcode 0x50
  | .hadcRead r => r.isOpcode 0x51
  | .hadcTrg r => r.isOpcode 0x52
  | .cmpCfg r => r.isOpcode 0x53
  | .cmpRead r => r.isOpcode 0x54
  | .hadcCtl r => r.isOpcode 0x55
  | .qCfg r => r.isOpcode 0x58
  | .qStat r => r.isOpcode 0x59
  | .dmaCtl r => r.isOpcode 0x5A
  | .dmaStat r => r.isOpcode 0x5B
  | .pwrEnter r => r.isOpcode 0x60
  | .pwrRead r => r.isOpcode 0x61
  | .outenSet r => r.isOpcode 0x68
  | .outenClr r => r.isOpcode 0x69
  | .outRead r => r.isOpcode 0x6A
  | .logRead r => r.isOpcode 0x70
  | .logCfg r => r.isOpcode 0x71
  | .sensorRead r => r.isOpcode 0x72
  | .alarmSub r => r.isOpcode 0x73
  | .kettleRead r => r.isOpcode 0x74
  | .updBegin r => r.isOpcode 0x80
  | .updData r => r.isOpcode 0x81
  | .updVerify r => r.isOpcode 0x82
  | .updActivate r => r.isOpcode 0x83
  | .updRevert r => r.isOpcode 0x84
  | .updAbort r => r.isOpcode 0x85
  | .carCfg r => r.isOpcode 0x90
  | .carRead r => r.isOpcode 0x91
  | .carHandover r => r.isOpcode 0x92
  | .carUbank r => r.isOpcode 0x93
  | .orelSet r => r.isOpcode 0x94
  | .sessOpen r => r.isOpcode 0xA0
  | .sessClose r => r.isOpcode 0xA1
  | .dbgChal r => r.isOpcode 0xA2
  | .dbgResp r => r.isOpcode 0xA3
  | .secRead r => r.isOpcode 0xA4
  | .keyRevoke r => r.isOpcode 0xA5
  | .calCrl r => r.isOpcode 0xB0
  | .calPadc r => r.isOpcode 0xB1
  | .calHadc r => r.isOpcode 0xB2
  | .testEsq r => r.isOpcode 0xB3
  | .testLock r => r.isOpcode 0xB4
  | .sramOffline r => r.isOpcode 0xB5
  | .testSram r => r.isOpcode 0xB6
  | .trkGen r => r.isOpcode 0xB7
  | .generatorEdge _ => true
  | .jobSlotTimeout _ => true
  | .stagingBufferTimeout => true
  | .coreInstruction _ _ => true
  | .fence _ => true
  | .fenceI _ => true
  | .wfi _ => true
  | .mret _ => true
  | .cacheOperation _ _ => true
  | .dzmattWrite _ _ _ => true
  | .exceptionTrap _ _ _ => true
  | .interruptDeliveryCommit _ => true
  | .coreWake _ => true
  | .irqEnset _ _ => true
  | .irqEnclr _ _ => true
  | .irqPndset _ _ => true
  | .irqPndclr _ _ => true
  | .irqTargetWrite _ _ => true
  | .lockstepMismatch _ _ => true
  | .pairHeartbeat _ => true
  | .pairHeartbeatTimeout _ => true
  | .pairPowerOn _ => true
  | .pairPowerOff _ => true
  | .pairRun _ => true
  | .pairRunClear _ => true
  | .pairTest _ => true
  | .pairTestComplete _ _ => true
  | .pairRoleWrite _ _ => true
  | .ckcommit _ => true
  | .ckack _ => true
  | .tkack _ => true
  | .takeoverTimeout => true
  | .scrubRead _ => true
  | .bankOffline _ _ => true
  | .bankBistStart _ => true
  | .bankBistDone _ _ => true
  | .actBankSwitch => true
  | .midRevoke _ => true
  | .arbiterGrant _ n l => beatsWf n && l.all fun q => midWf q.mid && beatsWf q.beats && preemptWf q.mid q.preemptible
  | .lockAcquire mid _ => midWf mid
  | .lockTry mid _ => midWf mid
  | .lockRelease mid _ => midWf mid
  | .lockWaitTimeout mid => midWf mid
  | .dmaKick _ => true
  | .dmaRst _ => true
  | .dmaClrerr _ => true
  | .dmaDescriptorFetch _ => true
  | .dmaTransferComplete _ => true
  | .dmaErrorResponse _ _ _ => true
  | .dmaWritebackComplete _ _ => true
  | .queuePush mid _ _ => midWf mid
  | .queuePop mid _ => midWf mid
  | .queueGrant mid _ _ => midWf mid
  | .queueEnable _ => true
  | .sensorSample => true
  | .sensorSeqTimeout => true
  | .percFaultObserve ev => ev.wf && ev.critWf
  | .logRecordOffer ev => ev.critWf
  | .logItemTake => true
  | .coalesceWindowClose _ => true
  | .logBucketRefill _ => true
  | .incidentInterval => true
  | .incidentSummary => true
  | .flashLogCopy => true
  | .logLossIncrement _ => true
  | .kettleHeartbeat => true
  | .kettleWarn => true
  | .kettleReset _ => true
  | .percFirmwareRun => true
  | .recoveryPairRestart _ => true
  | .recoveryEsqSpare _ => true
  | .recoveryCaeRestart => true
  | .peerOrelAssert _ => true
  | .slotEraseDone _ _ => true
  | .trialPeriodEnd => true
  | .romBoot => true
  | .ringEnable => true
  | .ringDisable => true
  | .linkTrained _ _ => true
  | .linkDown _ => true
  | .ringFrameStart => true
  | .ringFrameReceive _ f => f.wf
  | .frameClose => true
  | .handoverAtTbs => true
  | .ringUbankStart => true
  | .oreldWrite _ => true
  | .orelNAssert => true
  | .orelNRelease => true
  | .powerStateRequest _ => true
  | .powerEntryComplete => true
  | .wakeRequest _ => true
  | .powerExitComplete => true
  | .aonTimerExpire => true
  | .powerOnReset => true
  | .undervoltageReset _ => true
  | .resetPin => true
  | .softwareReset => true
  | .debugReset => true
  | .startupSequence _ => true
  | .pllLock _ => true
  | .railWindowViolation _ => true
  | .vsupLowWarning => true
  | .currentLimit => true
  | .pllsLossOfLock => true
  | .plltLossOfLock => true
  | .angleDomainResetRelease => true
  | .pllaLossOfLock => true
  | .crystalLoss => true
  | .crystalHoldoverExpire => true
  | .mclkOutOfRange => true
  | .aonclkOutOfRange => true
  | .pspiListStart _ => true
  | .pspiListDone _ => true
  | .sentMessageReceive _ _ => true
  | .i2cBusStuck => true
  | .ospiXipSuspend => true
  | .traceOverflow _ => true
  | .jtagTapReset => true
  | .failedReadAccess mid _ _ => midWf mid
  | .memoryBitError _ _ => true
  | .vsupRampThreshold _ => true
  | .clockRestored _ => true
  | .debugHalt _ => true
  | .debugStep _ _ => true
  | .dbgChallengeExpiry => true
  | .verifyJobFinal _ => true
  | .ethFrameTransmit _ => true
  | .canFrameTransmit _ => true

end Sys2Proof
end

