-- ==== Sys2Proof/Tests/Slice0.lean ====
section
/-! SUPPORT. Tests of single commands with results worked out in the spec or by hand from it, ill-formed commands that `Instr.wf` refuses,
and, for every statement with hypotheses, states and operands that meet them (`wit_…`, by the statement's name; the parts of a
conjunction follow the statement's clauses). -/

namespace Sys2Proof.Tests

open Sys2Proof Sys2Proof.Machine Sys2Proof.Machine.Fields

set_option Elab.async false

/-- The state of an outcome. -/
def after : Host.Outcome State Fault Refusal → State
  | .next s => s
  | _ => State.reset

/-- The device in RUN: clocks, angle domain and PERC firmware run, nothing is configured. -/
def live : State :=
  { State.reset with
    power := { angleReset := false, romDone := true, startStep := 6 }
    perc := { running := true } }.set CPR_CLKSTAT_OK 0x3F

/-- `live` at 1,000,000 tk. -/
def late : State := { live with tb := 1000000, clock := 1000000 }

/-- A capture entry of TS `ts` and level `b`. -/
def entry (ts : Nat) (b : Bool) : CapEntry :=
  { ts := ts, ovrb := false, index := false, dir := false, dirv := false, level := b, wsat := false, width := 0 }

/-- Tracker `n` is enabled on a wheel of four entries from table entry 0, with input 0 as its source. -/
def wheel (n : Nat) (s : State) : State :=
  (((s.set (AT_WDESC0_CNT n) 4).set (AT_CTL_EN n) 1).set (TI_CFG_EN 0) 1).set (TI_CFG_DEST 0) (n + 1)

/-- A table whose values and default have a property gives it for every key. -/
theorem findAt_all {α : Type} {P : α → Prop} {d : α} (hd : P d) {l : List (Nat × α)} (h : ∀ p ∈ l, P p.2) (k : Nat) :
    P (findAt (fun _ => d) k l) := by
  induction l with
  | nil => exact hd
  | cons p l ih =>
    have hp := h p (List.mem_cons_self ..)
    have hl := ih fun q hq => h q (List.mem_cons_of_mem _ hq)
    unfold findAt
    cases Nat.beq p.1 k
    · exact hl
    · exact hp

theorem eventsNamed_of {s : State} (hc : s.update.calib = [])
    (hu : ∀ p ∈ s.units, (∀ x ∈ p.2.edges, x.ev < 1024) ∧ p.2.pulse.all (fun q => decide (q.ev < 1024)) = true)
    (hl : ∀ p ∈ s.loops, p.2.msg.all (fun m => decide (m.ev < 1024)) = true) : EventsNamed s := by
  refine ⟨hc, fun c => ?_, fun k m h => ?_⟩
  · have := findAt_all (P := fun u : OutUnit => (∀ x ∈ u.edges, x.ev < 1024) ∧ u.pulse.all (fun q => decide (q.ev < 1024)) = true)
      (d := {}) ⟨by decide, by decide⟩ hu c
    refine ⟨this.1, fun p hp => ?_⟩
    have h2 := this.2
    unfold State.unit at hp
    rw [hp] at h2
    exact of_decide_eq_true h2
  · have h2 := findAt_all (P := fun l : Loop => l.msg.all (fun m => decide (m.ev < 1024)) = true) (d := {}) (by decide) hl k
    unfold State.loop at h
    rw [h] at h2
    exact of_decide_eq_true h2

/-! ### The step, the bus -/

theorem wit_StepTakesFrontCommand : ({ live with pending := [.fence 0, .passStrobe 0] } : State).pending = .fence 0 :: [.passStrobe 0] := by
  decide

theorem wit_IdleStepIsOneTick : live.pending = [] ∧ (∀ b : Fin 5, (live.queue (2 * b)).items = []) ∧ (∀ k, (live.port k).rx = []) ∧
    live.gnorum.late = [] ∧ live.perc.memBad = false ∧ live.update.active = [] ∧ live.ring.handing = [] ∧ (∀ p ∈ live.units, p.2.drain = false ∧ p.2.safeAt = none) ∧
    (∀ p ∈ live.loops, p.2.enterAt = none) ∧ (∀ n, (live.cmp n).edges = []) ∧
    ∀ q : Fin 4, live.get (HADC_SEQCFG_TTYP q) = 4 → synced (syncState live (live.get (HADC_SEQANG_TRK q))) = true :=
  ⟨by decide, by decide, fun _ => rfl, by decide, by decide, by decide, by decide, by decide, by decide, fun _ => rfl, by decide⟩

theorem wit_SettledKept : Settled State.reset ∧ step State.reset = .next (after (step State.reset)) := by
  exact ⟨⟨by decide +kernel, by decide⟩, rfl⟩

theorem wit_SramWordWrite :
    (0x10000000 ≤ (0x10000000 : Word).toNat ∧ (0x10000000 : Word).toNat % 4 = 0 ∧ bankOff live 0x10000000 = false ∧
      Granted live 15 0x10000000 true) ∧
    (0x105FFFFC : Word).toNat < 0x10600000 ∧ (0x105FFFFC : Word).toNat % 4 = 0 ∧ bankOff live 0x105FFFFC = false ∧
      Granted live 15 0x105FFFFC true := by unfold Granted; decide

theorem wit_BusErrors : live.get ACT_BERR0_VALID = 0 ∧ (recordError 3 0xFFFFFFFC 15 true live).get ACT_BERR0_VALID = 1 ∧
    (live.set ⟨Reg.IRQC_ENSET 7, 30, 1⟩ 1).enabled 254 = true ∧ live.isActive 254 = false ∧
    (live.set ⟨Reg.IRQC_ENSET 7, 29, 1⟩ 1).enabled 253 = true ∧ live.isActive 253 = false ∧
    issues live 15 = true ∧ busAddr 15 0xFFFFFFFC = 0xFFFFFFFC ∧ placeOf 15 0xFFFFFFFC = .unmapped := by decide

theorem wit_RegisterTransferSize : issues live 15 = true ∧ placeOf 15 0x40010000 = .words ∧ AccSize.byte ≠ .word ∧ placeOf 15 0x50040002 = .words ∧
    0x50040002 % 4 ≠ 0 := by decide

theorem wit_ReadsWithEffect :
    Granted live 15 (Reg.TI_STAT 0) false ∧ Granted live 15 (Reg.TI_STAT 15) false ∧ Granted live 15 (Reg.AT_PHASEL 3) false ∧
      Granted live 15 (Reg.CAP_TSL 15) false ∧ live.get (TI_CFG_DEST 15) = 0 ∧
      ((live.putInp 15 { queue := [entry 5 true] }).inp 15).queue = [entry 5 true] ∧
      (let d : LateDrop := ⟨1000000, entry 9 true, false, false, 0, 0⟩
       let s := late.putInp 15 { queue := [entry 5 true], lateDrop := some d }
       (s.inp 15).lateDrop = some d ∧ d.tb = s.now ∧ d.more = 0 ∧ ({ s with tb := 1000001 } : State).now ≠ d.tb) ∧
      Granted live 15 (Reg.GPTt_CAP 31 1) false ∧
      (((live.putGpt 31 (({} : Gpt).putChan 1 { queue := [7] })).gpt 31).chan 1).queue = [7] ∧
      (let d : GptDrop := ⟨1000000, 8, false, 0⟩
       let s := late.putGpt 31 (({} : Gpt).putChan 1 { queue := [7], lateDrop := some d })
       ((s.gpt 31).chan 1).lateDrop = some d ∧ d.tb = s.now ∧ ({ s with tb := 1000001 } : State).now ≠ d.tb) ∧
      Granted live 15 (Reg.HADC_RES 31) false := by unfold Granted; decide

theorem wit_AngleTableWrites :
    (live.angleRuns = true ∧ Granted live 15 (toothAddr 8191 + 4) true ∧ entryInUse live 8191 = false) ∧
    (Granted (wheel 0 live) 15 (toothAddr 0) true ∧ entryInUse (wheel 0 live) 0 = true) ∧
    (live.ring.follows = [] ∧ Granted live 15 (Reg.AT_WCYL 3 23) true) ∧
    (∀ w ∈ eccWords ((0xFFFFFFFF : Word).toNat / 4 * 4), live.ecc.contains w = false) ∧
    (tcmWindow ((0x0C0DFFFF : Word).toNat / 4 * 4)).isSome = true ∧ live.soft.contains ((0x0C0DFFFF : Word).toNat / 4 * 4) = false ∧
    (sramBank ((0x10000003 : Word).toNat / 4 * 4)).isSome = true ∧ live.soft.contains ((0x10000003 : Word).toNat / 4 * 4) = false ∧
    (let x : QItem := ⟨5, 0, false, false, false⟩; ((live.putQueue 31 { items := [x] }).queue 31).items[0]? = some x) ∧
    ((live.putCore 3 { ilines := [4194304] }).core 3).ilines.contains ((0x10000003 : Word).toNat / 4 * 4 / 64) = true := by
  unfold Granted; decide

/-! ### Timed inputs -/

theorem wit_InputEdges :
    (let s := late.set (TI_CFG_EN 15) 1
     s.angleRuns = true ∧ s.flag (TI_CFG_EN 15) = true ∧ s.get (TI_CFG_MODE 15) ≠ 1 ∧ (s.inp 15).pin ≠ true) ∧
    (let s := (late.set (TI_CFG_EN 0) 1).putInp 0 { passed := [(999990, true)], lastPass := some 999990 }
     s.get (TI_CFG_EN 0) = 1 ∧ s.get (TI_CFG_MODE 0) = 0 ∧ s.get (TI_CFG_POL 0) = 0 ∧ (s.inp 0).passed = (999990, true) :: [] ∧
      999990 + captureDelay s 0 ≤ s.now ∧ (∀ t0, (s.inp 0).lastPass = some t0 → t0 + s.get (TI_FLT_BLNK (filterOwner s 0)) ≤ 999990) ∧
      (s.inp 0).queue.length < 4 ∧ s.get (TI_CFG_IDXEN 0) = 0) ∧
    (let s := ((late.set (TI_CFG_MODE 2) 3).set (TI_CFG_EN 2) 1).putInp 2 { pulse := some 5 }
     s.get (TI_CFG_MODE 2) = 3 ∧ s.get (TI_CFG_EN 2) = 1 ∧ (s.inp 2).pulse = some 5 ∧ (s.inp 2).pulseSat = false ∧
      5 + 0xFFFF + captureDelay s 2 ≤ s.now ∧ (s.inp 2).queue.length < 4) := by
  refine ⟨by decide, ⟨by decide, by decide, by decide, by decide, by decide, ?_, by decide, by decide⟩, by decide⟩
  intro t0 h
  cases h
  decide

theorem wit_InputQueues :
    (live.angleRuns = true ∧ live.get (TI_CFG_EN 15) = 0 ∧ live.get (TI_CFG_LOCK 15) = 0 ∧ inputRefused live 15 = false ∧
      live.get (TI_CFG_MODE 15) ≠ 1) ∧
    (let s := (live.set (TI_CFG_MODE 4) 3).set (TI_CFG_POL 4) 2
     s.get (TI_CFG_EN 4) = 0 ∧ s.get (TI_CFG_LOCK 4) = 0 ∧ inputRefused s 4 = true) ∧
    (let s := live.set (TI_CFG_EN 4) 1
     s.get (TI_CFG_EN 4) = 1 ∧ s.get (TI_CFG_LOCK 4) = 0 ∧ 4 ≤ (4 : Fin 16).val) ∧ filterRuns live 15 = false ∧
    (let s := ((late.set (TI_CFG_EN 9) 1).set (TI_CFG_POL 9) 2).putInp 9 { passed := [(5, false)], queue := [entry 1 true, entry 2 true, entry 3 true, entry 4 true] }
     s.get (TI_CFG_EN 9) = 1 ∧ s.get (TI_CFG_MODE 9) = 0 ∧ s.get (TI_CFG_POL 9) = 2 ∧ (s.inp 9).passed = (5, false) :: [] ∧ 5 + captureDelay s 9 ≤ s.now ∧
      (s.inp 9).lastPass = none ∧ (s.inp 9).queue.length = 4) := by decide

theorem wit_VrFrontEnds :
    (let s := live.set (TI_VRSTAT_STATE 3) 1
     s.angleRuns = true ∧ cmpPowered s 3 = false ∧ s.get (TI_VRSTAT_STATE 3) = 1 ∧ s.get (TI_VRSTAT_PCNT 3) = 0 ∧
      (s.set (TI_VRSTAT_PCNT 3) 1).get (TI_VRSTAT_STATE 3) = 1 ∧ (s.set (TI_VRSTAT_PCNT 3) 1).get (TI_VRSTAT_PCNT 3) ≠ 0 ∧ (s.set (TI_VRSTAT_STATE 3) 2).get (TI_VRSTAT_STATE 3) = 2) ∧
    (let s := ((live.set (TI_CFG_MODE 3) 1).set (CMP_CFG_EN 3) 1).set (TI_VRSTAT_STATE 3) 1
     cmpPowered s 3 = true ∧ cmpVr s 3 = true ∧ s.flag (CMP_STAT_OUT 3) ≠ true ∧
      s.get (TI_VRSTAT_PCNT 3) = 0 ∧ (s.set (TI_VRSTAT_PCNT 3) 1).get (TI_VRSTAT_PCNT 3) ≠ 0 ∧
      (s.set (TI_VRSTAT_STATE 3) 2).get (TI_VRSTAT_STATE 3) = 2 ∧ ((s.putCmp 3 { fresh := false }).cmp 3).fresh = false ∧ s.flag (CMP_STAT_OUT 3) = false ∧
      s.get (CMP_STAT_INBAND 3) = 0 ∧ (s.cmp 3).fresh = true ∧
      (s.setb (CMP_STAT_INBAND 3) true).get (CMP_STAT_INBAND 3) = 1) ∧
    (let s := (live.set (TI_VRSTAT_THR 3) 4).putInp 3 { rearmed := false }
     (s.inp 3).rearmed = false ∧ s.get (TI_VRCFG_INV 3) = 0 ∧ s.get (TI_VRCFG_ZHYS 3) ≤ 2 * s.get (TI_VRSTAT_THR 3)) ∧
    (let s := (live.set (TI_VRSTAT_STATE 0) 2).putInp 0 { armed := true, rearmed := true }
     s.get (TI_VRSTAT_STATE 0) = 2 ∧ (s.inp 0).armed = true ∧ (s.inp 0).rearmed = true ∧ (s.inp 0).timedOut = none) ∧
    ((live.putInp 0 { rearmed := false }).inp 0).rearmed = false ∧
    (let s := ((late.set (TI_VRSTAT_STATE 0) 2).set (TI_VRTO_VRTO 0) 1).putInp 0 { vrFrom := some (1000000 - 4096) }
     s.get (TI_VRSTAT_STATE 0) = 2 ∧ (s.inp 0).vrFrom = some (1000000 - 4096) ∧ s.get (TI_VRTO_VRTO 0) ≠ 0 ∧
      1000000 - 4096 + s.get (TI_VRTO_VRTO 0) * 4096 ≤ s.now) ∧
    (let s := ((late.set (TI_VRSTAT_STATE 0) 2).set (TI_VRTO_VRTO 0) 1).putInp 0
        { armed := true, rearmed := true, vrFrom := some (1000000 - 4096) }
     s.angleRuns = true ∧ s.get (TI_VRSTAT_STATE 0) = 2 ∧ (s.inp 0).armed = true ∧ (s.inp 0).rearmed = true ∧
      (s.inp 0).vrFrom = some (1000000 - 4096) ∧ s.get (TI_VRTO_VRTO 0) ≠ 0 ∧
      1000000 - 4096 + s.get (TI_VRTO_VRTO 0) * 4096 ≤ s.now ∧ cmpPowered s 0 = false ∧
      ∃ u, exec (.vrTimeout 0) s = .next u) := by
  exact ⟨by decide, ⟨by decide, by decide, by decide, by decide, by decide, by decide, by decide, by decide, by decide, by decide, by decide⟩,
    by decide, by decide, by decide, by decide,
    by decide, by decide, by decide, by decide, by decide, by decide, by decide, by decide, _, rfl⟩

/-! ### Trackers -/

theorem runs_late (n : Fin 4) : TrackerRuns late n := by revert n; unfold TrackerRuns; decide

theorem wit_TrackerRequests :
    (let s := late.set (AT_WDESC0_CNT 3) 4
     TrackerRuns s 3 ∧ s.get (AT_CTL_EN 3) = 0 ∧ rangeRefused s 3 (s.get (AT_WCFG_ACTSEL 3)) = false ∧ s.get (AT_SCFG_DIRSRC 3) ≠ 2) ∧
    (TrackerRuns late 0 ∧ late.get (AT_CTL_EN 0) = 0 ∧ rangeRefused late 0 (late.get (AT_WCFG_ACTSEL 0)) = true) ∧
    (let s := late.set (AT_WDESC1_CNT 3) 8191
     TrackerRuns s 3 ∧ s.get (AT_WCFG_SWREQ 3) = 0 ∧ rangeRefused s 3 (1 - s.get (AT_WCFG_ACTSEL 3)) = false ∧
      s.get (AT_SCFG_DIRSRC 3) ≠ 2) ∧
    late.get (AT_WCFG_SWREQ 0) = 0 ∧ rangeRefused late 0 (1 - late.get (AT_WCFG_ACTSEL 0)) = true := by
  unfold TrackerRuns; decide

theorem wit_TrackerToFinder :
    (let s := (wheel 0 late).set (AT_SSTAT_STATE 0) 4
     TrackerRuns s 0 ∧ s.get (AT_CTL_EN 0) = 1 ∧ 1 ≤ s.get (AT_SSTAT_STATE 0) ∧ s.get (AT_SSTAT_STATE 0) ≤ 4) ∧
    (let s := (({ wheel 0 late with tb := 0x100000000 }).set (AT_SSTAT_STATE 0) 1).putTrk 0 { edgeSeen := true, lastPop := 1 }
     TrackerRuns s 0 ∧ saturated s 0 = true ∧ s.get (AT_SSTAT_STATE 0) ≠ 0 ∧ s.get (AT_SSTAT_STATE 0) ≠ 6 ∧ sourceOf s 0 = some 0 ∧
      (s.inp 0).queue = [] ∧
      ({ s with tb := 0x100000001 } : State).now > ((s.trk 0).lastPop + 0xFFFFFFFF)) := by
  unfold TrackerRuns; decide

theorem wit_PhaseSetAndVirtualTooth :
    (let s := late.set (AT_SSTAT_STATE 0) 3
     TrackerRuns s 0 ∧ s.get (AT_SSTAT_STATE 0) = 3 ∧ s.get (AT_WCFG_CYCLE 0) = 0) ∧
    (late.set (AT_SSTAT_STATE 0) 4).get (AT_SSTAT_STATE 0) = 4 ∧
    (let s := (((wheel 0 late).set (AT_SSTAT_STATE 0) 3).set (AT_PSTAT_MODE 0) 0).putTrk 0 { tref := 999000, thi := 500 }
     TrackerRuns s 0 ∧ s.get (AT_CTL_EN 0) = 1 ∧ sourceOf s 0 = some 0 ∧ (s.inp 0).queue = [] ∧ (s.trk 0).suspect = none ∧
      3 ≤ s.get (AT_SSTAT_STATE 0) ∧ s.get (AT_SSTAT_STATE 0) ≤ 4 ∧ s.get (AT_PSTAT_MODE 0) = 0 ∧ (s.trk 0).adoptLeft = 0 ∧
      (s.trk 0).tref + (s.trk 0).thi + captureDelay s 0 ≤ s.now ∧ toothBad s 0 = false) := by
  unfold TrackerRuns; decide

/-- Tracker 0 in SYNC720 with one entry of TS `ts` in the queue of its source; its segment began at 999000, T_b 100, T_lo 200. -/
def tooth (ts : Nat) : State :=
  (((wheel 0 late).set (AT_SSTAT_STATE 0) 4).putTrk 0 { tref := 999000, tb := 100, tlo := 200, thi := 500 }).putInp 0
    { queue := [entry ts true] }

theorem wit_ToothEntries :
    (∀ ts : Fin 3, let s := tooth (999099 + 100 * ts)
      TrackerRuns s 0 ∧ s.get (AT_CTL_EN 0) = 1 ∧ sourceOf s 0 = some 0 ∧ (s.inp 0).queue = entry (999099 + 100 * ts) true :: [] ∧
      (entry (999099 + 100 * ts) true).ovrb = false ∧ (s.trk 0).gen = none ∧ s.ecc = [] ∧ s.get (AT_SCFG_DIRSRC 0) = 0 ∧ saturated s 0 = false ∧
      (s.inp 0).lateDrop = none ∧
      3 ≤ s.get (AT_SSTAT_STATE 0) ∧ s.get (AT_SSTAT_STATE 0) ≤ 4 ∧ (s.trk 0).suspect = none ∧ (s.trk 0).adoptLeft = 0 ∧
      999099 + 100 * ts < (s.trk 0).tref + (s.trk 0).thi ∧ (s.set (AT_PSTAT_MODE 0) 1).get (AT_PSTAT_MODE 0) = 1) ∧
    (let k := (tooth 0).trk 0
     999099 - k.tref < k.tb ∧ k.tb ≤ 999199 - k.tref ∧ 999199 - k.tref < k.tlo ∧ k.tb ≤ 999299 - k.tref ∧ k.tlo ≤ 999299 - k.tref) ∧
    (let s := ((tooth 1).set (AT_SSTAT_STATE 0) 0).set (AT_SCFG_K 0) 3
     s.get (AT_SSTAT_STATE 0) = 0 ∧ (activeWheel s 0).cnt ≠ 1 ∧ (s.trk 0).window.length < min (s.get (AT_SCFG_K 0)) (activeWheel s 0).cnt ∧
      sourceOf s 0 = some 0 ∧ (s.inp 0).queue = entry 1 true :: [] ∧ saturated s 0 = false) := by
  unfold TrackerRuns; decide

theorem wit_AccumulatorEvents :
    (let s := late.putTrk 0 { phaseTb := 1000000, catchup := some { lead := -5, ts := 999999, rate := 3, factor := 2 } }
     TrackerRuns s 0 ∧ (trackerAt s 0 s.now).catchup = some { lead := -5, ts := 999999, rate := 3, factor := 2 } ∧
      (-5 : Int) + ((3 * (s.now - 999999) : Nat) : Int) ≤ 0) ∧
    (let s := (late.set (AT_RATE_RATE 0) 7).putTrk 0 { phaseTb := 1000000, haltAt := some 0 }
     TrackerRuns s 0 ∧ (trackerAt s 0 s.now).haltAt = some 0 ∧ s.get (AT_RATE_RATE 0) ≠ 0) ∧
    (let s := ((late.set (AT_SSTAT_STATE 0) 4).set (AT_CAMCFG_CAMSRC 0) 1).putTrk 0 { phaseTb := 1000000, camAdv := 2 ^ 60 }
     TrackerRuns s 0 ∧ s.get (AT_SSTAT_STATE 0) = 4 ∧ s.get (AT_CAMCFG_CAMSRC 0) ≠ 0 ∧
      cycleLen s 0 * 2 ^ 24 ≤ (trackerAt s 0 s.now).camAdv) ∧
    (let s := late.putTrk 0 { phaseTb := 1000000, wraps := 1 }
     TrackerRuns s 0 ∧ s.get (AT_SSTAT_STATE 0) ≠ 4 ∧ 0 < (trackerAt s 0 s.now).wraps) := by
  unfold TrackerRuns; decide

/-! ### Output units and event banks -/

/-- A start and its end of event 1023 stand committed for channel 63. -/
def committed : State :=
  late.putUnit 63 { edges := [{ tb := 1000000, start := true, ev := 1023 }, { tb := 1000500, start := false, ev := 1023 }] }

/-- A pulse of event 1023 is under way on channel 63. -/
def pulsing (edges : List Edge) : State :=
  late.putUnit 63 { edges := edges, pulse := some { start := 999000, ev := 1023, maxdur := 1000 } }

theorem wit_OutputEdges :
    (let s := committed
     let x : Edge := { tb := 1000000, start := true, ev := 1023 }
     s.angleRuns = true ∧ (s.unit 63).edges = x :: [{ tb := 1000500, start := false, ev := 1023 }] ∧ x.tb ≤ s.now ∧ x.start = true ∧
      (s.unit 63).outTb ≠ some s.now ∧ (s.unit 63).chsafeTb ≠ some s.now ∧
      (((s.putUnit 63 { s.unit 63 with chsafeTb := some 1000000 }).unit 63).chsafeTb = some s.now)) ∧
    (let x : Edge := { tb := 1000000, start := false, ev := 1023 }
     let s := pulsing [x]
     (s.unit 63).edges = x :: [] ∧ x.tb ≤ s.now ∧ x.start = false ∧
      (s.unit 63).pulse = some { start := 999000, ev := 1023, maxdur := 1000 }) ∧
    (let s := pulsing []
     (s.unit 63).pulse = some { start := 999000, ev := 1023, maxdur := 1000 } ∧ 999000 + 1000 ≤ s.now ∧
      (∀ x ∈ (s.unit 63).edges, x.ev = 1023 → x.start = false → 999000 + 1000 < x.tb) ∧ s.ecc = [] ∧ EventsNamed s) := by
  exact ⟨by decide, by decide, by decide, by decide, by decide, by decide, eventsNamed_of (by decide) (by decide) (by decide)⟩

theorem wit_OutputControl :
    (let s := (committed.set (SCH_CHCFG_TRK 63) 3).set (AT_SSTAT_DIR 3) 1
     s.angleRuns = true ∧ s.get (AT_SSTAT_STATE 3) ≠ 4 ∧ EventsNamed s ∧ s.get (SCH_CHCFG_TRK 63) = 3) ∧
    (late.set (AT_SSTAT_STATE 0) 4).get (AT_SSTAT_STATE 0) = 4 ∧
    (let s := (pulsing []).set ⟨Reg.SCH_OUTENH, 31, 1⟩ 1
     EventsNamed s ∧ s.ecc = [] ∧ decide (32 ≤ (63 : Fin 64).val) = true ∧ outen s 63 = true ∧ bitAt (0 : Word).toNat (63 % 32) = false ∧
      (s.unit 63).pulse ≠ none ∧ outen s 62 = false ∧ s.hasPin 62 = true ∧ bitAt (0xFFFFFFFF : Word).toNat (62 % 32) = true) ∧
    (bitAt (0x8000000F : Word).toNat 30 = false ∧ switchRefused late (bitsAt (0x8000000F : Word).toNat 0 4) = false) ∧
    (bitAt (0x40000000 : Word).toNat 31 = false ∧ late.get SCH_BSTAT_COPYBUSY = 0) ∧
    switchRefused late (bitsAt (0x80000000 : Word).toNat 0 4) = true ∧ (late.set SCH_BSTAT_COPYBUSY 1).get SCH_BSTAT_COPYBUSY = 1 ∧
    (let s := { late.set SCH_BSTAT_COPYBUSY 1 with copyTb := 1000000 - 2731 }
     s.get SCH_BSTAT_COPYBUSY = 1 ∧ s.copyTb + 2731 ≤ s.now) := by
  refine ⟨⟨by decide, by decide, eventsNamed_of (by decide) (by decide) (by decide), by decide⟩, by decide,
    ⟨eventsNamed_of (by decide) (by decide) (by decide), by decide⟩, by decide, by decide, by decide, by decide, by decide⟩

/-! ### Event sequencers -/

/-- Sequencer 7 runs and has passed its wait. -/
def seven : State := late.set (ESQ_STAT_STATE 7) 1

theorem fetches : EsqFetches seven 7 := by unfold EsqFetches; decide

theorem wit_EsqAdvanceAndFault : EsqFetches seven 7 ∧
    (let s := seven.set (ESQ_OWN_VALID 7) 0
     EsqFetches s 7 ∧ s.get (ESQ_OWN_VALID 7) = 0) ∧
    (late.set (ESQ_STAT_STATE 0) 2).get (ESQ_STAT_STATE 0) = 2 := by unfold EsqFetches; decide

theorem wit_EsqCompute : EsqFetches seven 7 := fetches

theorem wit_EsqBranches : EsqFetches seven 7 ∧ (gp seven 7 1).toNat < 2048 ∧
    (let s := seven.set ⟨Reg.ESQ_GP 7 1, 0, 32⟩ 2048
     EsqFetches s 7 ∧ 2048 ≤ (gp s 7 1).toNat) := by
  exact ⟨fetches, by decide, by unfold EsqFetches; decide⟩

theorem wit_EsqOthers : EsqFetches seven 7 ∧
    ((gp seven 7 1 + (11263 : BitVec 18).zeroExtend 32) <<< (2 : Nat)).toNat < 0xB000 ∧
    0xB000 ≤ ((gp seven 7 1 + (11264 : BitVec 18).zeroExtend 32) <<< (2 : Nat)).toNat ∧
    (0 : BitVec 18).getLsbD 0 = false ∧ (1 : BitVec 18).getLsbD 0 = true ∧ (0 : BitVec 18).toNat = 0 ∧
    ((5 : BitVec 18).toNat / 1024 = 0 ∧ (5 : BitVec 18).toNat ≠ 0) ∧
    (let imm : BitVec 18 := BitVec.ofNat 18 (128 * 1024 + 896)
     imm.toNat / 1024 ≠ 0 ∧ seven.get (ESQ_EVRNG_BASE 7) ≤ imm.toNat % 1024 ∧
      imm.toNat % 1024 + imm.toNat / 1024 ≤ seven.get (ESQ_EVRNG_BASE 7) + seven.get (ESQ_EVRNG_CNT 7)) ∧
    (let imm : BitVec 18 := BitVec.ofNat 18 (129 * 1024 + 896)
     imm.toNat / 1024 ≠ 0 ∧ seven.get (ESQ_EVRNG_BASE 7) + seven.get (ESQ_EVRNG_CNT 7) < imm.toNat % 1024 + imm.toNat / 1024) ∧
    groupOf (seven.set (ESQ_OWN_VALID 7) 0) 7 = none ∧ groupOf seven 7 = some 7 ∧ ucodeIllegal (0xFFFFFFFF : Word).toNat = true ∧
    ucodeIllegal (0x00000001 : Word).toNat = true := by
  exact ⟨fetches, by decide⟩

theorem wit_EsqControl : EventsNamed (late.set (ESQ_STAT_STATE 7) 1) ∧
    (late.angleRuns = true ∧ late.hasEsq 0 = true ∧ late.get (ESQ_CTL_RUN 0) = 0 ∧ runRefused late 0 = false) ∧
    runRefused (late.set (ESQ_STAT_STATE 0) 2) 0 = true ∧
    (late.set (ESQ_CTL_RUN 7) 1).get (ESQ_CTL_RUN 7) = 1 ∧
    (late.get (ESQ_CTL_UBREQ 0) = 0 ∧ late.get (ESQ_STAT_STATE 0) = 0 ∧
      (late.set (ESQ_OWN_VALID 0) 0).get (ESQ_OWN_VALID 0) = 0) ∧
    late.get (ESQ_OWN_VALID 0) = 1 ∧
    (let s := (late.set (ESQ_STAT_STATE 7) 3).putEsq 7 { testTb := 950000 }
     s.get (ESQ_STAT_STATE 7) = 3 ∧ (s.esq 7).testTb + 50000 ≤ s.now) ∧
    ownRefused late 0 true 0 = false ∧ ownRefused late 0 true 7 = true ∧ ownRefused (late.set (ESQ_STAT_STATE 0) 1) 0 true 0 = true ∧
    (let s := (late.set (ESQ_STAT_STATE 7) 1).putEsq 7 { wait := .wpass }
     s.now % 64 = 0 ∧ (s.esq 0).passTb ≠ some s.now ∧ s.hasEsq 7 = true ∧ (∀ m : Fin 8, m ≠ 7 → s.get (ESQ_STAT_STATE m) ≠ 1) ∧
      (s.get (ESQ_STAT_STATE 7) = 1 → (s.esq 7).wait = .wpass ∧ (s.esq 7).cycle ≤ 2 * (s.now - (s.esq 7).retTb)) ∧
      s.get (ESQ_CTL_UBREQ 7) = 0) ∧
    ((0x7F : BitVec 8).getLsbD 7 = false ∧ (0x80 : BitVec 8).getLsbD 7 = true) ∧
    (let s := late.set (ESQ_STAT_STATE 7) 1
     s.get (ESQ_STAT_STATE 7) = 1 ∧ coasting s = true ∧ s.get (ESQ_CFG_COASTMAX 7) ≤ (s.set (ESQ_STAT_COASTCNT 7) 255).get (ESQ_STAT_COASTCNT 7)) := by
  exact ⟨eventsNamed_of (by decide) (by decide) (by decide), by decide⟩

/-- A parity error in the snapshot of the one running sequencer: fault ABUSP, cause 7 (R145). -/
theorem test_passStrobe_parity :
    (let t := passStrobe 0x80 ((late.set (ESQ_STAT_STATE 7) 1).putEsq 7 { wait := .wpass })
     (t.get (ESQ_FLT_ABUSP 7), t.get (ESQ_FLT_CAUSE 7), t.get (ESQ_STAT_STATE 7))) = (1, 7, 2) := by
  decide +kernel

/-! ### Current regulation loops -/

def message : StartMsg :=
  { ev := 1023, chan := 0, dur := 0, dtrim := 0, dprime := 0, prof := 0, cyl := 23, pulse := 7, closefb := true, start := 999000 }

/-- Loop 0 in state `st` with parts `l`; its profile 0 has one phase of KIND `kind`, TMAX `tmax`, FTMAX set, and a watch window of 64 samples
decimated by 2. -/
def loop0 (st kind tmax : Nat) (l : Loop) : State :=
  ((((((((late.set (CRL_STAT_STATE 0) st).putLoop 0 l).wrn 0x50090400 0x80000001).wrn 0x50090410 (kind * 2 ^ 30 + 2 ^ 26)).wrn 0x50090414
    tmax).wrn 0x50090470 (0x80000000 + 2 * 2 ^ 24 + 4 * 2 ^ 16)).wrn 0x50090474 1280).set ⟨Reg.SCH_OUTENL, 0, 1⟩ 1)

/-- The upper or lower comparator of loop 0 reads 1. -/
def upper0 (s : State) : State := s.set (CMP_STAT_OUT 4) 1
def lower0 (s : State) : State := s.set (CMP_STAT_OUT 5) 1

theorem named0 (st kind tmax : Nat) (l : Loop) (h : l.msg.all (fun m => decide (m.ev < 1024)) = true) :
    EventsNamed (loop0 st kind tmax l) :=
  eventsNamed_of rfl (fun p h => by cases h) (fun p hp => by
    rcases List.mem_cons.1 (show p ∈ [(0, l)] from hp) with rfl | hp
    · exact h
    · cases hp)

theorem wit_LoopRegulation :
    (let s := loop0 1 0 100 {}
     s.angleRuns = true ∧ s.hasLoop 0 = true ∧ startAllowed s message.chan = true ∧ message.prof < 12 ∧ s.get (CRL_STAT_STATE 0) = 1 ∧
      EventsNamed s ∧ profBad s (profAddr 0 (s.flag (CRL_STAT_PBK 0)) message.prof) = false ∧
      profBad s (profAddr 0 (s.flag (CRL_STAT_PBK 0)) { message with prof := 11 }.prof) = true) ∧
    (let s := loop0 2 0 100 { enterAt := some 1000000 }
     (s.loop 0).enterAt = some 1000000 ∧ 1000000 ≤ s.now ∧ wordsBad s (phaseWords (loopProf s 0) 0) = false) ∧
    (let s := (loop0 2 0 100 { blankTo := 1000001 }).set (CRL_CFG_EN 0) 1
     cmpLoop s 4 = true ∧ cmpLoop s 5 = true ∧ s.hasLoop 0 = true ∧ s.now < (s.loop 0).blankTo ∧ s.get (CRL_STAT_STATE 0) = 2 ∧ ((late.putLoop 0 { enterAt := some 5 }).loop 0).enterAt ≠ none ∧
      late.get (CRL_STAT_STATE 0) ≠ 2 ∧ (loop0 2 0 100 { phaseTb := 1000000, blankTo := 1000000 }).flag (CMP_STAT_OUT 4) = false) ∧
    (let s := (committed.putLoop 6 { msg := some { message with chan := 63 } }).putUnit 63
       { edges := [{ tb := 1000000, start := false, ev := 1023 }], pulse := some { start := 999000, ev := 1023, maxdur := 100000 } }
     s.angleRuns = true ∧ endDue s 6 = true) ∧
    (let s := upper0 (loop0 2 0 100 { phaseTb := 1000000, blankTo := 1000000 })
     s.get (CRL_STAT_STATE 0) = 2 ∧ (s.loop 0).blankTo ≤ s.now ∧ phaseKind s (loopProf s 0) (s.get (CRL_STAT_PHASE 0)) = 0 ∧
      s.flag (CMP_STAT_OUT 4) = true ∧ (s.loop 0).enterAt = none ∧ endDue s 0 = false ∧ (s.loop 0).phaseTb + (s.set (CRL_LIM_TMIN 0) 0).get (CRL_LIM_TMIN 0) ≤ s.now ∧
      s.now < (s.loop 0).phaseTb + s.get (CRL_LIM_TMIN 0)) ∧
    (let s := loop0 2 1 100 { srcOn := true }
     phaseKind s (loopProf s 0) (s.get (CRL_STAT_PHASE 0)) = 1 ∧ (upper0 s).flag (CMP_STAT_OUT 4) = true ∧ (s.loop 0).srcOn = true ∧
      s.flag (CMP_STAT_OUT 5) = false ∧ ((loop0 2 1 100 {}).loop 0).srcOn = false ∧
      phaseKind (loop0 2 2 100 {}) (loopProf s 0) 0 = 2) ∧
    (let s := loop0 2 0 100 { phaseTb := 999900 }
     bitsAt (phaseWord s (loopProf s 0) 0 1) 0 24 ≠ 0 ∧ (s.loop 0).phaseTb + bitsAt (phaseWord s (loopProf s 0) 0 1) 0 24 ≤ s.now ∧
      s.get (CRL_STAT_PHASE 0) + 1 = profPhases s (loopProf s 0)) ∧
    (let s := upper0 (loop0 2 0 100 { wait2 := true, ovcTo := some 1000000 })
     ((s.loop 0).wait0 || (s.loop 0).wait1 || (s.loop 0).wait2) = true ∧ (s.loop 0).ovcTo = some 1000000 ∧ 1000000 ≤ s.now ∧
      s.flag (CMP_STAT_OUT 4) = true ∧ (loop0 2 0 100 {}).flag (CMP_STAT_OUT 4) = false ∧ s.get (CRL_STAT_STATE 0) ≠ 0 ∧
      s.get (CRL_STAT_STATE 0) ≠ 6 ∧ s.get (CRL_STAT_STATE 0) ≠ 8 ∧ (loop0 6 0 100 {}).get (CRL_STAT_STATE 0) = 6) := by
  exact ⟨⟨by decide, by decide, by decide, by decide, by decide, named0 1 0 100 {} rfl, by decide, by decide⟩, by decide⟩

theorem wit_LoopWatch :
    (let s := loop0 2 0 100 { msg := some message }
     (s.loop 0).msg = some message ∧ s.get (CRL_STAT_STATE 0) = 2 ∧ wordsBad s (endWords s (loopProf s 0)) = false ∧
      bitAt (endWord s (loopProf s 0) 0) 31 = true) ∧
    watchCount ((loop0 4 0 100 {}).wrn 0x50090474 0) (loopProf (loop0 4 0 100 {}) 0) = 0 ∧
    (let s := loop0 4 0 100 { tw0 := 1000000 }
     s.angleRuns = true ∧ s.get (CRL_STAT_STATE 0) = 4 ∧ (s.loop 0).opened = false ∧ (s.loop 0).tw0 ≤ s.now ∧
      watchCount s (loopProf s 0) ≠ 0) ∧
    (let s := loop0 4 0 100 { tw0 := 999000, opened := true, convs := 100, stored := 63 }
     (s.loop 0).opened = true ∧ (s.loop 0).tw0 + 10 * (s.loop 0).convs ≤ s.now ∧
      (s.loop 0).convs % bitsAt (endWord s (loopProf s 0) 0) 24 4 = 0 ∧ (s.loop 0).stored < 1024 ∧
      (s.loop 0).stored + 1 = watchCount s (loopProf s 0)) ∧
    (let s := loop0 4 0 100 { tw0 := 999000, opened := true, convs := 99, stored := 50 }
     (s.loop 0).tw0 + 10 * (s.loop 0).convs ≤ s.now ∧ (s.loop 0).convs % bitsAt (endWord s (loopProf s 0) 0) 24 4 ≠ 0) ∧
    (let s := loop0 5 0 100 { msg := some message, stored := 64 }
     s.get (CRL_STAT_STATE 0) = 5 ∧ (s.loop 0).msg = some message ∧ wordsBad s (endWords s (loopProf s 0)) = false ∧ EventsNamed s ∧ message.start < 2 ^ 32 ∧ message.prof < 16 ∧
      message.pulse < 8 ∧ message.cyl < 32 ∧ closureTime s 0 = some 80 ∧
      closureTime (s.wrn 0x50090470 (0x80000000 + 2 * 2 ^ 24 + 4 * 2 ^ 16 + 1023)) 0 = none) := by
  exact ⟨by decide, by decide, by decide, by decide, by decide, by decide, by decide, by decide, named0 5 0 100 _ rfl, by decide⟩

theorem wit_LoopControl :
    (late.angleRuns = true ∧ late.hasLoop 0 = true ∧ late.get (CRL_CFG_EN 0) = 0 ∧ late.get (CRL_STAT_STATE 0) = 0 ∧ late.update.calib = []) ∧
    (late.set (CRL_CFG_EN 11) 1).get (CRL_CFG_EN 11) = 1 ∧ (loop0 8 0 0 {}).get (CRL_STAT_STATE 0) = 8 ∧
    (late.get (CRL_CTL_CALREQ 0) = 0 ∧ late.get (CRL_STAT_STATE 0) ≠ 7 ∧ late.get (CRL_STAT_STATE 0) ≠ 8) ∧
    (let s := (loop0 1 0 0 { idleTb := 960000 }).set (CRL_STAT_CALST 0) 4
     loopRested s 0 = true ∧ s.get (CRL_STAT_CALST 0) = 4) ∧
    (let s := loop0 7 0 0 { calTb := 999160 }
     s.hasLoop 0 = true ∧ s.get (CRL_CFG_EN 0) = 0 ∧ s.update.calib = [] ∧ s.get (CRL_STAT_STATE 0) = 7 ∧ (s.loop 0).calTb + 840 ≤ s.now ∧ -128 ≤ rnd (127 * 64 + 31) 64 ∧ rnd (127 * 64 + 31) 64 ≤ 127 ∧
      ¬ rnd (127 * 64 + 32) 64 ≤ 127) ∧
    (let s := { (loop0 2 0 0 {}).set (CRL_STAT_CALST 0) 1 with tb := 200000000 }
     s.get (CRL_STAT_CALST 0) = 1 ∧ (s.loop 0).calReqTb + 200000000 ≤ s.now) ∧
    late.hasCse 0 = true ∧ late.get (CSE_CTL_PBREQ 0) = 0 ∧ late.get (CSE_STAT_PBPEND 0) = 0 := by decide

/-! ### Pressure path -/

/-- The engine parameters that CTL.RUN checks, each at the edge of what is allowed; N = 16. -/
def engine (s : State) : State :=
  ((((((((s.set CAE_BORE_BORE 0x3F800000).set CAE_STROKE_STROKE 0x3F800000).set CAE_ROD_ROD 0x3F800000).wr Reg.CAE_CR 0x41200000).set
    CAE_PEG_JA 2).set CAE_PEG_JB 13).set CAE_KWIN_KJS 2).set CAE_KWIN_KJE 13).set PADC_CFG_N 16

def window : Window := { next := 5, seq := 3, filled := false, clip := false, tbOpen := 900000, tbLast := 990000 }
def conv : Conv := { win := 1, idx := 4, fill := false, more := false, ord := 0, tb := 999944 }
def closed : Closed := { cyl := 23, seq := 3, tbOpen := 900000, tbClose := 992000, tbStored := 992000, filled := false, clip := false }

theorem wit_PressureConverters :
    (let s := { engine late with padc := { queue3 := [conv], windows := [(1, window)] } }
     s.angleRuns = true ∧ s.padc.queue 3 = conv :: [] ∧ conv.more = false ∧ conv.fill = false ∧ s.padc.window conv.win = some window ∧
      conv.idx + 1 ≠ padcN s ∧ conv.tb + 56 + 50 * conv.ord ≤ s.now) ∧
    (late.hasCae = true ∧ late.get PADC_CFG_EN = 0 ∧ padcRefused ((engine late).set PADC_CFG_N 15) = true ∧ padcRefused (engine late) = false) ∧
    (late.clockOk 2 = true ∧ (late.set CPR_CLKSTAT_OK 0x3B).clockOk 2 = false ∧ late.get PADC_CAL_BUSY = 0 ∧ late.get PADC_CAL_PEND = 0 ∧ late.get PADC_CFG_EN = 0 ∧
      ((late.set PADC_CFG_EN 1).set PADC_LOAD_LOAD 9).get PADC_LOAD_LOAD ≤ 9) ∧
    (let s := (engine late).set PADC_CAL_BUSY 8
     bitAt (s.get PADC_CAL_BUSY) 3 = true ∧ s.get PADC_CAL_PEND = 0 ∧ s.padc.calTb + 600000 ≤ s.time) ∧
    (let s := { late.set PADC_CAL_ROTP 1 with clock := 2000000 }
     s.hasCae = true ∧ s.get PADC_CAL_ROTP ≠ 0 ∧ s.padc.rotTb + 2000000 * s.get PADC_CAL_ROTP ≤ s.time) ∧
    (let s := { ((engine late).set PADC_CFG_EN 1).set (AT_SSTAT_STATE 0) 4 with padc := { lastMark := some 0 } }
     s.get PADC_CFG_EN = 1 ∧ s.get (AT_SSTAT_STATE (s.get PADC_CFG_TRK)) = 4 ∧ s.get (AT_SSTAT_DIR (s.get PADC_CFG_TRK)) = 0 ∧
      s.padc.lastMark = some 0 ∧ markPlace s (angleOf (trackerSync (s.get PADC_CFG_TRK) s) (s.get PADC_CFG_TRK)) = 0 ∧
      2 * 1 < marksPerCycle s) := by decide

theorem wit_CombustionAnalysis :
    (let s := engine late
     s.angleRuns = true ∧ s.hasCae = true ∧ s.get CAE_CTL_RUN = 0 ∧ s.get CAE_STAT2_STATE = 0 ∧ caeRunFault s = none ∧ padcN s ≤ 4096) ∧
    caeRunFault late ≠ none ∧ (late.set CAE_STAT2_STATE 2).get CAE_STAT2_STATE = 2 ∧
    (let s := { (engine late).set CAE_STAT2_STATE 1 with cae := { closed := [closed] } }
     s.sysClock = true ∧ s.get CAE_STAT2_STATE = 1 ∧ s.cae.closed = closed :: [] ∧ closed.cyl = 23 ∧ kernelEcc s = false ∧
      closed ∈ s.cae.closed ∧ closed.tbStored + 8000 ≤ s.now ∧ s.cae.closed ≠ []) ∧
    late.cae.closed = [] ∧ late.get CAE_STAT2_STATE ≠ 2 ∧
    (let s := ((late.putPhase 23 { reply := some 0 }).set (CAE_CYLW2_EVBV 23) 1).set (ACT_IMASK_FMASK 0 4) 0xFFF
     s.get (CAE_CYLW2_EVBV 23) = 1 ∧ (caeTrim (s.get (CAE_CYLW2_EVB 23)) (s.phase 23).written (s.putPhase 23 { reply := none })).1 = 0) ∧
    (let s := (late.putPhase 23 { reply := some 0 }).set (CAE_CYLW2_EVBV 23) 1
     s.get (CAE_CYLW2_EVBV 23) = 1 ∧ (caeTrim (s.get (CAE_CYLW2_EVB 23)) (s.phase 23).written (s.putPhase 23 { reply := none })).1 ≠ 0 ∧
      (caeTrim (s.get (CAE_CYLW2_EVB 23)) (s.phase 23).written (s.putPhase 23 { reply := none })).1 ≠ 0x0310) ∧
    (let s := (late.putPhase 23 { reply := some 0x0310 }).set (CAE_CYLW3_PHST 23) 1
     (s.phase 23).reply = some 0x0310 ∧ s.get (CAE_CYLW3_PHST 23) ≠ 0 ∧ s.get (CAE_CYLW2_EVBV 23) = 0) ∧
    (let s := (late.putPhase 23 { reply := some 0x0401 }).set (CAE_CYLW3_PHST 23) 1
     (s.phase 23).reply = some 0x0401 ∧ (0x0401 : BitVec 16) ≠ 0 ∧ (0x0401 : BitVec 16) ≠ 0x0310) := by decide

/-! ### Timers, housekeeping converter, comparators -/

theorem wit_Timers :
    (late.angleRuns = true ∧ (0x80000001 : Word).getLsbD 31 = true ∧ (0x80000001 : Word).getLsbD 1 = false) ∧
    (let s := (late.set (GPTt_CTL_RUN 31) 1).putGpt 31 { from_ := 999000, per := 999 }
     gptEndDue s 31 = true) ∧
    (let s := ((late.set (GPTt_CTL_RUN 31) 1).set (GPTt_CCFG_MODE 31 1) 1).putGpt 31
       { from_ := 999000, per := 5000, ch1 := { cmp := 1000, fired := false } }
     gptCompareDue s 31 1 = true) ∧
    (let s := { late with tb := 0x100000000 }.putGpt 0 { ch1 := { widthFrom := some 0 } }
     ((s.gpt 0).chan 1).widthFrom = some 0 ∧ 0xFFFFFFFF ≤ gptTicks s 0 s.now - gptTicks s 0 0 ∧ ((s.gpt 0).chan 1).queue.length < 4) ∧
    (late.counts.carafe = true ∧ ringBrewPending late = false ∧ ringBrewPending (late.set RING_CTL_EN 1) = false ∧
      ({ late with fuses := { late.fuses with variant := 1 } } : State).counts.carafe = false) ∧
    (let s := { late with ring := { starts := [{ kind := 0, target := 0, tbs := 1000000, own := true, job := 0 }] } }
     ringBrewPending s = true ∧ ringDue s 0 ≠ []) ∧
    (late.set RING_CTL_EN 1).get RING_CTL_EN = 1 := by decide

theorem wit_HousekeepingConverter :
    (let s := (late.set HADC_CTL_EN 1).set (HADC_SEQCFG_EN 3) 1
     s.get HADC_CTL_EN = 1 ∧ (8 : BitVec 4).getLsbD 3 = true ∧ s.get (HADC_SEQCFG_EN 3) = 1 ∧ (s.seqOf 3).active = false ∧
      ((s.putSeq 3 { active := true }).seqOf 3).active = true ∧ s.get (HADC_SEQCFG_EN 0) = 0) ∧
    (let s := (late.set (HADC_SEQCFG_TTYP 3) 4).putSeq 3 { mark := -1 }
     s.angleRuns = true ∧ s.get (HADC_SEQCFG_TTYP 3) = 4 ∧ s.get (AT_PSTAT_HALT (s.get (HADC_SEQANG_TRK 3))) = 0 ∧
      synced (syncState s (s.get (HADC_SEQANG_TRK 3))) = false ∧
      let u := s.set (AT_SSTAT_STATE 0) 4
      synced (syncState u (u.get (HADC_SEQANG_TRK 3))) = true ∧
        (u.seqOf 3).mark < (trackerAt u 0 u.now).travel - (pastBy u 0 (u.get (HADC_SEQANG_ANG 3)) : Nat)) ∧
    (let s := (late.set HADC_CTL_EN 1).putSeq 2 { active := true, due := 1000000 }
     (s.seqOf 2).active = true ∧ (s.seqOf 2).ready = false ∧ (s.seqOf 2).held = false ∧ (s.seqOf 2).due ≤ s.time ∧
      s.get HADC_STAT_BUSY = 0 ∧ s.get HADC_CTL_EN = 1 ∧ s.clockOk 2 = true ∧ ∀ r : Fin 4, r ≠ 2 → (s.seqOf r).active = false) ∧
    (let s := { ((late.set HADC_STAT_BUSY 1).set (HADC_ENT_RPT 31) 3).putSeq 0 { active := true, entry := 31, convs := 6 } with
       hadc.convTb := 999900 }
     s.get HADC_STAT_BUSY = 1 ∧ s.hadc.convTb + 100 ≤ s.time) ∧
    (let s := { (late.set HADC_STAT_BUSY 1).set (HADC_ENT_RPT 31) 3 with
       hadc := { convTb := 999900, seqs := [(0, { active := true, entry := 31, convs := 6 })] } }
     s.hadc.paused = false ∧ s.hadc.convTb + 100 ≤ s.time ∧ (s.seqOf (s.get HADC_STAT_ACTSEQ)).convs + 1 < 2 ^ s.get (HADC_ENT_RPT 31) ∧
      (s.seqOf (s.get HADC_STAT_ACTSEQ)).stop = false ∧ 2 ^ s.get (HADC_ENT_RPT 31) ≤ 7 + 1 ∧ (s.seqOf 0).entry < 32) ∧
    (late.get HADC_STAT_CALST ≠ 1 ∧ late.get HADC_CTL_EN = 0 ∧ (late.set HADC_CTL_EN 1).get HADC_CTL_EN = 1) ∧
    (let s := late.set HADC_STAT_CALST 1
     s.get HADC_STAT_CALST = 1 ∧ s.clockOk 2 = true ∧ inGap s = true ∧ max s.hadc.calTb (gapFrom s) + 100 ≤ s.time ∧ s.get HADC_STAT_CALSTEP < 31 ∧
      (s.set HADC_STAT_CALSTEP 31).get HADC_STAT_CALSTEP = 31 ∧ s.hadc.calTb + 2000000 ≤ ({ s with clock := 2000000 } : State).time) := by
  decide

theorem wit_Comparators :
    (let s := (late.set (CMP_CFG_EN 47) 1).putCmp 47 { fresh := false }
     cmpPowered s 47 = true ∧ (s.cmp 47).fresh = false ∧ cmpLoop s 47 = false ∧
      ((s.set (CMP_STAT_OUT 47) 1).set (CMP_CFG_EDGE 47) 1).flag (CMP_STAT_OUT 47) = true ∧ (-1 : Int) < cmpLow s 47 ∧ (cmpHigh s 47 : Int) < 1024) ∧
    (let s := (loop0 1 0 100 {}).set (CRL_CFG_EN 0) 1
     cmpLoop s 4 = true ∧ cmpPresent s 4 = true ∧ ((s.putCmp 4 { fresh := false }).cmp 4).fresh = false ∧ s.angleRuns = true) ∧
    cmpPresent late 47 = true ∧
    (cmpPresent late 0 = true ∧ late.get (CMP_CFG_EN 0) = 0 ∧ cmpLoop late 0 = false ∧ (late.get CPR_PWRSTAT_STATE < 3 ∧ (late.set (CMP_CFG_AON 0) 1).get (CMP_CFG_AON 0) = 1)) ∧
    thrOk 47 0x03FF03FF = true ∧ thrOk 47 0x00000001 = false ∧ thrOk 3 0x00FF0000 = true ∧ thrOk 3 0x01000000 = false := by decide

/-! ### Requests -/

/-- `late` with every opcode family open to the pairs and to PERC, and port 0 at security level 1 of the fallback profile. -/
def open_ : State := (late.set (ACT_IMASK_FMASK 0 0) 0xFFF).set (ACT_IMASK_FMASK 0 4) 0xFFF

/-- A request of pair A. -/
def rq (opc : BitVec 8) (unit : BitVec 8) (params : List Word) : Req :=
  { src := .mailbox 0, opc := opc, flg := 0, seq := 1, len := BitVec.ofNat 16 params.length, unit := unit, sess := 0, params := params,
    tag := none }

/-- The request is accepted in `s` and executed on `s` itself. -/
def takes (s : State) (q : Req) : Prop := Accepted q s s

/-- `takes`, for the evaluator. -/
def takesB (s : State) (q : Req) : Bool :=
  decide (requestsBefore q.src s = s) && decide (requestsTake s = s) && listening s q.src && lengthAgrees q && bitAt q.flg.toNat 7 == false && isChained q == false && isStaged q == false &&
    (chainOf s q.src).isNone && decide (frontCheck q s = (.pass, s)) && !s.power.angleReset && s.perc.running && s.gnorum.slow.isEmpty

theorem takes_of {s : State} {q : Req} (h : takesB s q = true) : takes s q := by
  simp only [takesB, Bool.and_eq_true, beq_iff_eq, Option.isNone_iff_eq_none, decide_eq_true_eq, Bool.not_eq_true',
    List.isEmpty_iff] at h
  obtain ⟨⟨⟨⟨⟨⟨⟨⟨⟨⟨⟨l, m⟩, a⟩, b⟩, c⟩, d⟩, e⟩, f⟩, g⟩, i⟩, j⟩, k⟩ := h
  have hi : s.power.angleReset = true → opcAngle q.opc.toNat = false := fun x => absurd (i.symm.trans x) (by decide)
  unfold takes Accepted
  rw [l]
  dsimp only
  rw [g]
  cases hf : isFast q
  · exact ⟨a, b, c, d, e, f, rfl, hi, .inr ⟨rfl, j, k, m.symm, hi⟩⟩
  · exact ⟨a, b, c, d, e, f, rfl, hi, .inl ⟨rfl, rfl⟩⟩

theorem all_of {s : State} {l : List Req} (h : l.all (takesB s) = true) : ∀ q ∈ l, takes s q :=
  fun q hq => takes_of (List.all_eq_true.1 h q hq)

/-- A mailbox queue that takes pushes, with ten credits. -/
def boxed (q : Nat) (s : State) : State :=
  ((s.set (Q_CFG_EN q) 1).set (Q_CFG_PMID q) 63).putQueue q { cred := 10 }

theorem wit_RequestPath :
    boxOpen live 4 = false ∧
    (let s := (boxed 8 live).set (CPR_PAIRCTL_SPLIT 1) 1
     listening s (.mailbox 4) = true ∧ s.get (Q_CFG_EN (2 * 4)) = 1 ∧
      queueProducer s (2 * 4) (boxMid 4) = true ∧ s.get (Q_CFG_MODE (2 * 4)) = 0 ∧ (s.queue (2 * 4)).items = [] ∧
      (s.queue (2 * 4)).cred ≠ 0 ∧ boxRequest 4 (s.box 4 ++ [0x00010000]) = none ∧
      let u := s.putBox 4 [0x00010000]
      (boxRequest 4 (u.box 4 ++ [0])).isSome = true ∧ u.box (8 + 4) = [] ∧
        (boxRequest 4 (u.box 4 ++ [0])).all (fun r => !bitAt r.flg.toNat 7) = true) ∧
    (let s := { late with gnorum := { chains := [{ src := .hspi 0, reqs := [], lastTb := 799999 }] } }
     chainOf s (.hspi 0) = some { src := .hspi 0, reqs := [], lastTb := 799999 } ∧ 799999 + 200000 < s.time) ∧
    (let s := { late with gnorum := { slow := [rq 0 0 []] } }
     s.perc.running = true ∧ s.get CPR_PWRSTAT_STATE < 3 ∧ s.gnorum.slow ≠ []) ∧
    (late.angleRuns = true ∧ late.get (AT_SSTAT_STATE 3) ≠ 4) ∧
    (let s := boxed 1 live
     (rq 0 0 []).src = .mailbox 0 ∧ bitAt (rq 0 0 []).flg.toNat 1 = false ∧ s.get (Q_CFG_EN (2 * 0 + 1)) = 1 ∧
      queueProducer s (2 * 0 + 1) 16 = true ∧ s.get (Q_CFG_MODE (2 * 0 + 1)) = 0 ∧
      ({ status := 0, words := [1, 2, 3, 4, 5, 6, 7] } : Ans).words.length + 3 ≤ (s.queue (2 * 0 + 1)).cred ∧
      (∀ x ∈ s.gnorum.late, x.src ≠ (rq 0 0 []).src) ∧ (rq 0 0 []).opc ≠ 0x68) := by decide

/-- Of a PING request with SEQ 1. -/
def pingBytes : List Byte := [0, 0, 1, 0, 0, 0, 0, 0]

theorem wit_ExternalPorts :
    (listening live (.hspi 1) = true ∧ (List.replicate 12 (0 : Byte)).length = 8 + 4 ∧ (List.replicate 1020 (0 : Byte)).length = 1016 + 4) ∧
    (8 ≤ pingBytes.length ∧ [(0 : Byte), 0, 0, 0].length = 4 ∧ [(0 : Byte), 0, 0, 0] ≠ wordBytes (crc32c pingBytes)) ∧
    (packetRequest (.hspi 0) pingBytes).isSome = true ∧
    ((live.port 0).rx.length < 8 ∧ (⟨true, false, false, false, .arp 0⟩ : EthFrame).badFcs = true ∧
      (⟨false, false, false, false, .arp 0⟩ : EthFrame).kind = .arp 0) ∧
    (listening live (.eth 1 0 0) = true ∧ live.gnorum.ip = 0) ∧
    (let s := live.putPort 3 { replies := [⟨.eth 1 0 0, 0, 1, 0, 0, 0, 0, [], none⟩] }
     (s.port (2 + 1)).replies = ⟨.eth 1 0 0, 0, 1, 0, 0, 0, 0, [], none⟩ :: []) ∧
    (let s := (live.set (CAN_GREQ_GREQ 3) 0x1FFFFFFF).set (CAN_GID_IDE 3) 1
     let f : CanFrame := { id := 0x1FFFFFFF, ide := true, fd := true, data := 0x40#8 :: List.replicate 63 0 }
     listening s (.can 3) = true ∧ f.id.toNat = s.get (CAN_GREQ_GREQ 3) ∧ f.ide = s.flag (CAN_GID_IDE 3) ∧ f.fd = true ∧
      f.data = 0x40#8 :: List.replicate 63 0 ∧ (List.replicate 63 (0 : Byte)).length = 63 ∧ (s.port (4 + 3)).part = none) ∧
    (let s := { live.putPort 7 { part := some ([], 1, 0) } with clock := 2000001 }
     (s.port (4 + 3)).part = some ([], 1, 0) ∧ 0 + 2000000 < s.time) ∧
    (let s := live.putPort 7 { replies := [⟨.can 3, 0, 1, 0, 0, 0, 0, [], none⟩] }
     (s.port (4 + 3)).replies = ⟨.can 3, 0, 1, 0, 0, 0, 0, [], none⟩ :: []) ∧
    (listening live (.uart 1 false) = true ∧ unescape [0x01, 0x02] = some (0x01 :: [0x02]) ∧ (0x01 : Byte) ≠ 0xFF ∧
      (0x01 : Byte).toNat = (live.set (UART_ADDR_ADDR 1) 1).get (UART_ADDR_ADDR 1)) := by
  decide +kernel

/-- `open_` with a region that grants pair A everything below 0x80000000. -/
def granted : State := ((open_.wr (Reg.ACT_RGN0 0 0) 0xF81).wr (Reg.ACT_RMASK0 0 0) 1).wr (Reg.ACT_WMASK0 0 0) 1

theorem wit_SystemOpcodes :
    (∀ q ∈ [rq 0x00 0 [], rq 0x01 0 [], rq 0x02 0 [], rq 0x03 0 [0x40010000, 64], rq 0x03 0 [0x40010000, 0], rq 0x03 0 [0x40010000, 65],
      rq 0x04 0 [0x50060000, 0, 0], rq 0x05 0 [15], rq 0x06 2 [0], rq 0x06 1 [1]], takes open_ q) ∧
    (∀ q ∈ [rq 0x03 0 [0x40010000, 64], rq 0x04 0 [0x50060000, 0, 0], rq 0x04 0 [0x10000000, 0, 0]], takes granted q) ∧
    (mayClear open_ 0x50060000 = false ∧ mayWrite open_ 0 0x50000208 = false ∧ mayClear open_ 0x50000208 = true ∧ mayWrite granted 0 0x10000000 = true ∧
      placeOf 15 0x10000000 = .bytes ∧ (busWrite 15 0x10000000 .word 0 granted).1 = true) ∧
    (reqMid granted (.mailbox 0) = 0 ∧ (peekWords granted 0 (wordAddrs 0x40010000 64) 0).isRight = true ∧
      (peekWords open_ 0 (wordAddrs 0x40010000 64) 0).isLeft = true ∧ mayWrite open_ 0 0x50060000 = false ∧
      mayWrite granted 0 0x50060000 = true ∧ placeOf 15 0x50060000 ≠ .bytes ∧
      (imageWrite 0x50060000 (maskedValue granted 0x50060000 0 0) granted).1 = false) ∧
    (open_.job 15).st = .free ∧
    (let s := open_.putJob 15 { st := .running, owner := .mailbox 0 }
     takes s (rq 0x05 0 [15]) ∧ (s.job 15).st = .running ∧ (s.job 15).owner = .mailbox 0) ∧
    (let s := open_.putJob 15 { st := .ended, owner := .mailbox 0 }
     takes s (rq 0x05 0 [15]) ∧ (s.job 15).st = .ended ∧ (s.job 15).endTb ≠ s.time ∧ (s.job 15).owner = .mailbox 0 ∧
      ((s.putJob 15 { st := .ended, owner := .mailbox 0, endTb := 1000000 }).job 15).endTb = s.time) ∧
    (let s := { granted with ecc := [0x10000000] }
     takes s (rq 0x04 0 [0x10000000, 0, 0]) ∧ mayWrite s 0 0x10000000 = true ∧ placeOf 15 0x10000000 = .bytes ∧ wordBad s 0x10000000 = true) ∧
    (silentRefusal 0x50060000 (maskedValue granted 0x50060000 0 0) granted
        (imageWrite 0x50060000 (maskedValue granted 0x50060000 0 0) granted).2 = false ∧
      mayWrite granted 0 Reg.CPR_CKCOMMIT = true ∧ silentRefusal Reg.CPR_CKCOMMIT 5 granted (imageWrite Reg.CPR_CKCOMMIT 5 granted).2 = true) ∧
    (let s := open_.putJob 15 { st := .ended, owner := .mailbox 1 }
     takes s (rq 0x05 0 [15]) ∧ (s.job 15).st ≠ .free ∧ (s.job 15).owner ≠ .mailbox 0) ∧
    (let s := open_.set (CPR_PAIRSTAT_STATE 0) 3
     takes s (rq 0x06 0 [0]) ∧ pairInService s 0 = true ∧ pairInService s 1 = false ∧ bitAt (0 : Word).toNat 0 = false) := by
  exact ⟨all_of (by decide), all_of (by decide), by decide +kernel, by decide +kernel, by decide, ⟨takes_of (by decide), by decide⟩, ⟨takes_of (by decide), by decide⟩,
    ⟨takes_of (by decide), by decide⟩, by decide +kernel, ⟨takes_of (by decide), by decide⟩, takes_of (by decide), by decide⟩

/-- The register images of a request from parameter word `i` on are all taken. -/
def imaged (s : State) (q : Req) (i : Nat) (regs : List Nat) : Bool := (writeImages s i (q.images i regs) s).isRight

def zeros (n : Nat) : List Word := List.replicate n 0

/-- The words of TRK_CFG as the registers stand after reset. -/
def config3 : List Word :=
  [0x42480422, 0x00002008, 0x00004210, 0x35AFE5, 0x1B33099A, 0x14000CCD, 0x00000333, 0, 0x00100210, 0x00022000, 0]

theorem wit_TrackerOpcodes :
    (∀ q ∈ [rq 0x10 3 config3, rq 0x11 3 [1], rq 0x11 3 [0], rq 0x12 3 (0x000F0000 :: zeros 30),
      rq 0x13 3 [0x40040000, 0], rq 0x13 3 [0x00040000, 0], rq 0x14 3 [], rq 0x15 3 [1], rq 0x15 3 [2], rq 0x15 3 [4], rq 0x15 3 [8], rq 0x15 3 [0x11],
      rq 0x16 3 [0x00010000, 0], rq 0x17 3 (0x007C0784 :: zeros 248), rq 0x18 3 [], rq 0x19 3 [0x00F80F08], rq 0x1A 15 (zeros 5),
      rq 0x1B 15 []], takes open_ q) ∧
    (let cfg := [Reg.AT_SCFG 3, Reg.AT_CAMCFG 3, Reg.AT_PCFG 3, Reg.AT_GSPD 3,
        Reg.AT_WIN0 3, Reg.AT_WIN1 3, Reg.AT_WIN2 3, Reg.AT_RVOFS 3, Reg.AT_LCFG 3, Reg.AT_FF 3, Reg.AT_WREF 3]
     imaged open_ (rq 0x10 3 config3) 0 cfg = true ∧
      (writeImages open_ 0 ((rq 0x10 3 config3).images 0 cfg) (open_.setb (AT_CTL_EN 3) false)).isRight = true ∧
      (writeImages open_ 0 ((rq 0x10 3 (0xFFFFFFFF :: config3.tail)).images 0 cfg) (open_.setb (AT_CTL_EN 3) false)).isLeft = true) ∧
    (let s := { open_ with fuses := { open_.fuses with variant := 5 } }
     let imgs := (rq 0x17 3 [0x000107FF, 1, 8]).images 1 (wordAddrs (0x50030000 + 0x4000 + 8 * 0x7FF) 2)
     let absent (l : List (Nat × Nat)) := l.findIdx? fun x => x.1 % 8 == 4 && Nat.ble s.counts.maxCyl (x.2 % 32) && Nat.blt (x.2 % 32) 24
     takes s (rq 0x17 3 [0x000107FF, 1, 8]) ∧ absent imgs = some 1 ∧ (writeImages s 1 (imgs.take 1) s).isRight = true ∧
      absent ((rq 0x17 3 [0x000107FF, 1, 2]).images 1 (wordAddrs (0x50030000 + 0x4000 + 8 * 0x7FF) 2)) = none) ∧
    (let s := open_.set (AT_WDESC0_CNT 3) 4
     wheelRefusal s 3 (s.get (AT_WCFG_ACTSEL 3)) = 0 ∧ s.get (AT_CTL_EN 3) = 0 ∧ wheelRefusal open_ 3 (open_.get (AT_WCFG_ACTSEL 3)) ≠ 0 ∧
      wheelRefusal (open_.set (AT_WDESC1_CNT 3) 4) 3 1 = 0 ∧ open_.get (AT_WCFG_SWREQ 3) = 0 ∧
      wheelRefusal ((open_.set (AT_WDESC1_CNT 3) 4).set (AT_WCFG_SWREQ 3) 1) 3 1 = 0 ∧ (∀ k : Fin 4, (0x11 : Nat) ≠ 2 ^ k.val)) ∧
    (let s := { open_ with gnorum := { staging := { owner := some (.hspi 0), lastTb := 1000000 } } }
     stagingHeld s (.mailbox 0) = true ∧ stagingHeld open_ (.mailbox 0) = false ∧ takes s (rq 0x12 3 [0x00010FFF, 0, 0]) ∧
      bitsAt ((rq 0x12 3 [0x00010FFF, 0, 0]).word 0) 0 12 + bitsAt ((rq 0x12 3 [0x00010FFF, 0, 0]).word 0) 16 13 ≤ 4096) ∧
    (let es : List (Word × Word) := [(0x02000000, 0x1000), (0x200000, 0x1000), (0x400000, 0x1000), (0x600000, 0x1000)]
     checkWheel false false es = none ∧ (checkWheel false false (es.drop 4)).isSome = true) ∧
    (let w : Wheel := { base := 0, cnt := 4, span720 := false, ngap := 0 }
     loadConflict open_ 3 w true = false ∧ loadConflict (wheel 0 open_) 3 w true = true ∧
      (open_.get (AT_WCFG_SWREQ 3) = 0 ∧ open_.get (AT_CTL_EN 3) = 0) ∧
      (let s := open_.set (AT_CTL_EN 3) 1
       loadConflict s 3 w false = false ∧ s.get (AT_CTL_EN 3) = 1) ∧
      let s := open_.set (AT_WCFG_SWREQ 3) 1
      loadConflict s 3 w true = false ∧ s.get (AT_WCFG_SWREQ 3) = 1) ∧
    (open_.set (AT_SSTAT_STATE 3) 3).get (AT_SSTAT_STATE 3) = 3 ∧ open_.get (AT_SSTAT_STATE 3) ≠ 3 ∧
    (∀ k : Fin 4, (writeImages open_ 0 [(Reg.AT_SCTL 3, 2 ^ k.val)] open_).isRight = true) ∧
    bitsAt 0x00010000 0 12 + bitsAt 0x00010000 16 9 ≤ (activeWheel (open_.set (AT_WDESC0_CNT 3) 4) 3).cnt ∧
    imaged open_ (rq 0x17 3 [0x000107FF, 1, 2]) 1 (wordAddrs (0x50030000 + 0x4000 + 8 * 0x7FF) 2) = true ∧
    open_.get (TI_CFG_LOCK 15) = 0 ∧
    (writeImages open_ 1 ((Req.images (rq 0x1A 15 (zeros 5)) 0 (inputRegs 15)).drop 1) open_).isRight = true ∧
    (writeImages open_ 0 [(Reg.TI_CFG 15, 0)] open_).isRight = true ∧
    (writeImages open_ 0 [(Reg.TI_CFG 15, 0x13)] open_).isLeft = true ∧
    (let s := open_.set (TI_CFG_LOCK 15) 1
     s.get (TI_CFG_LOCK 15) = 1 ∧ ((Req.images (rq 0x1A 15 (1 :: zeros 4)) 0 (inputRegs 15)).findIdx? fun x =>
       (s.rdn x.1 ^^^ x.2) &&& (regAt x.1).rwl != 0) = some 0) := by
  exact ⟨all_of (by decide +kernel), by decide +kernel, ⟨takes_of (by decide +kernel), by decide +kernel⟩, by decide, ⟨by decide, by decide, takes_of (by decide), by decide⟩, by decide +kernel⟩

/-- A descriptor of channel 63 in words 1 to 4 of EVT_WRITE: MODE 0, nothing enabled. -/
def quiet63 : List Word := [0, 63 * 64, 0, 0]

/-- Event 1023 of channel 63 is a one-shot that waits for EVT_FIRE, and sequencer 7 runs. -/
def fired : State :=
  (((open_.wrn 0x50063FF0 0xC2000000).wrn 0x50063FF8 1000).wrn 0x50063FFC (32 * 2 ^ 24 + 15 * 2 ^ 20 + 63)).set (ESQ_STAT_STATE 7) 1

theorem wit_EventOpcodes :
    (∀ q ∈ [rq 0x20 0 (1023 :: quiet63), rq 0x21 0 [0x000103FF], rq 0x22 0 [0xC00003FF, 1, 1], rq 0x23 0 [0xC00003FF, 1, 1], rq 0x24 0 [1023],
      rq 0x25 0 (8 :: zeros 40), rq 0x26 0 [1023], rq 0x27 63 [], rq 0x28 63 (zeros 5), rq 0x29 0 [0x8000000F], rq 0x29 0 [0x80000000],
      rq 0x2A 0 [0], rq 0x2B 3 [0], rq 0x2B 3 (zeros 25), rq 0x2C 3 [0, 0]], takes open_ q) ∧
    takes fired (rq 0x24 0 [1023]) ∧
    (let d := descOf 0 0 0 0 0 0
     d.reserved = false ∧ open_.hasChan d.ch = true ∧ d.cyl < open_.counts.maxCyl ∧ open_.counts.maxCyl ≤ 24) ∧
    (descOf 0xFFFFFFFF 0xFFFFFFFF 0xFFFFFFFF 0xFFFFFFFF 0 0).reserved = true ∧
    (failed (envDescriptor open_ false 1023 0 0 0 0).1 = false) ∧
    failed (envDescriptor (open_.set (SCH_WIDTH_MINW 0) 0xFFFF) false 1023 0x82000000 0 0 0).1 = true ∧
    (let s := { open_ with ecc := [0x50063FF0, trimAddr 1023] }
     eventBad s false 1023 = true ∧ ((trimsBack 1023 s).ecc.any fun x => within (trimAddr 1023) 8 x) = true ∧
      takes s (rq 0x21 0 [0x000103FF]) ∧ takes s (rq 0x23 0 [0xC00003FF, 1, 1])) ∧
    eventBad open_ false 1023 = false ∧
    (failed (envTrim open_ 1023 (-8388608) 32767).1 = false ∧ open_.ecc = []) ∧
    failed (envTrim (((open_.wrn 0x50063FF0 0x82000000).wrn 0x50063FF4 0xC0000000).set (SCH_MAXDUR_MAXDUR 0) 5) 1023 0 32767).1 = true ∧
    (fireRefusal open_ 1023 ≠ 0 ∧ fireRefusal fired 1023 = 0) ∧
    (∀ st ∈ (writeGroups (rq 0x25 0 (8 :: zeros 40)) 8 open_).1, failed st = false) ∧
    (∃ st ∈ (writeGroups (rq 0x25 0 [1, 1023, 0, 0, 0, 0xFFFFFFFF]) 1 open_).1, failed st = true) ∧
    (switchRefused open_ (bitsAt (0x8000000F : Word).toNat 0 4) = false ∧ switchRefused open_ 0 = true) ∧
    (copyHits open_ true = false ∧ open_.get SCH_BSTAT_COPYBUSY = 0 ∧ (open_.set SCH_BSTAT_COPYBUSY 1).get SCH_BSTAT_COPYBUSY = 1 ∧
      copyHits ((wheel 0 open_).set SCH_BSTAT_ACT 1) true = true) ∧
    (let free : State := (outenClear 63 open_).modUnit 63 fun x => { x with edges := [] }
     (writeImages open_ 0 ((rq 0x28 63 (zeros 5)).images 0 (envRegs 63)) free).isRight = true ∧
      (writeImages open_ 0 ((rq 0x28 63 (0x000000FF :: zeros 4)).images 0 (envRegs 63)) free).isLeft = true) ∧
    imaged open_ (rq 0x28 63 (zeros 5)) 0 (envRegs 63) = true ∧ imaged open_ (rq 0x2B 3 [0]) 0 [Reg.SCH_BANG 3] = true ∧
    imaged open_ (rq 0x2C 3 [open_.rd (Reg.SCH_HT 3), open_.rd (Reg.SCH_HA 3)]) 0 [Reg.SCH_HT 3, Reg.SCH_HA 3] = true := by
  exact ⟨all_of (by decide +kernel), takes_of (by decide +kernel), by decide +kernel, by decide +kernel, by decide +kernel, by decide +kernel,
    ⟨by decide +kernel, by decide +kernel, takes_of (by decide +kernel), takes_of (by decide +kernel)⟩, by decide +kernel⟩

theorem wit_ShapingOpcodes :
    (∀ q ∈ [rq 0x2D 7 (zeros 3), rq 0x2E 7 [0], rq 0x30 0 (zeros 3), rq 0x31 11 [1], rq 0x32 1 (0x0000010B :: zeros 32),
      rq 0x33 1 [], rq 0x34 11 [], rq 0x35 1 (zeros 2), rq 0x38 31 (zeros 6), rq 0x38 31 (1 :: zeros 5), rq 0x39 0 [0x80000000], rq 0x3A 0 [1],
      rq 0x3B 31 []], takes open_ q) ∧
    imaged open_ (rq 0x2D 7 [open_.rd (Reg.ESQ_OWN 7), open_.rd (Reg.ESQ_EVRNG 7), open_.rd (Reg.ESQ_CFG 7)]) 0 [Reg.ESQ_OWN 7, Reg.ESQ_EVRNG 7, Reg.ESQ_CFG 7] = true ∧
    (writeImages open_ 0 [(Reg.ESQ_CTL 7, 9 &&& 9)] open_).isRight = true ∧
    (let s := open_.set (ESQ_STAT_STATE 7) 1
     takes s (rq 0x2F 7 []) ∧ s.get (ESQ_STAT_STATE 7) = 1 ∧ s.get (ESQ_CTL_UBREQ 7) = 0 ∧ freeJob s = some 1 ∧
      let u := s.set (ESQ_CTL_UBREQ 7) 1
      takes u (rq 0x2F 7 []) ∧ u.get (ESQ_STAT_STATE 7) = 1 ∧ u.get (ESQ_CTL_UBREQ 7) = 1) ∧
    (takes open_ (rq 0x2F 7 []) ∧ open_.get (ESQ_STAT_STATE 7) ≠ 1) ∧
    imaged open_ (rq 0x30 0 [open_.rd (Reg.CRL_CFG 0), open_.rd (Reg.CRL_LIM 0), open_.rd (Reg.CRL_DTLIM 0)]) 0
      [Reg.CRL_CFG 0, Reg.CRL_LIM 0, Reg.CRL_DTLIM 0] = true ∧
    (open_.flag (CSE_STAT_PBANK 1) ≠ bitAt 0x10B 8 ∧ open_.flag (CSE_STAT_PBANK 1) = bitAt 0xB 8 ∧ open_.get (CSE_CTL_PBREQ 1) = 0 ∧
      (open_.set (CSE_CTL_PBREQ 1) 1).get (CSE_CTL_PBREQ 1) = 1) ∧
    (0x1F : Nat) % 16 ≠ 0 ∧ (writeImages open_ 1 [(Reg.CSE_RCFG 1, 0)] open_).isRight = true ∧
    imaged open_ (rq 0x35 1 [0x140E0000, 0]) 0 [Reg.CSE_RBASE 1, Reg.CSE_RCFG 1] = true ∧
    open_.get (GPTt_CTL_RUN 31) = 0 ∧
    imaged open_ (rq 0x38 31 [0, 1, 0, 0, 0, 0]) 0
      [Reg.GPTt_CTL 31, Reg.GPTt_PER 31, Reg.GPTt_CCFG 31 0, Reg.GPTt_CMP 31 0, Reg.GPTt_CCFG 31 1, Reg.GPTt_CMP 31 1] = true ∧
    (let s := { open_ with ring := { starts := [{ kind := 0, target := 0, tbs := 1000448, own := false, job := 0 }] } }
     takes s (rq 0x3A 0 [1]) ∧ ringBrewPending s = true ∧ open_.ring.starts = [] ∧
      let u := { open_ with ring := { starts := [{ kind := 1, target := 0, tbs := 1000448, own := false, job := 0 }] } }
      ringBrewPending u = false ∧ (∃ x ∈ u.ring.starts, x.own = true ∨ x.kind ≠ 2) ∧ takes u (rq 0x3A 0 [1])) := by
  refine ⟨all_of (by decide), by decide +kernel, by decide, ⟨takes_of (by decide), by decide, by decide, by decide, takes_of (by decide), by decide⟩, ⟨takes_of (by decide), by decide⟩,
    by decide +kernel, by decide, by decide, by decide +kernel, by decide +kernel, by decide, by decide +kernel, takes_of (by decide),
    by decide, by decide, by decide, ⟨_, List.mem_cons_self .., .inr (by decide)⟩, takes_of (by decide)⟩

theorem wit_ConverterOpcodes :
    (∀ q ∈ [rq 0x40 3 [23, 1], rq 0x40 3 [24, 1], rq 0x41 0 [0x20, 0x3F800000], rq 0x41 0 (0x20 :: zeros 20), rq 0x42 23 (zeros 3), rq 0x43 0 [1],
      rq 0x44 0 (zeros 26), rq 0x45 0 [0x000F01F1], rq 0x46 0 [], rq 0x50 3 (zeros 4), rq 0x51 0 [0x2000], rq 0x51 0 [0x011F],
      rq 0x52 0 [15], rq 0x53 47 [0, 0x03FF0000], rq 0x53 46 [0, 0x03FF0000, 0], rq 0x54 47 [1], rq 0x55 0 [0]], takes open_ q) ∧
    (23 < open_.counts.maxCyl ∧ open_.counts.maxCyl ≤ 24) ∧ open_.get CAE_CTL_RUN = 0 ∧
    imaged open_ (rq 0x41 0 [0x20, 0x3F800000]) 1 (wordAddrs (0x500A0000 + 0x20) 1) = true ∧
    (∀ a ∈ wordAddrs (0x500A0000 + 0x4C) 1, caeFixed a = false) ∧
    imaged open_ (rq 0x42 23 (zeros 3)) 0 [Reg.CAE_CYLW0 23, Reg.CAE_CYLW1 23, Reg.CAE_CYLW2 23] = true ∧
    (imageWrite Reg.CAE_CTL (0 &&& 5) open_).1 = false ∧
    (open_.get PADC_CFG_EN = 0 ∧ (open_.set PADC_CFG_EN 1).get PADC_CFG_EN = 1 ∧ takes (open_.set PADC_CFG_EN 1) (rq 0x44 0 (zeros 26))) ∧
    ((writeImages open_ 0 [(Reg.PADC_CFG, (open_.rd Reg.PADC_CFG).toNat), (Reg.PADC_WOFS, 0), (Reg.PADC_CYL 0, 0)] open_).isRight = true ∧
      (imageWrite Reg.PADC_CFG (2 ^ 31 + (open_.rd Reg.PADC_CFG).toNat) open_).1 = false ∧
      (imageWrite (Reg.HADC_SEQCFG 3) (2 ^ 31) open_).1 = false) ∧
    (bitsAt 0x000F01F1 0 9 + bitsAt 0x000F01F1 16 4 ≤ 512 ∧ open_.ecc = [] ∧ open_.get CAE_CTL_KBREQ = 0) ∧
    ((open_.set CAE_CTL_KBREQ 1).get CAE_CTL_KBREQ = 1 ∧
      ((wordAddrs (0x140E0000 + 64 * 0x1F1) 240).any (wordBad { open_ with ecc := [0x140E7C40] })) = true ∧
      (open_.set (HADC_SEQCFG_EN 3) 1).get (HADC_SEQCFG_EN 3) = 1) ∧
    (open_.get (HADC_SEQCFG_EN 3) = 0 ∧ seqRefused open_ 3 0 0 = false ∧ seqRefused open_ 3 31 31 = false) ∧
    imaged open_ (rq 0x50 3 (zeros 4)) 0 [Reg.HADC_SEQCFG 3, Reg.HADC_SEQDLY 3, Reg.HADC_SEQANG 3, Reg.HADC_ENT 0] = true ∧
    (bitsAt 0x011F 0 5 + bitsAt 0x011F 8 6 ≤ 32 ∧ bitsAt 0x2000 0 5 + bitsAt 0x2000 8 6 ≤ 32) ∧
    imaged open_ (rq 0x52 0 [15]) 0 [Reg.HADC_SWTRG] = true ∧
    imaged open_ (rq 0x53 47 [0, 0x03FF0000]) 0 [Reg.CMP_CFG 47, Reg.CMP_THR 47] = true ∧
    imaged open_ (rq 0x53 46 [0, 0x03FF0000, 0]) 0 [Reg.CMP_CFG 46, Reg.CMP_THR 46, Reg.CMP_WCFG 9] = true ∧
    (writeImages open_ 0 [(Reg.HADC_CTL, 0)] open_).isRight = true := by
  exact ⟨all_of (by decide), by decide, by decide, by decide +kernel, by decide, by decide +kernel, by decide +kernel,
    ⟨by decide, by decide, takes_of (by decide)⟩, by decide +kernel⟩

theorem wit_ManagementOpcodes :
    (∀ q ∈ [rq 0x58 9 (zeros 3), rq 0x58 10 (zeros 3), rq 0x59 31 [], rq 0x5A 15 [0], rq 0x5B 15 [], rq 0x60 0 [1, 1, 0, 0], rq 0x60 0 [4, 16, 0, 0],
      rq 0x61 0 [], rq 0x68 0 [0, 0x80000000], rq 0x69 0 [1, 0], rq 0x6A 0 [], rq 0x70 0 [0, 1], rq 0x70 0 [0, 15], rq 0x70 0 [0, 0], rq 0x71 0 [64, 1, 1], rq 0x71 0 [0xFF, 1000, 255],
      rq 0x71 0 [63, 1, 1], rq 0x72 0 [], rq 0x73 0 [0x100], rq 0x74 0 []], takes open_ q) ∧
    (let imgs (v : Word) := (Reg.Q_CFG 10, putBits v.toNat 31 1 0) :: Req.images (rq 0x58 10 [v, 0, 0]) 1 [Reg.Q_CFG2 10, Reg.Q_CFG3 10]
     open_.get (Q_CFG_EN 10) = 0 ∧ (writeImages open_ 0 (imgs 0x0E000000) (open_.setb (Q_CFG_EN 10) false)).isRight = true ∧
      (writeImages open_ 0 (imgs 0x0F000000) (open_.setb (Q_CFG_EN 10) false)).isLeft = true) ∧
    (imageWrite (Reg.Q_CFG 10) (2 ^ 31 + 0x0E000000) open_).1 = false ∧
    ((open_.set (Q_CFG_EN 10) 1).get (Q_CFG_EN 10) = 1 ∧ takes (open_.set (Q_CFG_EN 10) 1) (rq 0x58 10 (zeros 3)) ∧
      (open_.set (DMA_STAT_STATE 15) dmaXfer).get (DMA_STAT_STATE 15) = dmaXfer) ∧
    (dmaState open_ 15 = 0 ∧ (writeImages open_ 0 [(Reg.DMA_CTL 15, 0)] open_).isRight = true) ∧
    (let s := open_.set (DMA_STAT_STATE 15) dmaFetch
     takes s (rq 0x5A 15 [0]) ∧ dmaState s 15 = dmaFetch) ∧
    (open_.rd Reg.SCH_OUTENL = 0 ∧ open_.rd Reg.SCH_OUTENH = 0 ∧ (∀ k : Fin 4, open_.get (AT_SSTAT_STATE k) = 0) ∧
      bitsAt ((rq 0x60 0 [4, 16, 0, 0]).word 1) 0 5 ≠ 0) ∧
    (let s := open_.set ⟨Reg.SCH_OUTENL, 0, 1⟩ 1
     takes s (rq 0x60 0 [2, 1, 0, 0]) ∧ s.rd Reg.SCH_OUTENL ≠ 0) ∧
    (let s := open_.set (ESQ_STAT_STATE 7) 1
     (∀ c ∈ (List.range 64).filter (inMask (rq 0x68 0 [0, 0x80000000])), s.hasPin c = true ∧ outenFault s c = false ∧ outenFault open_ c = true ∧
      (open_.unit c).cutTb ≠ some open_.now ∧ ((open_.putUnit c { cutTb := some open_.now }).unit c).cutTb = some open_.now) ∧
      takes s (rq 0x68 0 [0, 0x80000000])) ∧
    (let s := { open_ with perc := { open_.perc with stale := true } }
     takes s (rq 0x72 0 []) ∧ (sensorTake s).perc.stale = true) ∧
    (alarmOf open_ (.mailbox 0) 0 = none ∧ ((List.range 8).find? fun k => (alarmAt open_ k).isNone) = some 0) ∧
    (let a (b : Fin 5) : Alarm := ⟨.mailbox b, 0, 0, 0, 64, 0, 0⟩
     let s := { open_ with perc := { open_.perc with alarms := (List.range 8).map fun k => (k, some (a 1)) } }
     let u := { open_ with perc := { open_.perc with alarms := [(7, some (a 0))] } }
     takes s (rq 0x73 0 [0x100]) ∧ alarmOf s (.mailbox 0) 0 = none ∧ ((List.range 8).find? fun k => (alarmAt s k).isNone) = none ∧
      takes u (rq 0x73 0 [0]) ∧ alarmOf u (.mailbox 0) 0 = some 7) := by
  refine ⟨all_of (by decide), by decide +kernel, by decide +kernel, ⟨by decide, takes_of (by decide), by decide⟩, by decide, ⟨takes_of (by decide), by decide⟩, by decide,
    ⟨takes_of (by decide), by decide⟩, ⟨by decide, takes_of (by decide)⟩, ⟨takes_of (by decide), by decide⟩, by decide,
    takes_of (by decide), by decide, by decide, takes_of (by decide), by decide⟩

/-- An update of 16 bytes of the cold-start image is open, `n` of them sent, its slot in state `st`. -/
def updating (n : Nat) (st : SlotState) : State :=
  { open_ with update := { opened := some ⟨8, 0, 16, n, 0⟩, slots := [(4097, { st := st, bytes := List.replicate n 0 })] } }

theorem wit_UpdateOpcodes :
    (∀ q ∈ [rq 0x80 0 [9, 4388], rq 0x80 0 [8, 4388], rq 0x84 0 [8], rq 0x90 0 [0], rq 0x91 0 [], rq 0x92 0 [3], rq 0x93 0 [0xFF],
      rq 0x94 0 [0x31], rq 0x94 0 [0]], takes open_ q) ∧
    (compUnit open_ 9 0 ≠ 0 ∧ compUnit open_ 8 0 = 0 ∧ updBusy open_ = false ∧ 4388 ≤ 192 + maxPayload 8 ∧ ¬4389 ≤ 192 + maxPayload 8 ∧ takes open_ (rq 0x80 0 [8, 4389]) ∧
      (open_.update.closed.filter fun x => x.comp == 8 && x.unit == 0 && x.size == 4388) = none) ∧
    (let s := { open_ with update := { closed := some ⟨8, 0, 4388, 4100, 0⟩ } }
     takes s (rq 0x80 0 [8, 4388]) ∧ updBusy s = false ∧
      (s.update.closed.filter fun x => x.comp == 8 && x.unit == 0 && x.size == 4388) = some ⟨8, 0, 4388, 4100, 0⟩) ∧
    (let s := updating 8 .empty
     (∀ q ∈ [rq 0x80 0 [8, 4388], rq 0x81 0 [7, 1], rq 0x81 0 [8, 1, 2], rq 0x82 0 [], rq 0x83 0 [], rq 0x85 0 []], takes s q) ∧
      updBusy s = true ∧ s.update.opened = some ⟨8, 0, 16, 8, 0⟩ ∧ s.update.verify = 0 ∧ s.update.active = [] ∧
      8 + 4 * ((rq 0x81 0 [8, 1, 2]).params.length - 1) < 16 + 4 ∧ (s.slot 8 0 true).erasing = false ∧
      activeSlot s 8 0 = false ∧ switchPending s 8 0 = false ∧ (s.slot 8 0 true).st ≠ .verified ∧
      ¬(16 + 4 ≤ (8 : Word).toNat + 4 * 2) ∧ 16 + 4 ≤ (16 : Word).toNat + 4 * 1 ∧ takes s (rq 0x81 0 [16, 1]) ∧
      (let u := s.putSlot 8 0 true { (s.slot 8 0 true) with erasing := true }
       takes u (rq 0x81 0 [8, 1, 2]) ∧ (u.slot 8 0 true).erasing = true) ∧
      let u := { s with update := { s.update with verify := 3 } }
      takes u (rq 0x81 0 [8, 1, 2]) ∧ u.update.verify ≠ 0 ∧ takes s (rq 0x84 0 [8])) ∧
    (takes open_ (rq 0x84 0 [9]) ∧ open_.update.opened = none ∧ takes open_ (rq 0x85 0 [])) ∧
    (let s := updating 16 .verified
     takes s (rq 0x83 0 []) ∧ (s.slot 8 0 true).st = .verified ∧ takes s (rq 0x84 0 [8]) ∧ updBusy s = true ∧
      (let v := { s with update := { s.update with verify := 3 } }
       takes v (rq 0x83 0 []) ∧ v.update.verify ≠ 0) ∧
      let u := { s with update := { s.update with opened := none } }
      takes u (rq 0x84 0 [8]) ∧ updBusy u = false ∧ (u.slot 8 0 true).st = .verified) ∧
    (imaged open_ (rq 0x90 0 [open_.rd Reg.RING_CFG]) 0 [Reg.RING_CFG] = true ∧ open_.ring.starts = []) ∧
    (let s := { open_ with ring := { starts := [{ kind := 1, target := 0, tbs := 1000448, own := true, job := 0 }] } }
     takes s (rq 0x92 0 [3]) ∧ (s.ring.starts.any (·.own)) = true ∧ takes s (rq 0x93 0 [0xFF]) ∧
      let u := { open_ with ring := { starts := [{ kind := 2, target := 0, tbs := 1000448, own := false, job := 0 }] } }
      takes u (rq 0x93 0 [0xFF]) ∧ (∀ x ∈ u.ring.starts, x.own = false ∧ x.kind = 2) ∧ ∀ x ∈ s.ring.starts, x.own = true ∨ x.kind ≠ 2) ∧
    bitsAt 0x31 4 2 ≠ memberNo open_ ∧ bitsAt 0 4 2 = memberNo open_ := by
  refine ⟨all_of (by decide), ⟨by decide, by decide, by decide, by decide, by decide, takes_of (by decide), by decide⟩, ⟨takes_of (by decide), by decide⟩, ⟨all_of (by decide +kernel), by decide +kernel, by decide +kernel, by decide +kernel, by decide +kernel, by decide +kernel, by decide +kernel,
      by decide +kernel, by decide +kernel, by decide +kernel, by decide +kernel, by decide +kernel, takes_of (by decide +kernel),
      ⟨takes_of (by decide +kernel), by decide +kernel⟩, takes_of (by decide +kernel), by decide +kernel, takes_of (by decide +kernel)⟩,
    ⟨takes_of (by decide +kernel), by decide, takes_of (by decide +kernel)⟩,
    ⟨takes_of (by decide +kernel), by decide +kernel, takes_of (by decide +kernel), by decide +kernel, ⟨takes_of (by decide +kernel), by decide +kernel⟩,
      takes_of (by decide +kernel), by decide +kernel⟩, by decide,
    ⟨takes_of (by decide), by decide, takes_of (by decide), takes_of (by decide), by decide, by decide⟩, by decide⟩

/-- A request of port 0 in session 1 under the key 0, epoch 0, with the tag of `SESS_CLOSE` and `KEY_REVOKE` worked out by `tagFor`. -/
def tagged (opc : BitVec 8) (params : List Word) : Req :=
  { src := .hspi 0, opc := opc, flg := 0, seq := 5, len := BitVec.ofNat 16 params.length, unit := 0, sess := 1, params := params,
    tag := some (tagFor ⟨0, 0, none, none, none⟩ 0 (headerWords opc 0 5 params.length 0 1) params) }

/-- `open_` with session 1, the last SEQ 4, and every family open to port 0. -/
def session1 (revk : BitVec 4) : State :=
  { open_.set ⟨Reg.ACT_PPROF 0 0, 0, 12⟩ 0xFFF with
    gnorum := { sessions := [(1, some ⟨0, 0, some 4, none, none⟩)] }, fuses := { open_.fuses with revk := revk } }

/-- A challenge has been given. -/
def challenged : State := { open_ with fuses := { open_.fuses with chal := some (0x000102030405060708090A0B0C0D0E0F, 0) } }

/-- A port key in slot 3, wrapped as in the example of RFC 3394 (section 4.1). -/
def keyed : State :=
  { open_ with
    fuses := { open_.fuses with deviceKey := 0x000102030405060708090A0B0C0D0E0F }
    update := { keys := [[], [], [], [0x1F, 0xA6, 0x8B, 0x0A, 0x81, 0x12, 0xB4, 0x47, 0xAE, 0xF3, 0x4B, 0xD8, 0xFB, 0x5A, 0x7B, 0x82, 0x9D, 0x3E,
      0x86, 0x23, 0x71, 0xD2, 0xCF, 0xE5]] } }

/-- R368: the unwrapped key of that example. -/
theorem test_key_unwrap : portKey keyed 3 = some 0x00112233445566778899AABBCCDDEEFF := by decide +kernel

theorem accepted_tagged (revk : BitVec 4) (opc : BitVec 8) (params : List Word) :
    listening (session1 revk) (.hspi 0) = true → (frontCheck (tagged opc params) (session1 revk)).1 = .pass →
    lengthAgrees (tagged opc params) = true → requestsBefore (.hspi 0) (session1 revk) = session1 revk →
    requestsTake (frontCheck (tagged opc params) (session1 revk)).2 = (frontCheck (tagged opc params) (session1 revk)).2 →
    (frontCheck (tagged opc params) (session1 revk)).2.power.angleReset = false →
    Accepted (tagged opc params) (session1 revk) (frontCheck (tagged opc params) (session1 revk)).2 := by
  intro hs h hl hb ht hy
  have hx : (session1 revk).power.angleReset = false := rfl
  unfold Accepted
  rw [show (tagged opc params).src = .hspi 0 from rfl, hb]
  refine ⟨hs, hl, show bitAt (0 : BitVec 8).toNat 7 = false from rfl, show bitAt (0 : BitVec 8).toNat 3 = false from rfl,
    show bitAt (0 : BitVec 8).toNat 2 = false from rfl, rfl, h, fun x => ?_, .inr ⟨show bitAt (0 : BitVec 8).toNat 0 = false from rfl, rfl, rfl, ht.symm, fun x => ?_⟩⟩
  · rw [hx] at x
    cases x
  · rw [hy] at x
    cases x

theorem wit_SecurityOpcodes :
    (∀ q ∈ [rq 0xA0 0 [3, 0, 0, 0, 0], rq 0xA2 0 [], rq 0xA4 0 [], rq 0xA3 0 (zeros 16)], takes open_ q) ∧ takes keyed (rq 0xA0 0 [3, 0, 0, 0, 0]) ∧
    (portKey open_ 3 = none ∧ portKey keyed 3 = some 0x00112233445566778899AABBCCDDEEFF ∧
      ((List.range 15).find? fun i => (keyed.session (i + 1)).isNone) = some 0) ∧
    Accepted (tagged 0xA1 []) (session1 0) (frontCheck (tagged 0xA1 []) (session1 0)).2 ∧
    ((tagged 0xA1 []).sess ≠ 0 ∧ internal (tagged 0xA1 []).src = false) ∧
    (debugDenied open_ = false ∧ open_.fuses.chal = none) ∧
    (let s := { open_ with fuses := { open_.fuses with dbg := 3 } }
     takes s (rq 0xA2 0 []) ∧ takes s (rq 0xA3 0 (zeros 16)) ∧ debugDenied s = true) ∧
    (takes challenged (rq 0xA3 0 (zeros 16)) ∧ debugDenied challenged = false ∧
      challenged.fuses.chal = some (0x000102030405060708090A0B0C0D0E0F, 0) ∧ challenged.time < 0 + 12000000000) ∧
    (let u := (frontCheck (tagged 0xA5 [3]) (session1 4)).2
     Accepted (tagged 0xA5 [3]) (session1 4) u ∧ u.fuses.revk ||| BitVec.ofNat 4 (2 ^ 3) ≠ 15) ∧
    (let u := (frontCheck (tagged 0xA5 [3]) (session1 7)).2
     Accepted (tagged 0xA5 [3]) (session1 7) u ∧ u.fuses.revk ||| BitVec.ofNat 4 (2 ^ 3) = 15 ∧ u.fuses.revk ≠ 15) := by
  refine ⟨all_of (by decide), takes_of (by decide), ⟨by decide, test_key_unwrap, by decide⟩,
    accepted_tagged 0 0xA1 [] (by decide +kernel) (by decide +kernel) (by decide +kernel) (by decide +kernel)
      (by decide +kernel) (by decide +kernel), ⟨by decide, by decide⟩, by decide,
    ⟨takes_of (by decide), takes_of (by decide), by decide⟩,
    ⟨takes_of (by decide), by decide⟩,
    ⟨accepted_tagged 4 0xA5 [3] (by decide +kernel) (by decide +kernel) (by decide +kernel) (by decide +kernel)
      (by decide +kernel) (by decide +kernel), by decide +kernel⟩,
    accepted_tagged 7 0xA5 [3] (by decide +kernel) (by decide +kernel) (by decide +kernel) (by decide +kernel)
      (by decide +kernel) (by decide +kernel), by decide +kernel⟩

theorem wit_TestOpcodes :
    (∀ q ∈ [rq 0xB0 11 [], rq 0xB1 3 [], rq 0xB2 0 [], rq 0xB3 7 [], rq 0xB4 1 [], rq 0xB5 11 [1], rq 0xB5 11 [0], rq 0xB7 3 [1, 1]],
      q.opc = 0xB0 ∨ takes open_ q) ∧
    (takes open_ (rq 0xB0 0 [])) ∧
    (let s := open_.set (ESQ_OWN_VALID 7) 0
     takes s (rq 0xB3 7 []) ∧ s.get (ESQ_STAT_STATE 7) = 0 ∧ s.get (ESQ_OWN_VALID 7) = 0) ∧
    (pairState open_ 0 ≠ 1 ∧ pairState open_ 0 ≠ 4 ∧ pairState open_ 0 ≠ 2 ∧ takes open_ (rq 0xB4 0 []) ∧
      let s := open_.set (CPR_PAIRSTAT_STATE 1) 4
      takes s (rq 0xB4 1 []) ∧ pairState s 1 = 4) ∧
    (open_.get (MEMC_BANKCTL_OFFL 11) = 0 ∧ bankInUse open_ 11 = false ∧ open_.get (MEMC_BANKCTL_BIST 11) = 0 ∧
      bankInUse granted 11 = true ∧ takes granted (rq 0xB5 11 [1]) ∧ granted.get (MEMC_BANKCTL_OFFL 11) = 0) ∧
    (let s := (open_.set (MEMC_BANKSTAT_ISOFF 11) 1).set (MEMC_BANKCTL_OFFL 11) 1
     takes s (rq 0xB6 11 []) ∧ s.get (MEMC_BANKSTAT_ISOFF 11) = 1 ∧ s.get (MEMC_BANKCTL_BIST 11) = 0 ∧ s.get (MEMC_BANKCTL_OFFL 11) = 1) ∧
    (let s := (wheel 3 open_).set (AT_CTL_EN 3) 0
     takes s (rq 0xB7 3 [1, 1]) ∧ (activeWheel s 3).cnt ≠ 0 ∧ (s.trk 3).gen = none ∧
      ∀ c : Fin 64, s.hasChan c = true → s.get (SCH_CHCFG_TRK c) = 3 → outen s c = false) ∧
    (let s := late.putTrk 3 { gen := some ⟨1, 5, 0, 1000000, false, 1⟩ }
     TrackerRuns s 3 ∧ (s.trk 3).gen = some ⟨1, 5, 0, 1000000, false, 1⟩ ∧ 1000000 ≤ s.now ∧ s.get (AT_CTL_EN 3) = 0 ∧
      let u := (wheel 3 late).putTrk 3 { gen := some ⟨1, 5, 1, 1000000, false, 1⟩ }
      TrackerRuns u 3 ∧ u.get (AT_CTL_EN 3) = 1) ∧
    (let s := { late with clock := 12000000000 }.putJob 15 { st := .ended }
     (s.job 15).st = .ended ∧ (s.job 15).endTb + 12000000000 ≤ s.time) ∧
    (let s := { late with clock := 200000000, gnorum := { staging := { owner := some (.hspi 0) } } }
     s.perc.running = true ∧ s.get CPR_PWRSTAT_STATE < 3 ∧ s.gnorum.staging.owner = some (.hspi 0) ∧
      s.gnorum.staging.lastTb + 200000000 ≤ s.time) ∧
    (let s := { challenged with clock := 12000000000 }
     s.fuses.chal = some (0x000102030405060708090A0B0C0D0E0F, 0) ∧ 0 + 12000000000 ≤ s.time) ∧
    (let s := { updating 16 .written with update := { (updating 16 .written).update with verify := 15 } }
     s.perc.running = true ∧ (15 : Fin 16) ≠ 0 ∧ s.update.verify = (15 : Fin 16).val ∧ s.get CPR_PWRSTAT_STATE < 3 ∧ s.update.opened = some ⟨8, 0, 16, 16, 0⟩) := by
  refine ⟨fun q hq => ?_, takes_of (by decide), ⟨takes_of (by decide), by decide⟩,
    ⟨by decide, by decide, by decide, takes_of (by decide), takes_of (by decide), by decide⟩,
    ⟨by decide, by decide, by decide, by decide, takes_of (by decide), by decide⟩, ⟨takes_of (by decide), by decide⟩,
    ⟨takes_of (by decide), by decide⟩, ⟨by unfold TrackerRuns; decide, by decide, by decide, by decide, by unfold TrackerRuns; decide, by decide⟩, by decide, by decide, by decide, by decide +kernel⟩
  by_cases h : q.opc = 0xB0
  · exact .inl h
  · exact .inr (all_of (l := [rq 0xB1 3 [], rq 0xB2 0 [], rq 0xB3 7 [], rq 0xB4 1 [], rq 0xB5 11 [1], rq 0xB5 11 [0], rq 0xB7 3 [1, 1]])
      (by decide) q (by rcases List.mem_cons.1 hq with rfl | h2; exact absurd rfl h; exact h2))

/-! ### Cores, interrupts, pairs -/

/-- Pair B is ACTIVE with both cores apart, core 3 in its TCM with 5 in x1 and 7 in x2. -/
def core3 : State :=
  ((late.set (CPR_PAIRSTAT_STATE 1) 5).set (CPR_PAIRCTL_SPLIT 1) 1).putCore 3 { pc := 0x08000000, x := [(1, 5), (2, 7)] }

theorem fetched3 : coreFetch 3 0x08000000 core3 = (true, core3) := by decide +kernel

theorem fetches3 (w : Word) : CoreFetches core3 3 w core3 := by
  have pc : (core3.core 3).pc.toNat = 0x08000000 := by decide +kernel
  have hr : coreRuns core3 3 = true := by decide +kernel
  refine ⟨by decide +kernel, ?_, hr⟩
  rw [pc]; unfold fetchInstr; rw [fetched3]; simp [hr]

theorem wit_CoreInstructions :
    (∀ w, CoreFetches core3 3 w core3) ∧
    -- ADD x3, x1, x2; ADDI x3, x1, -1; BEQ x1, x1, +8; JAL x0, +0; LW x3, 0(x0)
    ((0x002081B3 : Word).toNat % 128 = 0x33 ∧ bitsAt (0x002081B3 : Word).toNat 12 3 = 0 ∧ bitsAt (0x002081B3 : Word).toNat 25 7 = 0) ∧
    ((0xFFF08193 : Word).toNat % 128 = 0x13 ∧ bitsAt (0xFFF08193 : Word).toNat 12 3 = 0) ∧
    ((0x00108463 : Word).toNat % 128 = 0x63 ∧ bitsAt (0x00108463 : Word).toNat 12 3 = 0) ∧ (0x0000006F : Word).toNat % 128 = 0x6F ∧
    ((0x00002183 : Word).toNat % 128 = 0x03 ∧ bitsAt (0x00002183 : Word).toNat 12 3 = 2) ∧ (0x00000073#32).toNat % 4 = 3 ∧
    (match coreLoad 3 0x08000000 4 core3 with | (.inr v, _) => decide (v = 0) | _ => false) = true ∧
    (match coreLoad 3 0x0C000000 4 core3 with | (.inl 5, u) => coreRuns u 3 | _ => false) = true ∧
    (targetPower late 3 ≠ 0 ∧ targetPower core3 3 = 0 ∧ (core3.core 3).machine = true ∧ coreRuns core3 3 = true) ∧
    (let s := core3.putCore 3 { machine := false, csr := [(0x300, 0x00200000)] }
     coreRuns s 3 = true ∧ targetPower s 3 = 0 ∧ (s.core 3).machine = false ∧ bitAt (csrOf (s.core 3) 0x300).toNat 21 = true) ∧
    (let v : Word := 0x10000C03
     bitsAt v.toNat 1 2 ≠ 3 ∧ 12 ≤ bitsAt v.toNat 7 5 ∧ bitsAt v.toNat 7 5 ≤ 24 ∧ v.toNat / 4096 * 4096 % 2 ^ bitsAt v.toNat 7 5 = 0) ∧
    (bitsAt (0x00000C80 : Word).toNat 1 2 ≠ 3 ∧ 24 < bitsAt (0x00000C80 : Word).toNat 7 5 ∧ bitsAt (0x00000580 : Word).toNat 7 5 < 12 ∧
      (0x10001680 : Word).toNat / 4096 * 4096 % 2 ^ bitsAt (0x10001680 : Word).toNat 7 5 ≠ 0) := by
  exact ⟨fetches3, by decide +kernel⟩

def ctx (b : Bool) : Ctx := ⟨0x08000100, true, 3, 16, b, 255⟩

theorem wit_CoreContexts :
    (coreRuns core3 3 = true ∧ (core3.core 3).stack.length < 24) ∧
    (let s := core3.putCore 3 { stack := List.replicate 24 (ctx false) }
     coreRuns s 3 = true ∧ 24 ≤ (s.core 3).stack.length ∧ s.get (CPR_PAIRCTL_SPLIT (3 / 2)) = 1) ∧
    (let s := (late.set (CPR_PAIRSTAT_STATE 0) 3).putCore 0 { stack := List.replicate 24 (ctx false) }
     coreRuns s 0 = true ∧ 24 ≤ (s.core 0).stack.length ∧ s.get (CPR_PAIRCTL_SPLIT (0 / 2)) = 0) ∧
    ((core3.putCore 3 { machine := false }).core 3).machine = false ∧
    ((core3.core 3).machine = true ∧ (core3.core 3).stack = []) ∧
    (let s := core3.putCore 3 { stack := [ctx false] }
     (s.core 3).machine = true ∧ (s.core 3).stack = ctx false :: [] ∧ (ctx false).interrupt = false) ∧
    (let s := core3.putCore 3 { stack := [ctx true] }
     (s.core 3).stack = ctx true :: [] ∧ (ctx true).interrupt = true ∧ (ctx true).source < 256 ∧
      winner (pendRaised (sourceIdle 255 (s.putCore 3 (s.core 3).retire))) 3 16 true = none) ∧
    (let s := (((core3.putCore 3 { stack := [ctx true] }).set ⟨Reg.IRQC_PNDSET 7, 30, 1⟩ 1).set ⟨Reg.IRQC_ENSET 7, 30, 1⟩ 1).set
       (IRQC_SRCCFG_TARGET 254) 3
     winner (pendRaised (sourceIdle 255 (s.putCore 3 (s.core 3).retire))) 3 16 true = some 254) ∧
    (debugMay late = true ∧ ({ late with fuses := { late.fuses with dbg := 1 } } : State).fuses.dbg = 1) ∧
    (let s := core3.putCore 3 { halted := true }
     debugMay s = true ∧ (s.core 3).halted = true) ∧ (core3.core 3).halted = false := by decide +kernel

/-- Source 254 of PRIO 15 is pending and enabled for core 3, which takes interrupts and stands in WFI. -/
def called : State :=
  ((((core3.putCore 3 { csr := [(0x300, 8)], wfi := true }).set ⟨Reg.IRQC_PNDSET 7, 30, 1⟩ 1).set ⟨Reg.IRQC_ENSET 7, 30, 1⟩ 1).set
    (IRQC_SRCCFG_TARGET 254) 3).set (IRQC_SRCCFG_WAKE 254) 1

theorem wit_InterruptController :
    (let s := called.putCore 3 { csr := [(0x300, 8)], stack := List.replicate 23 (ctx false) }
     winner s 3 (s.core 3).level (coreMie s 3) = some 254 ∧ (s.core 3).stack.length < 24) ∧
    (let s := (((((late.set (CPR_PAIRSTAT_STATE 0) 3).putCore 0 { csr := [(0x300, 8)], stack := List.replicate 24 (ctx false) }).set
        ⟨Reg.IRQC_PNDSET 7, 30, 1⟩ 1).set ⟨Reg.IRQC_ENSET 7, 30, 1⟩ 1).set (IRQC_SRCCFG_TARGET 254) 0)
     winner s 0 (s.core 0).level (coreMie s 0) = some 254 ∧ 24 ≤ (s.core 0).stack.length ∧ s.get (CPR_PAIRCTL_SPLIT (0 / 2)) = 0) ∧
    (∀ m, m < 256 → eligibleAt late 0 (late.core 0).level (coreMie late 0) m = false) ∧
    ((0x80000000 : Word).getLsbD 31 = true ∧ levelOf late 255 = false ∧ late.isActive 255 = false) ∧
    ((0x80000000 : Word).getLsbD 8 = false ∧ levelOf (late.set ⟨Reg.ACT_BERR0, 31, 1⟩ 1) 254 = false) ∧
    (let s := (late.set (DMA_STAT_DONEF 0) 1).set (DMA_CTL_DIE 0) 1
     levelOf s (32 * (4 : Fin 8) + 8) = true ∧ s.isActive (32 * (4 : Fin 8) + 8) = false ∧ (0x100 : Word).getLsbD 8 = true) ∧
    (targetOk core3 3 = true ∧ targetOk core3 4 = true ∧ targetOk late 3 = false ∧ bitsAt (0x4300 : Word).toNat 8 3 = 3 ∧
      bitsAt (0x4300 : Word).toNat 12 3 = 4) ∧
    (coreReady called 3 = true ∧ called.isPending 254 = true ∧ called.enabled 254 = true ∧ sourceWake called 254 = true ∧
      sourceTarget called 254 = 3) := by decide +kernel

theorem wit_PairsAndDuplex :
    (let s := ((late.set (CPR_PAIRSTAT_STATE 1) 3).set (CPR_PAIRSTAT_STATE 0) 4).set CPR_DPXCTL_EN 1
     2 ≤ pairState s 1 ∧ pairState s 1 ≤ 5 ∧ pairState s 1 = 3 ∧ hasPair s 1 = true ∧ takesOver (s.set CPR_DPXCTL_TKEN 1) 1 = true ∧
      takesOver s 0 = false ∧ 2 ≤ pairState s 0 ∧
      let u := s.putPair 1 { hbTb := 0 }
      u.get (CPR_PAIRCTL_HBT 1) = 10 ∧ (u.pair 1).hbTb + 200000 * u.get (CPR_PAIRCTL_HBT 1) ≤ ({ u with clock := 2000000 } : State).time ∧
        u.time < (u.pair 1).hbTb + 200000 * u.get (CPR_PAIRCTL_HBT 1)) ∧
    (pairState late 0 < 2 ∧ hasPair late 0 = true ∧ pairState late 0 ≠ 1) ∧
    pairState (late.set (CPR_PAIRSTAT_STATE 0) 1) 0 = 1 ∧ 5 < pairState (late.set (CPR_PAIRSTAT_STATE 0) 6) 0 ∧
    (let s := { (late.set (CPR_PAIRSTAT_STATE 0) 7).putPair 0 { testTb := 5 } with clock := 80005 }
     pairState s 0 = 7 ∧ (s.pair 0).testTb + 80000 ≤ s.time) ∧
    (let s := late.set (CPR_PAIRSTAT_STATE 0) 2
     pairState s 0 = 2 ∧ pairState s 1 ≠ 3 ∧
      let u := (s.set (CPR_PAIRSTAT_STATE 1) 3).set CPR_DPXCTL_EN 1
      pairState u 0 = 2 ∧ pairState u 1 = 3 ∧ u.get CPR_DPXCTL_EN = 1 ∧
        (u.putPair 0 { standbyReq := true, bootSeq := 0xFFFF } |>.pair 0).standbyReq = true ∧ 0 < sdiff 65536 0xFFFF 0 ∧
        sdiff 65536 (u.get CPR_DPXSTAT_CKSEQ) (0 : BitVec 16).toNat ≤ 0) ∧
    ((0 : BitVec 16).toNat = ((late.set CPR_DPXSTAT_CKSEQ 0xFFFF).get CPR_DPXSTAT_CKSEQ + 1) % 65536 ∧
      0 ≤ sdiff 65536 (((1 : BitVec 16).toNat + 65534) % 65536 : Nat) ((late.set CPR_CKACK_SEQ 0xFFFF).get CPR_CKACK_SEQ) ∧
      ¬ 0 ≤ sdiff 65536 (((1 : BitVec 16).toNat + 65534) % 65536 : Nat) ((late.set CPR_CKACK_SEQ 0xFFFE).get CPR_CKACK_SEQ) ∧
      (1 : BitVec 16).toNat ≠ (late.get CPR_DPXSTAT_CKSEQ + 2) % 65536) ∧
    (late.get CPR_DPXSTAT_ACT ≠ (1 : Fin 2).val ∧ late.takeover = none) ∧
    (let s := { (late.set CPR_DPXSTAT_ACT 1).set (CPR_PAIRSTAT_STATE 1) 3 with takeover := some 960000 }
     s.get CPR_DPXSTAT_ACT = (1 : Fin 2).val ∧ s.takeover = some 960000 ∧ s.time ≤ 960000 + 40000 ∧ 960000 + 40000 ≤ s.time ∧
      pairInService s (s.get CPR_DPXSTAT_ACT) = true) := by decide +kernel

/-! ### Shared memory, locks, DMA, queues -/

def gated (g : Option ArbReq) (refill : Bool) : State :=
  { late with arbs := [(16, { order := 3, grant := g, refill := refill, raised := [{ mid := 2, order := 1, left := 4, preemptible := true, addr := 0x70000000 }] })] }

theorem named_nil : LocksNamed late := fun _ _ h => nomatch h

/-- A region of `s` grants the MIDs 0, 3 and 63 everything below 0x80000000. -/
def opened (s : State) : State :=
  ((((s.wr (Reg.ACT_RGN0 0 0) 0xF81).wr (Reg.ACT_RMASK0 0 0) 9).wr (Reg.ACT_WMASK0 0 0) 9).wr (Reg.ACT_RMASK1 0 0) 0x80000000).wr
    (Reg.ACT_WMASK1 0 0) 0x80000000

theorem wit_MemoryBanks :
    (let s := { late.set (MEMC_BANKCTL_SCRUB 11) 1 with
       scrub := [(11, 131071, 999000)], soft := [0x105FFFFC], ecc := [0x105FFFFC] }
     s.get (MEMC_BANKCTL_SCRUB 11) = 1 ∧ s.get (MEMC_BANKSTAT_ISOFF 11) = 0 ∧ (findAt (fun _ => (0, 0)) 11 s.scrub).1 < 131072 ∧
      2 * s.get MEMC_SCRUB_SDIV ≤ 3 * (s.time - (findAt (fun _ => (0, 0)) 11 s.scrub).2) ∧ (s.arb 11).grant = none ∧ (s.arb 11).raised = [] ∧
      ¬2 * s.get MEMC_SCRUB_SDIV ≤ 3 * (s.time - (findAt (fun _ => (0, 0)) 11 ({ s with scrub := [(11, 0, 1000000)] } : State).scrub).2) ∧
      bankBase 11 + 4 * (findAt (fun _ => (0, 0)) 11 s.scrub).1 ∈ s.soft ∧ bankBase 11 + 4 * (findAt (fun _ => (0, 0)) 11 s.scrub).1 ∈ s.ecc ∧
      s.get (MEMC_BANKSTAT_UE 11) = 0) ∧
    (late.get (MEMC_BANKCTL_OFFL 0) = 0 ∧ bankInUse late 0 = false ∧
      bankInUse ((late.wr (Reg.ACT_RGN0 0 0) 0xF81).wr (Reg.ACT_RMASK0 0 0) 1) 0 = true) ∧
    (let s := (late.set (MEMC_BANKCTL_OFFL 0) 1).set (MEMC_BANKSTAT_ISOFF 0) 1
     s.get (MEMC_BANKCTL_OFFL 0) = 1 ∧ s.get (MEMC_BANKCTL_BIST 0) = 0 ∧ s.get (MEMC_BANKSTAT_ISOFF 0) = 1 ∧ (s.set (MEMC_BANKCTL_BIST 0) 1).get (MEMC_BANKCTL_BIST 0) = 1) ∧
    late.get (MEMC_BANKSTAT_ISOFF 0) = 0 ∧
    (let s := { late.set (MEMC_BANKCTL_BIST 11) 1 with clock := 8000000 }
     s.get (MEMC_BANKCTL_BIST 11) = 1 ∧ findAt (fun _ => 0) 11 s.bistTb + 8000000 ≤ s.time) ∧
    ({ late with locks := [(63, { owner := some 63 })] } : State).lock 63 = { owner := some 63 } ∧
    ((gated none false).arb 16).grant = none ∧ ((gated none false).arb 16).raised ≠ [] ∧
    (let x : BusReq := ⟨15, 16, true, 0x7FFFFFF8, true⟩
     arbRaises late 16 7 [x] = [{ mid := 15, order := 7, left := 1, preemptible := true, addr := 0x7FFFFFF8, write := true }] ∧
      arbRaises late 15 7 [x] = []) ∧
    (let r : ArbReq := { mid := 3, order := 1, left := 4, preemptible := true, addr := 0x70000000, resumes := true }
     (!r.resumes || actAllows (opened (gated none false)) r.mid r.addr r.write) = true ∧ actAllows late 2 0x70000000 true = false) ∧
    (let g : ArbReq := { mid := 1, order := 2, left := 8, preemptible := true, addr := 0x70000100 }
     let s := gated (some g) false
     (s.arb 16).grant = some g ∧ g.left ≤ 8 ∧ 7 < g.left ∧ g.preemptible = true ∧ (s.arb 16).refill = false ∧ (g.preempted 7 9).left = 1 ∧ (g.preempted 7 9).addr = 0x70000138 ∧
      (∃ r ∈ (s.arb 16).raised, rankOf (s.set (ARB_RANK_RANK2 0) 7) g.mid < rankOf (s.set (ARB_RANK_RANK2 0) 7) r.mid) ∧
      (∀ r ∈ (s.arb 16).raised, rankOf (s.set (ARB_RANK_RANK1 0) 7) r.mid ≤ rankOf (s.set (ARB_RANK_RANK1 0) 7) g.mid)) := by
  decide +kernel

/-- Lock 9 is held by MID 5 with MID 3 waiting; MID 5 waits for lock 7, which MID 3 holds. -/
def locked : State :=
  { late with
    locks := [(7, { owner := some 3, waiters := [5] }), (9, { owner := some 5, waiters := [3] })]
    waits := [(3, { lock := some 9 }), (5, { lock := some 7 })] }

theorem wit_Locks :
    (let s := (opened locked).set (CPR_PAIRCTL_SPLIT 1) 1
     Granted s 3 (Reg.LKB_ACQ 9) false ∧ Granted s 3 (Reg.LKB_TRY 9) false ∧ Granted s 3 (Reg.LKB_REL 9) true) ∧
    (let s := opened { locked with locks := [(9, { owner := some 3 })] }
     (s.lock 9).owner = some 3 ∧ (s.lock 9).waiters = []) ∧
    (9 ∉ (late.wait 5).granted ∧ (late.wait 5).lock = none ∧ (late.lock 9).owner = none) ∧
    (let s := { late with locks := [(9, { owner := some 5 })], waits := [(5, { granted := [4, 9] })] }
     9 ∈ (s.wait 5).granted ∧ (s.lock 9).owner = some 5) ∧
    (let s := { late with locks := [(9, { owner := some 5 })] }
     9 ∉ (s.wait 5).granted ∧ (s.wait 5).lock = none ∧ (s.lock 9).owner = some 5 ∧ (s.lock 9).waiters = [] ∧
      (s.lock 9).owner ≠ some 3 ∧ 9 ∉ (s.wait 3).granted ∧ (s.wait 3).lock = none ∧ chainReaches s 3 64 9 = false) ∧
    ((locked.wait 3).lock = some 9 ∧ (locked.lock 9).owner = some 5 ∧ 9 ∉ (locked.wait 3).granted) ∧
    (let s := { locked with waits := [(5, { lock := some 7 })] }
     (s.wait 3).lock = none ∧ (s.lock 9).owner = some 5 ∧ chainReaches s 3 64 9 = true) ∧
    ((locked.lock 9).waiters = 3 :: [] ∧ revoked locked 3 = false) ∧
    ((locked.wait 3).lock = some (9 : Fin 64).val ∧
      (locked.wait 3).since + 200 * (locked.set LKB_TMO_TMO 10).get LKB_TMO_TMO ≤ locked.time) := by unfold Granted; decide +kernel

/-- DMA channel 15 in state `st`. -/
def dma15 (st : Nat) (d : Dma) : State := (late.set (DMA_STAT_STATE 15) st).putDma 15 d

/-- `s` with a region that grants DMA channel 15 everything below 0x80000000, and the descriptor words `ws` at the base of its ring. -/
def ringed (s : State) (ws : List Word) : State :=
  let g := ((s.wr (Reg.ACT_RGN0 0 0) 0xF81).wr (Reg.ACT_RMASK1 0 0) 0x8000).wr (Reg.ACT_WMASK1 0 0) 0x8000
  (g.set (DMA_RBASE_ADDR 15) (0x10000000 / 32)).putWord 0x10000000 (ws.getD 0 0) |>.putWord 0x10000004 (ws.getD 1 0)
    |>.putWord 0x10000008 (ws.getD 2 0) |>.putWord 0x1000000C (ws.getD 3 0)

/-- The descriptor of a transfer of one word from 0x10000100 to 0x10000104. -/
def oneWord : List Word := [0x80000004, 0x10000100, 0x10000104, 0]

theorem wit_DmaChannels :
    (dmaState late 15 = 0 ∧ (late.set (DMA_CTL_EN 15) 1).get (DMA_CTL_EN 15) = 1 ∧ late.get (DMA_CTL_EN 15) = 0) ∧
    (dmaState (dma15 4 {}) 15 = 4 ∧ (dma15 4 {}).get (DMA_CTL_KICK 15) = 0) ∧
    (let s := ringed (dma15 1 {}) oneWord
     dmaState s 15 = 1 ∧
      (match readWords (32 + 15) (dmaDescAddr s 15) 8 s with
        | (some ws, u) => bitAt (({ desc := ws } : Dma).word 0) 31 && !dmaInvalid u 15 { desc := ws } && dmaInvalid u 15 { desc := 0x80000003 :: ws }
        | _ => false) = true) ∧
    (let s := ringed (dma15 1 {}) [0x00000004]
     dmaState s 15 = 1 ∧
      (match readWords (32 + 15) (dmaDescAddr s 15) 8 s with
        | (some ws, u) => !bitAt (({ desc := ws } : Dma).word 0) 31 && u.get (DMA_CTL_KICK 15) == 0 | _ => false) = true) ∧
    (dmaState (dma15 1 {}) 15 = 1 ∧ (readWords (32 + 15) (dmaDescAddr (dma15 1 {}) 15) 8 (dma15 1 {})).1 = none) ∧
    (let d : Dma := { desc := oneWord }
     let s := ringed (dma15 2 d) oneWord
     dmaState s 15 = 2 ∧ (s.dma 15) = d ∧ d.fromQueue = false ∧ d.toQueue = false ∧ d.len = 4 ∧ d.done = 0 ∧ d.done < d.len ∧
      beatWaits s d = false ∧ (match beatFetch 15 s with | .inr (ws, v) => dmaState (beatStore 15 0 (beatBytes d 0) d ws v) 15 != 3 | _ => false) = true ∧
      (match busRead (32 + 15) (srcAt d 0) .word s with
        | (some w, u) => (match busWrite (32 + 15) (dstAt d 0) .word w u with
          | (true, v) => dmaState v 15 == 2 | _ => false)
        | _ => false) = true) ∧
    (let d : Dma := { desc := oneWord }
     dmaState (dma15 2 d) 15 = 2 ∧ d.done < d.len ∧ beatWaits (dma15 2 d) d = false ∧ (beatFetch 15 (dma15 2 d)).isLeft = true) ∧
    (let d : Dma := { desc := [0x90000004, 0x10000100, 31, 0] }
     dmaState (dma15 2 d) 15 = 2 ∧ d.toQueue = true ∧ queueRoom (dma15 2 d) (d.word 2 % 32) = false ∧ d.done < d.len) ∧
    (let d : Dma := { desc := [0xA0000004, 31, 0x10000104, 0] }
     dmaState (dma15 2 d) 15 = 2 ∧ d.fromQueue = true ∧ ((dma15 2 d).queue (d.word 1 % 32)).items = [] ∧ d.done < d.len) ∧
    (let d : Dma := { desc := 0xC0000004 :: oneWord.drop 1, done := 4 }
     let s := ringed (dma15 3 d) oneWord
     dmaState s 15 = 3 ∧ d.status = 0 ∧ s.get (DMA_RCFG_RSZ 15) ≤ 10 ∧ bitAt (d.word 0) 30 = true ∧
      (writeWords (32 + 15) [(dmaDescAddr s 15 + 16, 0), (dmaDescAddr s 15 + 20, 4), (dmaDescAddr s 15 + 24, 0), (dmaDescAddr s 15, 0)] s).1 =
        true) ∧
    ({ desc := [], status := 3 } : Dma).status ≠ 0 := by decide +kernel

/-- Queue 31 enabled, MODE `mode`, depth 4, producer and consumer 63, holding `items` and `cred` credits. -/
def queue31 (mode cred : Nat) (items : List QItem) : State :=
  (((((late.set (Q_CFG_EN 31) 1).set (Q_CFG_MODE 31) mode).set (Q_CFG_DSH 31) 2).set (Q_CFG_PMID 31) 63).set (Q_CFG2_CMID 31) 63).putQueue 31
    { items := items, cred := cred, rsv := 1 }

def item : QItem := ⟨7, 0, false, true, false⟩

theorem wit_HardwareQueues :
    (let s := opened (queue31 0 1 [{ item with ce := true, ue := false }])
     Granted s 63 (Reg.Q_PUSH 31) true ∧ Granted s 63 (Reg.Q_POP 31) false ∧ Granted s 63 (Reg.Q_GRANT 31) true ∧
      (s.queue 31).items = { item with ce := true, ue := false } :: [] ∧ s.get (Q_CFG_MODE 31) = 0) ∧
    late.get (Q_CFG_EN 31) = 0 ∧
    (let s := (queue31 0 1 []).set (Q_CFG_PMID 31) 5
     s.get (Q_CFG_EN 31) = 1 ∧ queueProducer s 31 4 = false ∧ queueProducer s 31 5 = true) ∧
    (let s := queue31 0 1 []
     s.get (Q_CFG_EN 31) = 1 ∧ queueProducer s 31 63 = true ∧ s.get (Q_CFG_MODE 31) = 0 ∧ (s.queue 31).cred ≠ 0 ∧
      ((queue31 0 0 []).queue 31).cred = 0 ∧ s.get (Q_CFG2_CMID 31) = 63 ∧ s.get (Q_CFG2_CMID 31) ≠ 0 ∧ (s.queue 31).items = []) ∧
    (let s := queue31 1 0 [item, item, item]
     s.get (Q_CFG_MODE 31) = 1 ∧ (s.queue 31).items.length < 2 ^ s.get (Q_CFG_DSH 31) ∧ (s.queue 31).items = item :: [item, item] ∧
      item.ue = true) ∧
    (let s := queue31 1 0 [item, item, item, item]
     2 ^ s.get (Q_CFG_DSH 31) ≤ (s.queue 31).items.length) ∧
    (let s := late.set (Q_CFG_DSH 31) 2
     s.get (Q_CFG_EN 31) = 0 ∧ queueRefused s 31 = false ∧ (s.set (Q_CFG_DSH 31) 15).get (Q_CFG_DSH 31) = 15 ∧
      2 ^ s.get (Q_CFG_DSH 31) < (s.set (Q_CFG3_INITCR 31) 5).get (Q_CFG3_INITCR 31) ∧
      (s.set (Q_CFG_BASE 31) 1).get (Q_CFG_BASE 31) % 2 ^ s.get (Q_CFG_DSH 31) ≠ 0) := by unfold Granted; decide +kernel

/-! ### The Percolator, the Kettle, recovery, start of the firmware -/

/-- Change what PERC holds in `late`. -/
def percWith (f : Perc → Perc) : State := { late with perc := f late.perc }

/-- A record of source 31 with code 7. -/
def logRec (cls : BitVec 2) (pending : Bool) : LogRec :=
  { lseq := 3, tb := 0, cls := cls, summ := false, dly := false, src := 31, code := 7, arg0 := 1, arg1 := 2, rep := 1, lastdt := 0, pending := pending }

def logEvent (cls : BitVec 2) : LogEvent := ⟨cls, 31, 7, 1, 2⟩

/-- Queue 31 of PERC, enabled, with one item from source `src`. -/
def items (src : Nat) : State :=
  ((late.set (Q_CFG_EN 31) 1).putQueue 31 { items := [⟨BitVec.ofNat 32 (src * 2 ^ 24), 5, false, false, false⟩] })

/-- The core 4 of PERC with one handler under way. -/
def inHandler : State := late.putCore 4 { stack := [⟨0x100, true, 3, 16, false, 9⟩] }

theorem wit_EventLog :
    ¬PercActs (percWith fun p => { p with running := false }) ∧
    (PercActs late ∧ coalesceFor late (logEvent 1) = none ∧ late.perc.alarms = [] ∧ (logEvent 0).cls = 0 ∧ late.perc.ring.length < 2048 ∧
      late.get PST_STATE_INCID = 0 ∧ (late.bucket 31).tokens ≠ 0 ∧
      ((bucketRefill 31 late).bucket 31).tokens ≠ 0 ∧ findAt (fun _ => none) 31 late.perc.summaries = none ∧
      (let s := percWith fun p => { p with buckets := [(31, { tokens := 0, refillTb := 1000000 })] }
       ((bucketRefill 31 s).bucket 31).tokens = 0) ∧
      let s := percWith fun p => { p with ring := List.replicate 2048 (logRec 1 false) }
      2048 ≤ s.perc.ring.length ∧ s.perc.ring.find? (fun x => !x.pending) = some (logRec 1 false)) ∧
    (PercActs (late.set PST_STATE_INCID 1) ∧ coalesceFor (late.set PST_STATE_INCID 1) (logEvent 3) = none ∧
      (late.set PST_STATE_INCID 1).perc.alarms = [] ∧ 2 ≤ (logEvent 3).cls.toNat ∧ (late.set PST_STATE_INCID 1).get PST_STATE_INCID = 1) ∧
    (let s := percWith fun p => { p with ring := [logRec 1 true], windows := [(63, some ⟨3, 0⟩)] }
     PercActs s ∧ coalesceFor s (logEvent 1) = some 63 ∧ findAt (fun _ => none) 63 s.perc.windows = some (⟨3, 0⟩ : Coalesce) ∧
      s.time / 200000 < (0 + 200000000) / 200000) ∧
    (PercActs (late.set (Q_CFG_EN 31) 1) ∧ (late.set (Q_CFG_EN 31) 1).get (Q_CFG_EN 31) = 1 ∧
      ((late.set (Q_CFG_EN 31) 1).queue 31).items = []) ∧
    (PercActs (items 32) ∧ ((items 32).queue 31).items = ⟨BitVec.ofNat 32 (32 * 2 ^ 24), 5, false, false, false⟩ :: [] ∧
      32 ≤ bitsAt (BitVec.ofNat 32 (32 * 2 ^ 24)).toNat 24 6) ∧
    (PercActs (items 31) ∧ ((items 31).queue 31).items = ⟨BitVec.ofNat 32 (31 * 2 ^ 24), 5, false, false, false⟩ :: [] ∧
      bitsAt (BitVec.ofNat 32 (31 * 2 ^ 24)).toNat 24 6 < 32) ∧
    (let s := { percWith fun p => { p with windows := [(63, some ⟨3, 0⟩)] } with clock := 200000000 }
     PercActs s ∧ findAt (fun _ => none) (63 : Fin 64) s.perc.windows = some (⟨3, 0⟩ : Coalesce) ∧ 0 + 200000000 ≤ s.time ∧
      (percWith fun p => { p with windows := [(63, some ⟨3, 0⟩)] }).time < 0 + 200000000) ∧
    (let s := percWith fun p => { p with offered := 11, overs := 9 }
     PercActs s ∧ s.get PST_STATE_INCID = 0 ∧ 10 < s.perc.offered ∧ 9 ≤ s.perc.overs) ∧
    (let s := { percWith fun p => { p with offered := 1, under := 99 } with regs := (late.set PST_STATE_INCID 1).regs }
     PercActs s ∧ s.get PST_STATE_INCID = 1 ∧ s.perc.offered < 2 ∧ 99 ≤ s.perc.under) ∧
    (late.perc.overs < 9 ∧ late.perc.under < 99 ∧ late.time < late.perc.sumTb + 200000000) ∧
    (let s := { percWith fun p => { p with summaries := [(63, some ⟨5, 0, 2⟩)] } with clock := 200000000 }
     PercActs s ∧ s.perc.sumTb + 200000000 ≤ s.time ∧ s.perc.summaries = [(63, some ⟨5, 0, 2⟩)] ∧ s.perc.ring.length < 2048 ∧ 63 < 64) ∧
    (let s := percWith fun p => { p with ring := [logRec 1 true] }
     PercActs s ∧ flashReady s = true ∧ s.perc.ring.find? (fun r => r.pending && !coalesceOpen s r) = some (logRec 1 true) ∧
      flashReady (percWith fun p => { p with flashTb := some 999999 }) = false) ∧
    late.perc.ring.find? (fun r => r.pending && !coalesceOpen late r) = none ∧
    ((offer (logEvent 1) false late).core 4).stack = [] ∧
    PercActs inHandler ∧ ((offer (logEvent 1) false inHandler).core 4).stack ≠ [] := by
  unfold PercActs
  refine ⟨?_, ?_, ?_, ?_, ?_, ?_, ?_, ?_, ?_, ?_, ?_, ?_, ?_, ?_, ?_, ?_, ?_⟩ <;> decide +kernel

/-- Sequence 3 runs or not, with a sample triggered at 0. -/
def sampled (on : Bool) : State :=
  { percWith fun p => { p with trigTb := some 0 } with clock := 1000000 }.putSeq 3 { active := on }

/-- Pair B in state `st` with the recovery policy of the pairs, of sequencers, of the CAE and of peers switched on, one restart
allowed in an hour. -/
def pairB (st : Nat) (x : Pair) : State :=
  ((((((late.set (CPR_PAIRSTAT_STATE 1) st).set PST_RPOL_PAIRRST 1).set PST_RPOL_ESQSPARE 1).set PST_RPOL_CAEREST 1).set
    PST_RPOL_PEERREL 1).set PST_RPOL_PAIRMAX 1).putPair 1 x

/-- Sequencer 7 is in FAULT and owns group 7; sequencer 6 owns none, is stopped and passed its self-test. -/
def spared : State :=
  (((((pairB 0 {}).set (ESQ_OWN_VALID 6) 0).set (ESQ_STAT_STATE 7) 2).set (ESQ_OWN_VALID 7) 1).set (ESQ_OWN_GRP 7) 7).set (ESQ_STAT_STRES 6) 1

/-- The CAE is in FAULT with parameters that a start accepts. -/
def caeFault : State :=
  (((((((((((pairB 0 {}).wr Reg.CAE_BORE 0x3F800000).wr Reg.CAE_STROKE 0x3F800000).wr Reg.CAE_ROD 0x3F800000).wr Reg.CAE_CR
    0x41200000).set CAE_PEG_JA 2).set CAE_PEG_JB 3).set CAE_KWIN_KJS 2).set CAE_KWIN_KJE 2).set PADC_CFG_N 100).set CAE_STAT2_STATE 2)

/-- Member 3 of the ring has been seen with a Kettle in safe mode that coasts. -/
def peer3 (s : State) : State :=
  { s with ring := { s.ring with peers := [(0, {}), (3, { missed := 0, sts := 0x18 })] } }

theorem wit_Supervision :
    (PercActs late ∧ late.perc.trigTb = none ∧ (sampled true).perc.trigTb = some 0 ∧ ((sampled true).seqOf 3).active = true ∧
      ((sampled false).seqOf 3).active = false ∧ PercActs (sampled false) ∧ (sampled false).get (HADC_SEQSTAT_DONE 3) = 0 ∧
      ((sampled false).set (HADC_SEQSTAT_DONE 3) 1).get (HADC_SEQSTAT_DONE 3) = 1 ∧
      ((sampled false).set HADC_CTL_EN 1).get HADC_CTL_EN = 1 ∧ ((sampled false).set (HADC_SEQCFG_EN 3) 1).get (HADC_SEQCFG_EN 3) = 1) ∧
    (let s := { sampled true with clock := 4000000 }
     PercActs s ∧ s.perc.trigTb = some 0 ∧ (s.seqOf 3).active = true ∧ s.perc.stale = false ∧ 0 + 4000000 ≤ s.time) ∧
    (let s := { late.set KTL_CFG_HBT 2 with clock := 1000000 }
     s.perc.running = true ∧ s.get KTL_CFG_HBT * 32768 / 1000 / 2 * 20000000000 ≤ (s.time - s.perc.hbTb) * 32768 * 105) ∧
    (late.get CPR_PWRSTAT_STATE < 3 ∧ (late.core 4).stack = [] ∧ late.locks = []) ∧
    (let s := late.set KTL_CFG_HBT 100
     kettlePast s (s.get KTL_CFG_HBT * 32768 / 1000) = false) ∧
    (let s := percWith fun p => { p with running := false }
     s.perc.running = false ∧ s.power.romDone = true ∧ s.power.inReset = false ∧ s.get KTL_STAT_SAFE = 0 ∧ s.get CPR_PWRSTAT_STATE < 3 ∧
      s.update.active = [] ∧ s.update.slots = [] ∧ s.update.activeB = [] ∧ s.perc.coldDue = true ∧ s.angleRuns = true ∧ s.hasEsq 7 = true ∧
      ({ s with perc := { s.perc with coldDue := false } } : State).perc.coldDue = false ∧
      ∀ q : Fin 32, s.get (Q_CFG_EN q) = 0) ∧
    (let s := { late with power := { late.power with romDone := false } }
     s.power.romDone = false ∧ s.power.inReset = false ∧ 2 ≤ s.power.startStep ∧ s.update.slots = [] ∧
      let q := rq 0x10 0 config3
      q.opc ∉ [0x00, 0x01, 0x02, 0x03, 0x05, 0x06] ∧ opcListed q.opc.toNat = true ∧ headerStatus q = 0) ∧
    (let s := pairB 6 {}
     PercActs s ∧ s.get PST_RPOL_PAIRRST = 1 ∧ hasPair s 1 = true ∧ s.sysClock = true ∧ s.gnorum.slow = [] ∧ s.update.active = [] ∧
      pairState s 1 = 6 ∧ (restartsOf s 1).length < s.get PST_RPOL_PAIRMAX ∧
      s.get PST_RPOL_PAIRMAX ≤ (restartsOf (pairB 6 { restarts := [0] }) 1).length ∧ pairState (pairB 6 { restarts := [0] }) 1 = 6) ∧
    (let s := (pairB 1 { recover := 2 }).set (CPR_PAIRSTAT_STRES 1) 1
     PercActs s ∧ pairState s 1 = 1 ∧ (s.pair 1).recover = 2 ∧ s.get (CPR_PAIRSTAT_STRES 1) = 1 ∧ s.get (CPR_PAIRCTL_SPLIT 1) = 0) ∧
    (PercActs spared ∧ spared.angleRuns = true ∧ spared.get PST_RPOL_ESQSPARE = 1 ∧ spared.gnorum.slow = [] ∧ spared.hasEsq 7 = true ∧
      spared.get (ESQ_STAT_STATE 7) = 2 ∧ groupOf spared 7 = some 7 ∧ spareFor spared 7 = some (6 : Fin 8).val ∧
      groupBusy spared 7 = false ∧ groupPresent spared 7 = true ∧ ∀ k : Fin 8, k ≠ 7 → groupOf spared k ≠ some 7) ∧
    (PercActs caeFault ∧ caeFault.get PST_RPOL_CAEREST = 1 ∧ caeFault.hasCae = true ∧ caeState caeFault = 2 ∧
      caeFault.perc.caeTb = none ∧ caeFault.gnorum.slow = [] ∧ caeRunFault (caeFclr caeFault) = none) ∧
    (let s := peer3 (pairB 0 {})
     PercActs s ∧ s.angleRuns = true ∧ s.get PST_RPOL_PEERREL = 1 ∧ s.get RING_CFG_MODE = 0 ∧ s.counts.carafe = true ∧ (3 : Fin 4).val ≠ memberNo s ∧
      (3 : Fin 4).val ∈ members s ∧ bitAt (s.peer 3).sts.toNat 3 = true ∧ bitAt (s.peer 3).sts.toNat 4 = true ∧
      bitAt (s.get RING_OREL_ASSERT) 3 = false) ∧
    (let s := late.putSlot 8 255 true { erasing := true }
     PercActs s ∧ (s.slot 8 255 (!activeSlot s 8 255)).erasing = true ∧ (late.slot 8 255 true).erasing = false) ∧
    (let s := { percWith fun p => { p with trialTb := some 0 } with clock := 2000000000 }
     PercActs s ∧ s.perc.trialTb = some 0 ∧ 0 + 2000000000 ≤ s.time ∧
      (percWith fun p => { p with trialTb := some 0 }).time < 0 + 2000000000) := by
  unfold PercActs
  refine ⟨?_, ?_, ?_, ?_, ?_, ?_, ?_, ?_, ?_, ?_, ?_, ?_, ?_, ?_⟩ <;> decide +kernel

/-! ### The ring, power and resets, clocks and ports -/

/-- The ring runs in member 0 with all its links up, in state `st`; `r` is what the member holds. -/
def inRing (st : Nat) (r : Ring) : State :=
  { ((late.set RING_CTL_EN 1).set RING_STAT_LINK 15).set RING_STAT_STATE st with ring := r }

/-- A frame of member 3 for boundary `b`, arriving without error. -/
def ringFrame (ok : Bool) : RingFrame :=
  { westbound := false, orig := 3, turn := false, dly := 0, tbf := 7812, trk := List.replicate 4 ⟨0, 0, false, false, false, 0, 0⟩,
    slots := [emptySlot, emptySlot, emptySlot, ⟨1, 1, 0xC0, 0⟩], crcOk := ok, arrival := (7812 * 128 + 8) * 32 }

/-- A handover to member `k` that is due. -/
def handed (st k : Nat) : State :=
  { inRing st { starts := [⟨2, k, 1000, true, 5⟩] } with
      regs := (((inRing st {}).set RING_STAT_TBLK 1).set RING_CFG_TKEN 1).regs
      gnorum := { late.gnorum with jobs := [(5, { st := .running })] } }

theorem wit_RingControl :
    (late.angleRuns = true ∧ (∀ p ∈ late.ring.follows, p.1 < 4) ∧ late.counts.carafe = true ∧ late.get RING_CTL_EN = 0) ∧
    ((inRing 3 {}).angleRuns = true ∧ (∀ p ∈ (inRing 3 {}).ring.follows, p.1 < 4) ∧ (inRing 3 {}).get RING_CTL_EN = 1 ∧
      ringState (inRing 3 {}) ≠ 4 ∧ ringState (inRing 4 {}) = 4 ∧ (inRing 4 {}).get RING_CTL_EN = 1 ∧
      (inRing 4 {}).get RING_CFG_MODE = 0 ∧ ((inRing 4 {}).set RING_CFG_MODE 1).get RING_CFG_MODE = 1) ∧
    (linkUp (inRing 3 {}) (linkBit .wOut) = true ∧ linkUp (inRing 3 {}) (linkBit .eIn) = true ∧ linkUp late (linkBit .eOut) = false ∧
      3000 ≤ late.power.vsup ∧ ({ late with power := { late.power with vsup := 2999 } } : State).power.vsup < 3000) ∧
    (let s := inRing 3 { isMaster := true, startAt := 999936 }
     s.angleRuns = true ∧ s.get RING_CTL_EN = 1 ∧ s.ring.isMaster = true ∧ 8 ≤ s.now ∧
      s.ring.startAt ≤ (s.now - 8) / 128 * 128 ∧ linkUp s 2 = true ∧ (inRing 3 {}).ring.isMaster = false ∧
      (s.now - 8) / 128 * 128 < (inRing 3 { startAt := 1000064 }).ring.startAt) ∧
    (let s := inRing 2 {}
     s.angleRuns = true ∧ s.get RING_CTL_EN = 1 ∧ linkUp s 0 = true ∧ 2 ≤ ringState s ∧ (ringFrame false).crcOk = false ∧
      s.ring.badE < 3 ∧ 3 ≤ (inRing 2 { badE := 3 }).ring.badE) ∧
    (let s := (inRing 2 { good := 15 }).set RING_STAT_MASTER 3
     (ringFrame true).crcOk = true ∧ (ringFrame true).orig.val ≠ memberNo s ∧ s.ring.isMaster = false ∧
      s.get RING_STAT_MASTER = (ringFrame true).orig.val ∧ s.ring.framed ≠ some (3, 7812 * 128) ∧
      ({ s with ring := { s.ring with framed := some (3, 7812 * 128) } } : State).ring.framed =
        some ((ringFrame true).orig.val, (ringFrame true).tbf.toNat * 128) ∧ s.ring.merged = false ∧ s.ring.follows = [] ∧ s.get RING_CFG_MODE = 0 ∧
      (∀ n : Fin 4, s.get (AT_CTL_EN n) = 0) ∧ (tbError .east (ringFrame true) s).natAbs ≤ 32 ∧ 15 ≤ s.ring.good ∧
      (ringFrame true).westbound = false ∧ linkUp s 2 = true ∧
      ∃ p ∈ filledSlots (ringFrame true).slots, slotOfMember s ((ringFrame true).tbf.toNat * 128) p.1 = none) ∧
    (late.angleRuns = true ∧ late.get RING_CTL_EN = 0) ∧
    (let b := 999680
     let s := inRing 3 { closeAt := b, got := [⟨b, [(3, ⟨1, 1, 0, 0⟩)]⟩], peers := [(2, {})] }
     s.get RING_CTL_EN = 1 ∧ 2 ≤ ringState s ∧ b + 320 ≤ s.now ∧ (∀ p ∈ s.ring.follows, p.1 < 4) ∧ (3 : Fin 4).val ≠ memberNo s ∧
      slotOfMember s b 3 = some ⟨1, 1, 0, 0⟩ ∧ slotOfMember s b 2 = none ∧ 2 ∈ members s ∧
      s.now < (inRing 3 { closeAt := b + 1 }).ring.closeAt + 320) ∧
    (late.angleRuns = true ∧ ringDue late 2 = []) ∧
    (ringDue (handed 3 0) 2 = [⟨2, 0, 1000, true, 5⟩] ∧ eligible (handed 3 0) 0 = true ∧ 0 = memberNo (handed 3 0)) ∧
    (let s := handed 4 3
     let t : State := { s with ring := { s.ring with peers := [(3, { missed := 0, sts := 0x20 })] } }
     ringDue s 2 = [⟨2, 3, 1000, true, 5⟩] ∧ eligible s 3 = false ∧ (s.job 5).st = .running ∧
      (t.set RING_STAT_SEEN 8).angleRuns = true ∧ eligible (t.set RING_STAT_SEEN 8) 3 = true ∧ 3 ≠ memberNo t ∧ ringState t = 4) ∧
    (let s : State := { late with ring := { starts := [⟨1, 0, 1000, true, 0⟩] } }
     s.angleRuns = true ∧ ringDue s 1 ≠ [] ∧ bitAt ((s.set RING_UBMSK_ESQ 0x80).get RING_UBMSK_ESQ) 7 = true ∧ s.hasEsq 7 = true ∧
      s.get (ESQ_CTL_UBREQ 7) = 0 ∧ bitAt (s.get RING_UBMSK_ESQ) 7 = false) ∧
    (bitAt (8 : BitVec 4).toNat (memberNo (late.set RING_CFG_MEMB 3)) = true ∧ bitAt (8 : BitVec 4).toNat (memberNo late) = false) := by
  refine ⟨?_, ?_, ?_, ?_, ?_, ?_, ?_, ?_, ?_, ?_, ?_, ?_, ?_⟩ <;> decide +kernel

/-- The power controller in state `q`, with an exit under way. -/
def powered (q : Nat) : State :=
  { late.set CPR_PWRSTAT_STATE q with power := { late.power with exiting := true, wakes := 0x10 } }

theorem named_events {s : State} (h1 : s.update.calib = []) (h2 : s.units = []) (h3 : s.loops = []) : EventsNamed s :=
  eventsNamed_of h1 (by simp [h2]) (by simp [h3])

theorem wit_PowerAndResets :
    (EventsNamed (powered 2) ∧ EventsNamed (powered 4)) ∧
    ((3 : Nat) = bitsAt (0x1F03 : Word).toNat 0 3 ∧ late.get CPR_PWRSTAT_STATE = 0 ∧ late.power.entering = none) ∧
    (let s (q : Nat) : State := { late with power := { late.power with entering := some q } }
     (s 4).power.entering = some 4 ∧ entryAbort (s 1) 1 = 0 ∧ entryAbort (s 2) 2 = 0 ∧ entryAbort (s 3) 3 = 0 ∧ entryAbort (s 4) 4 = 0 ∧
      entryAbort ((s 4).wr Reg.SCH_OUTENH 0x80000000) 4 ≠ 0 ∧
      let u : State := ({ late with power := { late.power with entering := some 1, enterTb := 900000 } } : State).set (CPR_PAIRSTAT_STATE 0) 3
      u.power.entering = some 1 ∧ entryAbort u 1 ≠ 0 ∧ u.time < u.power.enterTb + 200000 ∧
        u.power.enterTb + 200000 ≤ ({ u with clock := 1100000 } : State).time) ∧
    (bitAt (late.get CPR_PWRCTL_WAKEEN) 4 = false ∧
      (let s := (powered 4).set CPR_PWRCTL_WAKEEN 0x10
       bitAt (s.get CPR_PWRCTL_WAKEEN) 4 = true ∧ s.get CPR_PWRSTAT_STATE ≠ 0 ∧ aonPeriod 999424 = aonPeriod s.time ∧
        aonPeriod 999423 ≠ aonPeriod ({ s with clock := 1010000 } : State).time) ∧
      (let s : State := { late.set CPR_PWRCTL_WAKEEN 0x18 with power := { late.power with entering := some 1 } }
       bitAt (s.get CPR_PWRCTL_WAKEEN) 4 = true ∧ s.get CPR_PWRSTAT_STATE = 0 ∧ s.power.entering ≠ none ∧
        bitAt (s.get CPR_PWRCTL_WAKEEN) 3 = true)) ∧
    (late.power.exiting = false ∧ (powered 1).power.exiting = true ∧ (powered 1).get CPR_PWRSTAT_STATE = 1 ∧
      (powered 2).power.exiting = true ∧ (powered 2).get CPR_PWRSTAT_STATE = 2 ∧
      (powered 4).power.exiting = true ∧ 3 ≤ (powered 4).get CPR_PWRSTAT_STATE ∧
      late.get AON_TMR_MS = 0 ∧ (late.set AON_TMR_MS 1).get AON_TMR_MS ≠ 0 ∧
      (let s : State := { late.set AON_TMR_MS 1 with clock := 20000000 }
       s.get AON_TMR_MS * 20000000 ≤ (s.time - s.power.tmrTb) * 105 ∧ (late.time - late.power.tmrTb) * 105 < (late.set AON_TMR_MS 6).get AON_TMR_MS * 20000000) ∧ bitAt ((powered 4).set CPR_PWRCTL_WAKEEN 8 |>.get CPR_PWRCTL_WAKEEN) 3 = true) ∧
    (({ late with fuses := { late.fuses with dbg := 2 } } : State).fuses.dbg = 2 ∧
      ({ late with fuses := { late.fuses with dbg := 3 } } : State).fuses.dbg = 3 ∧ keptReg Reg.CPR_PWRCTL = false ∧
      notPending Reg.CPR_PWRCTL = true ∧ powerOnHolds late = false ∧
      powerOnHolds ({ late with power := { late.power with porTb := some 1000000 } } : State) = true) ∧
    (late.update.slots = [] ∧ late.update.active = [] ∧ late.power.startStep ≠ (5 : Fin 6).val ∧
      (let s (k : Fin 6) : State := { percWith (fun p => { p with running := false }) with power := { late.power with startStep := k.val } }
       ∀ k : Fin 6, (s k).power.startStep = k.val ∧ (s k).power.inReset = false ∧ 4400 ≤ (s k).power.vsup ∧
        (s k).get CPR_PWRSTAT_STATE = 0 ∧ (s k).get KTL_STAT_SAFE = 0 ∧ (s k).perc.running = false ∧ hasPair (s k) 1 = true ∧
        pairState (s k) 1 = 0 ∧ (s k).get (CPR_PAIRCTL_SPLIT 1) = 0)) ∧
    (let s : State := { percWith (fun p => { p with running := false }) with power := { late.power with startStep := 3, angleReset := true } }
     s.power.angleReset = true ∧ s.clockOk 1 = true ∧ s.power.inReset = false ∧ 3 ≤ s.power.startStep ∧ s.get CPR_PWRSTAT_STATE < 2 ∧
      s.perc.running = false) ∧
    late.power.angleReset = false := by
  refine ⟨⟨named_events rfl rfl rfl, named_events rfl rfl rfl⟩, ?_, ?_, ?_, ?_, ?_, ?_, ?_, ?_⟩ <;> decide +kernel

theorem wit_ClocksAndPorts :
    (late.get PADC_CAL_BUSY = 0 ∧ late.power.xtalLossTb = none ∧
      (let s : State := { late with power := { late.power with xtalLossTb := some 0 } }
       s.power.xtalLossTb = some 0 ∧ s.time < 0 + 2000000 ∧ 0 + 2000000 ≤ ({ s with clock := 2000000 } : State).time)) ∧
    (portsRun late = true ∧ hasPort late (8 + (1 : Fin 2)) = true ∧ pspiRuns late 1 = false ∧
      pspiRuns ({ late with ports := { late.ports with pspiRun := [(1, true)] } } : State) 1 = true ∧
      hasPort late (10 + (3 : Fin 4)) = true ∧ hasPort late 19 = false) ∧
    ((⟨100, true, false, false, 7⟩ : SentMsg).crcOk = true ∧ (⟨100, true, false, false, 7⟩ : SentMsg).calOver25 = false ∧
      (⟨100, false, false, false, 7⟩ : SentMsg).crcOk = false ∧ (⟨100, true, true, false, 7⟩ : SentMsg).calOver25 = true) ∧
    PercActs late ∧ ¬PercActs (percWith fun p => { p with running := false }) ∧
    (let s := late.putSlot 8 255 true { erasing := true }
     portsRun s = true ∧ (∃ x ∈ s.update.slots, x.2.erasing = true) ∧ ∀ x ∈ late.update.slots, x.2.erasing = false) ∧
    (let s : State := { late with fuses := { late.fuses with variant := 0x0C } }
     portsRun s = true ∧ hasPort s 19 = true) := by
  unfold PercActs
  refine ⟨?_, ?_, ?_, ?_, ?_, ?_, ?_⟩ <;> decide +kernel

/-! ### Worked examples of the spec and known vectors

CRC-32C of "123456789", AES-128 of the first block of NIST SP 800-38A F.1.1, AES-CMAC of RFC 4493 example 1, and SHA-256 of "abc" of FIPS 180-4. -/

theorem test_crc32c : crc32c [0x31, 0x32, 0x33, 0x34, 0x35, 0x36, 0x37, 0x38, 0x39] = 0xE3069283 := by decide +kernel

def aesKey : List Byte :=
  [0x2B, 0x7E, 0x15, 0x16, 0x28, 0xAE, 0xD2, 0xA6, 0xAB, 0xF7, 0x15, 0x88, 0x09, 0xCF, 0x4F, 0x3C]

def aesPlain : List Byte :=
  [0x6B, 0xC1, 0xBE, 0xE2, 0x2E, 0x40, 0x9F, 0x96, 0xE9, 0x3D, 0x7E, 0x11, 0x73, 0x93, 0x17, 0x2A]

def aesCipher : List Byte :=
  [0x3A, 0xD7, 0x7B, 0xB4, 0x0D, 0x7A, 0x36, 0x60, 0xA8, 0x9E, 0xCA, 0xF3, 0x24, 0x66, 0xEF, 0x97]

theorem test_aes : Aes.encrypt aesKey aesPlain = aesCipher ∧ Aes.decrypt aesKey aesCipher = aesPlain := by decide +kernel

theorem test_cmac : Aes.cmac aesKey [] =
    [0xBB, 0x1D, 0x69, 0x29, 0xE9, 0x59, 0x37, 0x28, 0x7F, 0xA3, 0x7D, 0x12, 0x9B, 0x75, 0x67, 0x46] := by decide +kernel

theorem test_sha256 : (Sha.sha256 [0x61, 0x62, 0x63]).take 8 = [0xBA, 0x78, 0x16, 0xBF, 0x8F, 0x01, 0xCF, 0xEA] := by decide +kernel

/-- Chapter 5, worked segment of Engine A: P̂ of step 3, two thresholds of step 6 and P̂′ of step 8.
The third, Thi, is 225,978 by R86; the chapter's 225,979 is what P̂ before its rounding gives. -/
theorem test_segment : expectedPeriod 133333 139810 139810 197 = 132932 ∧
    (let k := (openSegment 0 12 0 133333 132932 false late).trk 0
     k.tb = 26580 ∧ k.tlo = 79773) ∧
    expectedPeriod 132932 139811 139810 0 = 132933 ∧ expectedPeriod 132968 139810 139811 0 = 132967 := by decide +kernel

/-- Chapter 6, worked schedule of Engine A: the forecasts of steps 4 and 7, the forecast angle of step 9. -/
theorem test_forecast :
    forecast (2 ^ 24) { angle := 16078165, rate := 17616077, acc := 20000 } 93207 = some 749600 ∧
    forecast (2 ^ 24) { angle := 16391045, rate := 17706780, acc := 20000 } 93207 = some 452434 ∧
    forecastAngle (2 ^ 24) { angle := 16391045, rate := 17706780, acc := 20000 } 132434 = 16530976 := by decide +kernel

/-- Chapter 6, worked schedule, step 2: the words of the descriptor. -/
theorem test_descriptor :
    let d := descOf 0x8AF1C71C 0xC8016C17 0x0004E200 0x00100000 0 0
    d.mode = 2 ∧ d.swept = 2 ∧ d.en = true ∧ d.once = false ∧ d.a1 = 0xF1C71C ∧ d.trimen = true ∧ d.closefb = true ∧ d.pulse = 1 ∧
      d.a2 = 93207 ∧ d.dur = 320000 ∧ d.prof = 1 ∧ d.cyl = 0 ∧ d.ch = 0 ∧ d.reserved = false := by decide +kernel

/-- Chapter 12, worked request: the packet of the trim write of event 3. -/
theorem test_packet :
    packetRequest (.hspi 0) [0x22, 0x01, 0x3A, 0x0F, 0x03, 0, 0, 0, 0x03, 0, 0, 0x80, 0xB0, 0x4F, 0xFF, 0, 0, 0, 0, 0] =
      some { src := .hspi 0, opc := 0x22, flg := 1, seq := 0x0F3A, len := 3, unit := 0, sess := 0,
             params := [0x80000003, 0x00FF4FB0, 0], tag := none } := by decide +kernel

/-- Chapter 15, worked lock sequence: MID 0 owns lock 5 and MID 15 owns lock 9; `lockStep1` and `lockStep2` are the states after steps 1
and 2. -/
def lockStep0 : State := opened { late with locks := [(5, { owner := some 0 }), (9, { owner := some 15 })] }

def lockStep1 : State := after (execLockAcquire 0 9 lockStep0)

def lockStep2 : State := after (execLockAcquire 15 5 lockStep1)

def lockStep3 : State := after (execLockRelease 15 9 lockStep2)

theorem test_lock_wait : lockStep1.resp = ⟨0, 0x000F0002, false⟩ ∧ (lockStep1.wait 0).lock = some 9 := by decide +kernel

theorem test_lock_deadlock : lockStep2.resp = ⟨15, 0x00000003, false⟩ ∧ (lockStep2.wait 15).lock = none := by decide +kernel

theorem test_lock_granted : (lockStep3.lock 9).owner = some 0 ∧ (lockStep3.wait 0).granted = [9] ∧ levelOf lockStep3 184 = true := by
  decide +kernel

theorem test_lock_acquired : (after (exec (.lockAcquire 0 9) lockStep3)).resp = ⟨0, 0, false⟩ := by decide +kernel

theorem test_lock_broken : (after (exec (.lockAcquire 15 5) (locksBreak 0 lockStep3))).resp = ⟨15, 0x000F0001, false⟩ := by decide +kernel

/-- Chapter 15, worked arbitration, steps 2 and 3: AC0 takes the burst from DMA5 as grant 7. -/
theorem test_arbitration_preempts :
    let g : Arb := { order := 1, count := 6, grant := some { mid := 37, order := 0, left := 16, preemptible := true, addr := 0x10180000 } }
    let a := (after (exec (.arbiterGrant 3 6 [⟨0, 8, true, 0x10180100, false⟩]) (late.putArb 3 g))).arb 3
    a.count = 7 ∧ (a.grant.map (·.mid)) = some 0 ∧ a.raised.map (fun r => (r.mid, r.left, r.addr, r.resumes)) = [(37, 10, 0x10180030, true)] := by decide +kernel

/-- Step 5: grant 8 is the refill grant, and DMA5, raised since cycle 5, takes it before ETH0, raised at cycle 8. -/
theorem test_arbitration_refill :
    let waits : List ArbReq := [{ mid := 37, order := 1, left := 10, preemptible := true }, { mid := 18, order := 2, left := 8, preemptible := true }]
    let g : Arb := { order := 3, count := 7, grant := some { mid := 0, order := 1, left := 8, preemptible := true }, raised := waits }
    let a := (after (exec (.arbiterGrant 3 8 []) (late.putArb 3 g))).arb 3
    (a.grant.map (·.mid)) = some 37 ∧ a.refill = true ∧ a.raised.map (·.mid) = [18] := by decide +kernel

/-- The lower bounds of the first wheel check of Engine C: 370,370 tk over 185,185 tk is the ratio 2.0 in 4.12 format (chapter 2). -/
theorem test_ratio : rndNat (370370 * 4096) 185185 = 0x2000 ∧ rndNat (185185 * 4096) 370370 = 0x0800 := by decide +kernel

/-- Chapter 7, the standard injection program: its words spell the instructions of its listing. -/
theorem test_microcode : standardProgram.map (ucodeInstr 7) =
    [.esqWpass 7, .esqFlg 7 1 3, .esqEval 7 0, .esqEdrain 7, .esqEres 7 2, .esqShri 7 3 2 16, .esqOr 7 4 4 3, .esqAndi 7 3 1 1,
     .esqBeq 7 3 0 0, .esqAddi 7 5 5 1, .esqSt 7 5 0 0xF0, .esqSt 7 4 0 0xF1, .esqBeq 7 4 0 0x0E, .esqSwi 7 1, .esqAddi 7 4 0 0,
     .esqJmp 7 0] := by
  decide +kernel

/-! ### Commands that are not well formed -/

/-- A request of host 0 on HSPI. -/
def portReq (sess : BitVec 8) (tag : Option (BitVec 64)) : Req := { rq 0x00 0 [] with src := .hspi 0, sess := sess, tag := tag }

theorem test_wf_request : Instr.wf (.ping (rq 0 0 [])) = true ∧ Instr.wf (.ping (portReq 0 none)) = true ∧
    Instr.wf (.ping (portReq 1 (some 5))) = true := by decide

/-- R226: LEN is the number of parameter words. -/
theorem test_wf_len : Instr.wf (.ping { rq 0 0 [] with len := 1 }) = false := by decide

/-- R226: at most 250 parameter words. -/
theorem test_wf_long : Instr.wf (.ping (rq 0 0 (List.replicate 251 0))) = false ∧
    Instr.wf (.ping (rq 0 0 (List.replicate 250 0))) = true := by decide +kernel

/-- R227, R233: no tag inside the device; over a port, a tag exactly in a session. -/
theorem test_wf_tag : Instr.wf (.ping { rq 0 0 [] with tag := some 0 }) = false ∧ Instr.wf (.ping (portReq 1 none)) = false ∧
    Instr.wf (.ping (portReq 0 (some 0))) = false := by decide

/-- The row of one opcode carries no other. -/
theorem test_wf_opcode : Instr.wf (.info (rq 0 0 [])) = false := by decide

/-- R237: data lengths and identifiers of CAN frames. -/
theorem test_wf_can : Instr.wf (.canFrameReceive 3 ⟨0x7FF, false, false, List.replicate 8 0⟩) = true ∧
    Instr.wf (.canFrameReceive 3 ⟨0x800, false, false, []⟩) = false ∧ Instr.wf (.canFrameReceive 3 ⟨0x800, true, false, []⟩) = true ∧
    Instr.wf (.canFrameReceive 3 ⟨1, false, false, List.replicate 9 0⟩) = false ∧
    Instr.wf (.canFrameReceive 3 ⟨1, false, true, List.replicate 9 0⟩) = false ∧
    Instr.wf (.canFrameReceive 3 ⟨1, false, true, List.replicate 64 0⟩) = true := by decide

/-- R373: four tracker blocks and four slots. -/
theorem test_wf_ring : Instr.wf (.ringFrameReceive .east (ringFrame true)) = true ∧
    Instr.wf (.ringFrameReceive .east { ringFrame true with trk := [] }) = false ∧
    Instr.wf (.ringFrameReceive .west { ringFrame true with slots := [emptySlot] }) = false := by decide

/-- R414: payloads of Ethernet frames. -/
theorem test_wf_eth : EthFrame.wf ⟨false, false, false, false, .udp 0 0 0 0 (List.replicate 1473 0)⟩ = false ∧
    EthFrame.wf ⟨false, false, false, false, .otherIp 0 (List.replicate 1481 0)⟩ = false ∧
    EthFrame.wf ⟨false, false, false, false, .udp 0 0 0 0 [1]⟩ = true := by
  decide +kernel

/-- R305: bursts of 1 to 16 beats, of a MID that R25 gives a master. -/
theorem test_wf_beats : Instr.wf (.arbiterGrant 16 0 []) = false ∧ Instr.wf (.arbiterGrant 16 17 []) = false ∧
    Instr.wf (.arbiterGrant 16 16 [⟨4, 0, true, 0, false⟩]) = false ∧ Instr.wf (.arbiterGrant 16 1 [⟨63, 16, true, 0, false⟩]) = false ∧
    Instr.wf (.arbiterGrant 16 1 [⟨47, 16, true, 0, false⟩]) = true := by decide

/-- R308: DMA channels and the Ethernet ports are preemptible, an application core is not. -/
theorem test_wf_preempt : Instr.wf (.arbiterGrant 16 1 [⟨47, 16, false, 0, false⟩]) = false ∧
    Instr.wf (.arbiterGrant 16 1 [⟨0, 16, true, 0, false⟩]) = false := by decide

/-- R339: PERC's own records have sources below 32. -/
theorem test_wf_log : Instr.wf (.percFaultObserve ⟨1, 32, 0, 0, 0⟩) = false ∧ Instr.wf (.percFaultObserve ⟨1, 31, 0, 0, 0⟩) = true := by decide

/-- R343: a source without an event of class CRIT writes none. -/
theorem test_wf_crit : Instr.wf (.percFaultObserve ⟨0, 31, 0, 0, 0⟩) = false ∧ Instr.wf (.percFaultObserve ⟨0, 25, 0, 0, 0⟩) = true ∧
    Instr.wf (.logRecordOffer ⟨0, 3, 0, 0, 0⟩) = false := by decide

end Sys2Proof.Tests
end

section
/-! SUPPORT. Addresses: ranges of the map as inequalities. -/

namespace Sys2Proof.Machine

theorem within_outside {base n a : Nat} (h : a < base ∨ base + n ≤ a) : within base n a = false := by
  simp only [within, ble_decide, blt_decide, Bool.and_eq_false_imp, decide_eq_true_eq, decide_eq_false_iff_not]
  omega

theorem within_inside {base n a : Nat} (h : base ≤ a) (h' : a < base + n) : within base n a = true := by
  simp only [within, ble_decide, blt_decide, Bool.and_eq_true, decide_eq_true_eq]
  exact ⟨h, h'⟩

theorem blt_true {a b : Nat} (h : a < b) : Nat.blt a b = true := by rw [blt_decide, decide_eq_true h]
theorem blt_false {a b : Nat} (h : b ≤ a) : Nat.blt a b = false := by rw [blt_decide, decide_eq_false (Nat.not_lt.mpr h)]
theorem ble_false {a b : Nat} (h : b < a) : Nat.ble a b = false := by rw [ble_decide, decide_eq_false (Nat.not_le.mpr h)]

end Sys2Proof.Machine
end

section
/-! An idle block: each part of a tk finds nothing to do. -/

namespace Sys2Proof.Machine

open Fields

/-- Nothing in the block waits for a tk to pass. -/
structure Idle (s : State) : Prop where
  boxes : ∀ b : Fin 5, (s.queue (2 * b)).items = []
  ports : ∀ k, (s.port k).rx = []
  late : s.gnorum.late = []
  memory : s.perc.memBad = false
  active : s.update.active = []
  handing : s.ring.handing = []
  units : ∀ p ∈ s.units, p.2.drain = false ∧ p.2.safeAt = none
  loops : ∀ p ∈ s.loops, p.2.enterAt = none
  edges : ∀ n, (s.cmp n).edges = []
  aims : ∀ q : Fin 4, s.get (HADC_SEQCFG_TTYP q) = 4 → synced (syncState s (s.get (HADC_SEQANG_TRK q))) = true

/-- A fold whose every step leaves the state it begins with ends there. -/
theorem foldl_keeps {α : Type} {f : State → α → State} {l : List α} {s : State} (h : ∀ x ∈ l, f s x = s) : l.foldl f s = s :=
  List.foldlRecOn (motive := (· = s)) l f rfl fun _ hb a ha => hb ▸ h a ha

section
variable {s : State} (h : Idle s)
include h

theorem Idle.boxDrain (b : Fin 5) : boxDrain b s = s := by
  simp only [Machine.boxDrain, h.boxes b]
  cases listening s (.mailbox b) && s.flag (Q_CFG_EN (2 * b.val)) <;> rfl

theorem Idle.portDrain (k : Nat) : portDrain k s = s := by simp only [Machine.portDrain, h.ports k, List.isEmpty_nil, cond_true]

theorem Idle.requestsTake : requestsTake s = s := by
  rw [Machine.requestsTake, boxesDrain, foldl_keeps fun b _ => h.boxDrain b, portsDrain, foldl_keeps fun k _ => h.portDrain k]

theorem Idle.updPoll : updPoll s = s := by
  simp only [Machine.updPoll, h.active, List.foldl_nil, cond_eq_ite, ite_self]

theorem Idle.handoversDone : handoversDone s = s := by simp only [Machine.handoversDone, h.handing, List.isEmpty_nil, cond_true]

theorem Idle.safes : safes s = s :=
  foldl_keeps fun p hp => by rw [(h.units p hp).2]; rfl

theorem Idle.drains : drains s = s :=
  foldl_keeps fun p hp => by rw [(h.units p hp).1]; rfl

theorem Idle.entersDue : entersDue s = s :=
  foldl_keeps fun p hp => by rw [h.loops p hp]; rfl

theorem Idle.hadcAims : hadcAims s = s :=
  foldl_keeps fun q hq => by
    have aim := h.aims ⟨q, List.mem_range.mp hq⟩
    by_cases e : s.get (HADC_SEQCFG_TTYP q) = 4
    · simp only [aim e, Bool.not_true, Bool.and_false, whenS_false]
    · simp only [beq_eq_false_iff_ne.mpr e, Bool.false_and, whenS_false]

theorem Idle.unaided : unaided s = s := by
  simp only [Machine.unaided, h.hadcAims, h.safes, h.drains, h.entersDue, h.handoversDone, cond_eq_ite, ite_self, h.requestsTake, h.updPoll]

theorem Idle.cmpLatchesDue : cmpLatchesDue s = s :=
  foldl_keeps fun p _ => by simp only [cmpLatchDue, h.edges p.1, List.filter_nil, List.isEmpty_nil, cond_true]

theorem Idle.memoryTrap : memoryTrap s = s := by simp only [Machine.memoryTrap, h.memory, Bool.not_false, cond_true]

theorem Idle.lateReplies (f : Req → Bool) : lateReplies f s = s := by
  have e : ({ s with gnorum := { s.gnorum with late := [] } } : State) = s := by rw [← h.late]
  simp only [Machine.lateReplies, h.late, List.filter_nil, List.foldl_nil, e]

/-- The clock, TB and what the trackers publish hold nothing back. -/
theorem Idle.tk (c : Nat) (b : BitVec 64) (l : List Snap) : Idle { s with clock := c, tb := b, published := l } :=
  ⟨h.boxes, h.ports, h.late, h.memory, h.active, h.handing, h.units, h.loops, h.edges, h.aims⟩

/-- Nor do the values kept for a frame. -/
theorem Idle.boundary (b : Nat) (u : State) : Idle (boundary b u s) := by
  unfold Machine.boundary
  cases b % 128 == 0
  · exact h
  · exact ⟨h.boxes, h.ports, h.late, h.memory, h.active, h.handing, h.units, h.loops, h.edges, h.aims⟩

/-- A tk of an idle block lets the clock pass, TB with it, and keeps what the trackers publish. -/
theorem Idle.tick : tick s = State.settle (if s.angleRuns = true then
      Machine.boundary (s.now + 1) s { s with clock := s.clock + 1, tb := s.tb + 1, published := (List.range 4).map (abusNow s) }
    else { s with clock := s.clock + 1 }) := by
  simp only [Machine.tick, h.cmpLatchesDue, h.memoryTrap, h.lateReplies]
  cases s.angleRuns
  · exact congrArg State.settle (h.tk _ s.tb s.published).unaided
  · exact congrArg State.settle ((h.tk _ _ _).boundary _ _).unaided
end

/-- On an empty queue a step is a tk. -/
theorem step_empty {s : State} (h : s.pending = []) : step s = .next (tick s) := by rw [step, h]

/-- Settles O2: a step on an empty queue is a tk, and each part of the tk finds nothing to do in an idle block. -/
theorem idleStepIsOneTick : Obligations.IdleStepIsOneTick := by
  unfold Obligations.IdleStepIsOneTick
  intro s pend boxes ports late memory active handing units loops edges aims
  have idle : Idle s := ⟨boxes, ports, late, memory, active, handing, units, loops, edges, aims⟩
  rw [step_empty pend, idle.tick]

end Sys2Proof.Machine
end

section
/-! Bus accesses that end in an error before they reach their target (R11, R295). -/

namespace Sys2Proof.Machine

/-- Below the first register block stands no register. -/
theorem descAt_below {a : Nat} (h : a < 0x40000000) : descAt a = none := by
  have base : ∀ d ∈ descs_IRQC, 0x40000000 ≤ d.base := by decide
  rw [descAt, descsAt, if_pos (by omega), List.find?_eq_none]
  intro d hd
  have := base d hd
  simp only [RegDesc.covers, ble_decide, Bool.and_eq_true, decide_eq_true_eq]
  omega

/-- The registers and the word memories stand from 0x40000000 on (R294). -/
theorem words_above {mid a : Nat} (h : placeOf mid a = .words) : 0x40000000 ≤ a := by
  apply Nat.le_of_not_lt
  intro low
  have memory : angleMemory a = false := by
    simp (disch := omega) only [angleMemory, within_outside, Bool.false_and, Bool.or_self]
  have void : trackerVoid a = false := by
    rw [trackerVoid, within_outside (by omega), Bool.false_and]
  rw [placeOf, memory, void, descAt_below (by omega), Bool.or_self] at h
  simp only [cond_eq_ite] at h
  split at h <;> cases h

/-- The local window of a core's TCM holds no register: at a register every master sees the same address (R275). -/
theorem busAddr_words {mid a : Nat} (h : placeOf mid a = .words) : busAddr mid a = a := by
  have high := words_above h
  simp only [busAddr, within, blt_decide, show decide (a < 0x08000000 + 0x20000) = false from decide_eq_false (by omega),
    Bool.and_false, cond_false]

/-- Only a word has four bytes. -/
theorem accSize_bytes_ne_four {size : AccSize} (h : size ≠ .word) : (AccSize.bytes size != 4) = true := by
  cases size with
  | word => exact absurd rfl h
  | byte => rfl
  | half => rfl

/-- A transfer to a register that is not of an aligned word is an error of cause 2 (R11). -/
theorem judge_words_misfit {s : State} {mid a : Nat} {size : AccSize} (write : Bool) (hi : issues s mid = true)
    (hp : placeOf mid a = .words) (hm : size ≠ .word ∨ a % 4 ≠ 0) : judge s mid a size write = .error 2 := by
  have misfit : (AccSize.bytes size != 4 || a % 4 != 0) = true := by
    rcases hm with hs | ha
    · rw [accSize_bytes_ne_four hs, Bool.true_or]
    · rw [bne_iff_ne.mpr ha, Bool.or_true]
  simp only [judge, hi, hp, misfit, Bool.not_true, cond_false, cond_true]

/-- A write that is judged an error leaves its record alone (R295). -/
theorem busWrite_error {s : State} {mid addr c : Nat} {size : AccSize} (v : Word)
    (h : judge s mid (busAddr mid addr) size true = .error c) :
    busWrite mid addr size v s = (false, recordError mid (busAddr mid addr) c true s) := by
  simp only [busWrite, h]

/-- A read that is judged an error is recorded and answered with an error response (R295). -/
theorem busRead_error {s : State} {mid addr c : Nat} {size : AccSize} (h : judge s mid (busAddr mid addr) size false = .error c) :
    busRead mid addr size s = (none, respondError mid 0 (recordError mid (busAddr mid addr) c false s)) := by
  simp only [busRead, h]

theorem exec_registerWrite (mid : Fin 64) (addr v : Word) (size : AccSize) (s : State) :
    exec (.registerWrite mid addr size v) s = done (busWrite mid addr.toNat size v s).2 := rfl

theorem exec_failedReadAccess (mid : Fin 64) (addr : Word) (size : AccSize) (s : State) :
    exec (.failedReadAccess mid addr size) s = done (busRead mid addr.toNat size s).2 := rfl

/-- Settles O11: the transfer is judged an error of cause 2 before it reaches the register. -/
theorem registerTransferSize : Obligations.RegisterTransferSize := by
  unfold Obligations.RegisterTransferSize
  intro s mid addr v size hi hp hm
  have ha := busAddr_words hp
  have judged (write : Bool) : judge s mid (busAddr mid addr.toNat) size write = .error 2 := ha.symm ▸ judge_words_misfit write hi hp hm
  constructor
  · rw [exec_registerWrite, busWrite_error v (judged true), ha, done_eq]
  · rw [exec_failedReadAccess, busRead_error (judged false), ha, done_eq, respondError]

end Sys2Proof.Machine
end

section
/-! Granted reads of registers, and the reads that have an effect (R12, R15, R60, R61, R199, R215). -/

namespace Sys2Proof.Machine

open Fields

/-- A register of a block stands at `a`, whose read does not meet an error of a memory. -/
def registerAt (a : Nat) : Bool :=
  decide (0x40000000 ≤ a ∧ a < 0x60000000 ∧ a % 4 = 0) && (descAt a).isSome && !angleMemory a && !within 0x5006A000 0x1000 a

theorem registerAt_iff {a : Nat} : registerAt a = true ↔ (0x40000000 ≤ a ∧ a < 0x60000000 ∧ a % 4 = 0) ∧ (∃ d, descAt a = some d) ∧
    angleMemory a = false ∧ within 0x5006A000 0x1000 a = false := by
  simp only [registerAt, Bool.and_eq_true, decide_eq_true_eq, Bool.not_eq_true', Option.isSome_iff_exists, and_assoc]

theorem placeOf_register {mid a : Nat} (h : registerAt a = true) : placeOf mid a = .words := by
  obtain ⟨⟨low, high, aligned⟩, ⟨d, hd⟩, memory, _⟩ := registerAt_iff.mp h
  have word : a / 4 * 4 = a := by omega
  simp (disch := omega) only [placeOf, within_outside, tcmWindow, sramBank, memory, word, hd, Bool.false_and, Bool.and_false,
    cond_false, Option.isSome_none, Bool.or_self, Bool.false_or]
  cases trackerVoid a <;> rfl

/-- A granted access to a register passes. -/
theorem judge_granted {s : State} {mid a : Nat} {write : Bool} (h : registerAt a = true) (g : Granted s mid a write) :
    judge s mid a .word write = .pass := by
  obtain ⟨issued, allowed, _⟩ := g
  obtain ⟨⟨_, _, aligned⟩, _⟩ := registerAt_iff.mp h
  simp only [judge, issued, placeOf_register h, allowed, aligned, AccSize.bytes]
  rfl

/-- A granted read of a register returns what the register read gives, and has its effect (R12, R15). -/
theorem busRead_register {s : State} {mid a : Nat} (h : registerAt a = true) (present : absentAt s a = false)
    (g : Granted s mid a false) :
    busRead mid a .word s = (some (regRead mid a s).1, respond mid (regRead mid a s).1 (regRead mid a s).2) := by
  obtain ⟨_, _, debug⟩ := id g
  obtain ⟨_, _, memory, schedule⟩ := registerAt_iff.mp h
  have place : placeOf mid a = .words := placeOf_register h
  have effect : (mid == 20 && s.power.inhibit) = false := by
    cases e : mid == 20 with
    | false => rfl
    | true => exact debug (beq_iff_eq.mp e)
  have read : wordRead mid a s = regRead mid a s := by simp only [wordRead, present, memory, schedule, cond_false]
  simp only [busRead, busAddr_words place, judge_granted h g, place, read, effect, cond_false]

/-! ### Which blocks are present, and how their registers are read -/

/-- The timers and the housekeeping converter are present on every variant. -/
theorem present_timers {a : Nat} (h : 0x40040000 ≤ a) (h' : a < 0x40060000) (s : State) : absentAt s a = false := by
  have low : Nat.blt a 0x40000000 = false := blt_false (by omega)
  simp (disch := omega) only [absentAt, low, within_outside, cond_false, Bool.or_self]

/-- So are the timed inputs, but for the VR registers of the inputs without a front end (R56). -/
theorem present_inputs {a : Nat} (h : 0x50008000 ≤ a) (h' : a < 0x50009000) (off : a % 0x100 < 0x10 ∨ 0x1C ≤ a % 0x100) (s : State) :
    absentAt s a = false := by
  have low : Nat.blt a 0x40000000 = false := blt_false (by omega)
  simp (disch := omega) only [absentAt, low, within_outside, cond_false, Bool.or_self]
  simp only [cond_eq_ite, ite_self]

/-- So are the trackers, below the offsets at which no register stands (R45). -/
theorem present_trackers {a : Nat} (h : 0x50000000 ≤ a) (h' : a < 0x50040000) (off : a % 0x10000 < 0x8000) (s : State) :
    absentAt s a = false := by
  have low : Nat.blt a 0x40000000 = false := blt_false (by omega)
  have void : trackerVoid a = false := by rw [trackerVoid, ble_false off, Bool.and_false]
  simp (disch := omega) only [absentAt, low, within_outside, void, cond_false, Bool.or_self]
  simp only [cond_eq_ite, ite_self]

theorem regRead_trackers {mid n a : Nat} (h : 0x50000000 ≤ a) (h' : a < 0x50040000) (off : a % 0x10000 < 0x8000)
    (hn : (a - 0x50000000) / 0x10000 = n) (s : State) : regRead mid a s = atRead mid n a s := by
  simp (disch := omega) only [regRead, blt_false, blt_true, within_outside, hn, cond_false, cond_true, Bool.or_self, Bool.false_and]

theorem regRead_inputs {mid a : Nat} (h : 0x50008000 ≤ a) (h' : a < 0x50009000) (off : a % 0x100 < 0x40) (s : State) :
    regRead mid a s = plainRead a s := by
  have offset : Nat.ble 0x40 (a % 0x100) = false := ble_false off
  simp (disch := omega) only [regRead, blt_false, within_outside, within_inside, offset, cond_false, cond_true,
    Bool.or_self, Bool.false_and, Bool.and_false]

theorem regRead_captures {mid n a : Nat} (h : 0x50008000 ≤ a) (h' : a < 0x50009000) (off : 0x40 ≤ a % 0x100)
    (hn : (a - 0x50008000) / 0x100 = n) (s : State) : regRead mid a s = capRegRead mid n a s := by
  have offset : Nat.ble 0x40 (a % 0x100) = true := Nat.ble_eq_true_of_le off
  simp (disch := omega) only [regRead, blt_false, within_outside, within_inside, offset, hn, cond_false, cond_true,
    Bool.or_self, Bool.false_and, Bool.and_self]

theorem regRead_timers {mid a : Nat} (h : 0x40040000 ≤ a) (h' : a < 0x40050000) (base : a < 0x40043000 ∨ 0x40043100 ≤ a) (s : State) :
    regRead mid a s = gptRead ((a - 0x40040000) / 0x4000 * 8 + a % 0x4000 / 0x80) a s := by
  simp (disch := omega) only [regRead, blt_false, blt_true, within_outside, cond_false, cond_true, Bool.or_self, Bool.false_and]

theorem regRead_hadc {mid a : Nat} (h : 0x40050000 ≤ a) (h' : a < 0x40060000) (s : State) : regRead mid a s = plainRead a s := by
  have low : Nat.blt a 0x40080000 = true := blt_true (by omega)
  simp (disch := omega) only [regRead, blt_false, low, within_outside, cond_false, cond_true, Bool.or_self, Bool.false_and]

/-- Where the fields that a read clears stand at the top of the register, the read keeps what is below them (R12). -/
theorem plainRead_clears {a k : Nat} (h : 0xFFFFFFFF ^^^ (regAt a).rc = 2 ^ k - 1) (h0 : (regAt a).rc ≠ 0) (s : State) :
    plainRead a s = (s.rd a, s.wrn a (s.rdn a % 2 ^ k)) := by
  simp only [plainRead, h, Nat.and_two_pow_sub_one_eq_mod, beq_eq_false_iff_ne.mpr h0, cond_false]

/-! ### Pops of capture queues -/

/-- A field write leaves every other register alone. -/
theorem rd_set_ne (s : State) (f : Fld) (v : Nat) {b : Nat} (h : b ≠ f.reg) : (s.set f v).rd b = s.rd b := rd_wr_ne s _ h

section
variable {n : Nat} {s : State}

/-- Where the full queue has dropped nothing in this tk, a pop undoes nothing (R61). -/
theorem capPopped_keeps (h : ∀ d, (s.inp n).lateDrop = some d → d.tb ≠ s.now) : capPopped n s = s := by
  cases e : (s.inp n).lateDrop with
  | none => simp only [capPopped, e]
  | some d => simp only [capPopped, e, bne_iff_ne.mpr (h d e), cond_true]

/-- What the full queue has dropped in this tk is stored after all (R61). -/
theorem capPopped_late {d : LateDrop} (h : (s.inp n).lateDrop = some d) (ht : d.tb = s.now) :
    capPopped n s = ((s.putInp n { s.inp n with
        queue := (s.inp n).queue ++ [{ d.entry with ovrb := d.dropped }], stored := some { d.entry with ovrb := d.dropped },
        dropped := d.more != 0, lateDrop := none }).setb (CAP_STAT_OVR n) (d.ovr || d.more != 0)).set (CAP_STAT_DROP n)
      (min (2 ^ (CAP_STAT_DROP n).width - 1) (d.count + d.more)) := by
  simp only [capPopped, h, ht, bne_self_eq_false, cond_false]

/-- Either way the pop reaches its own input and its own CAP_STAT only. -/
theorem capPopped_frame (n : Nat) (s : State) :
    (∀ m, m ≠ n → (capPopped n s).inp m = s.inp m) ∧ (∀ r, r ≠ Reg.CAP_STAT n → (capPopped n s).rd r = s.rd r) ∧
      (capPopped n s).hold = s.hold ∧ (capPopped n s).mem = s.mem := by
  by_cases late : ∃ d, (s.inp n).lateDrop = some d ∧ d.tb = s.now
  · obtain ⟨d, hd, ht⟩ := late
    rw [capPopped_late hd ht]
    refine ⟨fun m hm => ?_, fun r hr => ?_, ?_, ?_⟩
    · rw [set_inp_of, setb_eq, set_inp_of, inp_putInp_ne s _ hm]
    · rw [rd_set_ne _ _ _ hr, setb_eq, rd_set_ne _ _ _ hr, putInp_rd]
    · rw [set_hold, setb_eq, set_hold, putInp_hold]
    · rw [set_mem, setb_eq, set_mem, putInp_mem]
  · rw [capPopped_keeps fun d hd ht => late ⟨d, hd, ht⟩]
    exact ⟨fun _ _ => rfl, fun _ _ => rfl, rfl, rfl⟩

theorem capPopped_flag {d : LateDrop} (h : (s.inp n).lateDrop = some d) (ht : d.tb = s.now) (hm : d.more = 0) :
    (capPopped n s).flag (CAP_STAT_OVR n) = d.ovr := by
  rw [capPopped_late h ht, State.flag, get_set_ne _ _ _ _ (show 16 + 16 ≤ 32 by decide) (.inr (.inl (show 8 + 1 ≤ 16 by decide))),
    setb_eq, get_set_self _ _ _ (show 8 + 1 ≤ 32 by decide), hm]
  cases d.ovr <;> rfl

/-- A read of TSL with DEST = bus takes the entry at the head (R60). -/
theorem capRead_bus {e : CapEntry} {rest : List CapEntry} (h : s.get (TI_CFG_DEST n) = 0) (hq : (s.inp n).queue = e :: rest) :
    capRead s n = (BitVec.ofNat 32 e.ts, BitVec.ofNat 32 (e.ts / 2 ^ 32), infoWord e,
      capPopped n (s.putInp n { s.inp n with queue := rest })) := by
  simp only [capRead, h, hq, beq_self_eq_true, cond_true]

variable (s n)

@[simp] theorem putHold_rd (mid a : Nat) (v : Word) (b : Nat) : (putHold mid a v s).rd b = s.rd b := rfl
@[simp] theorem putHold_inp_of (mid a : Nat) (v : Word) (m : Nat) : (putHold mid a v s).inp m = s.inp m := rfl
@[simp] theorem putHold_flag (mid a : Nat) (v : Word) (f : Fld) : (putHold mid a v s).flag f = s.flag f := rfl
@[simp] theorem putHold_mem (mid a : Nat) (v : Word) : (putHold mid a v s).mem = s.mem := rfl
@[simp] theorem respond_rd (mid : Nat) (v : Word) (b : Nat) : (respond mid v s).rd b = s.rd b := rfl
@[simp] theorem respond_inp_of (mid : Nat) (v : Word) (m : Nat) : (respond mid v s).inp m = s.inp m := rfl
@[simp] theorem respond_flag (mid : Nat) (v : Word) (f : Fld) : (respond mid v s).flag f = s.flag f := rfl
@[simp] theorem respond_mem (mid : Nat) (v : Word) : (respond mid v s).mem = s.mem := rfl
@[simp] theorem respond_hold (mid : Nat) (v : Word) : (respond mid v s).hold = s.hold := rfl
@[simp] theorem respond_resp (mid : Nat) (v : Word) : (respond mid v s).resp = { mid := mid, data := v, err := false } := rfl
@[simp] theorem respond_gpt_of (mid : Nat) (v : Word) (m : Nat) : (respond mid v s).gpt m = s.gpt m := rfl
@[simp] theorem respond_get (mid : Nat) (v : Word) (f : Fld) : (respond mid v s).get f = s.get f := rfl

end

/-- The pending words stand below the lock block. -/
theorem notPending_above {a : Nat} (h : 0x40010000 ≤ a) : notPending a = true := by
  simp only [notPending, List.all_eq_true, List.mem_range, bne_iff_ne, Reg.IRQC_PNDSET]
  intro w hw
  omega

/-! ### The reads of `ReadsWithEffect` -/

theorem registerAt_TI_STAT : ∀ n : Fin 16, registerAt (Reg.TI_STAT n) = true := by decide
theorem registerAt_AT_PHASEL : ∀ n : Fin 4, registerAt (Reg.AT_PHASEL n) = true := by decide
theorem registerAt_CAP_TSL : ∀ n : Fin 16, registerAt (Reg.CAP_TSL n) = true := by decide
theorem registerAt_GPTt_CAP : ∀ (t : Fin 32) (x : Fin 2), registerAt (Reg.GPTt_CAP t x) = true := by decide
theorem registerAt_HADC_RES : ∀ j : Fin 32, registerAt (Reg.HADC_RES j) = true := by decide

theorem rc_TI_STAT : ∀ n : Fin 16, (regAt (Reg.TI_STAT n)).rc = 0xFFFF0000 := by decide
theorem rc_HADC_RES : ∀ j : Fin 32, (regAt (Reg.HADC_RES j)).rc = 0x80000000 := by decide

section
variable {s : State} {mid : Nat}

/-- RC_FIELD_READ of TI.STAT: BLKCNT clears (R12). -/
theorem busRead_TI_STAT (n : Fin 16) (g : Granted s mid (Reg.TI_STAT n) false) :
    (busRead mid (Reg.TI_STAT n) .word s).2 =
      respond mid (s.rd (Reg.TI_STAT n)) (s.wrn (Reg.TI_STAT n) (s.rdn (Reg.TI_STAT n) % 2 ^ 16)) := by
  have base : Reg.TI_STAT n = 0x5000800C + n * 0x100 := rfl
  rw [busRead_register (registerAt_TI_STAT n) (present_inputs (by omega) (by omega) (by omega) s) g,
    regRead_inputs (by omega) (by omega) (by omega), plainRead_clears (k := 16) (by rw [rc_TI_STAT]; rfl) (by rw [rc_TI_STAT]; decide)]

/-- LOW_WORD_READ of AT.PHASEL: the high word of the same phase is kept (R15, R35). -/
theorem busRead_AT_PHASEL (n : Fin 4) (g : Granted s mid (Reg.AT_PHASEL n) false) :
    (busRead mid (Reg.AT_PHASEL n) .word s).2 = respond mid (BitVec.ofNat 32 (trackerAt s n s.now).phase)
      (putHold mid (Reg.AT_PHASEH n) (BitVec.ofNat 32 ((trackerAt s n s.now).phase / 2 ^ 32)) s) := by
  have base : Reg.AT_PHASEL n = 0x50000004 + n * 0x10000 := rfl
  have other : Reg.AT_PHASEL n ≠ Reg.AT_ANG n := by rw [base, Reg.AT_ANG]; omega
  rw [busRead_register (registerAt_AT_PHASEL n) (present_trackers (by omega) (by omega) (by omega) s) g,
    regRead_trackers (n := n) (by omega) (by omega) (by omega) (by omega)]
  simp only [atRead, beq_eq_false_iff_ne.mpr other, beq_self_eq_true, cond_true, cond_false, asWord]

/-- CAP_TSL_READ with DEST = bus (R60). -/
theorem busRead_CAP_TSL (n : Fin 16) {e : CapEntry} {rest : List CapEntry} (g : Granted s mid (Reg.CAP_TSL n) false)
    (h : s.get (TI_CFG_DEST n) = 0) (hq : (s.inp n).queue = e :: rest) :
    (busRead mid (Reg.CAP_TSL n) .word s).2 = respond mid (BitVec.ofNat 32 e.ts)
      (putHold mid (Reg.CAP_INFO n) (infoWord e) (putHold mid (Reg.CAP_TSH n) (BitVec.ofNat 32 (e.ts / 2 ^ 32))
        (capPopped n (s.putInp n { s.inp n with queue := rest })))) := by
  have base : Reg.CAP_TSL n = 0x50008040 + n * 0x100 := rfl
  rw [busRead_register (registerAt_CAP_TSL n) (present_inputs (by omega) (by omega) (by omega) s) g,
    regRead_captures (n := n) (by omega) (by omega) (by omega) (by omega)]
  simp only [capRegRead, capRead_bus h hq, beq_self_eq_true, cond_true]

/-- GPT_CAPTURE_READ pops the queue of its channel (R199). -/
theorem busRead_GPTt_CAP (t : Fin 32) (x : Fin 2) (g : Granted s mid (Reg.GPTt_CAP t x) false) :
    (busRead mid (Reg.GPTt_CAP t x) .word s).2 = respond mid (gptCapPop s t x).1 (gptCapPop s t x).2 := by
  have base : Reg.GPTt_CAP t x = 0x40040018 + t / 8 * 0x4000 + t % 8 * 0x80 + x * 0x10 := rfl
  have timer : (Reg.GPTt_CAP t x - 0x40040000) / 0x4000 * 8 + Reg.GPTt_CAP t x % 0x4000 / 0x80 = t := by omega
  have count : Reg.GPTt_CAP t x ≠ Reg.GPTt_CNT t := by rw [base, Reg.GPTt_CNT]; omega
  rw [busRead_register (registerAt_GPTt_CAP t x) (present_timers (by omega) (by omega) s) g,
    regRead_timers (by omega) (by omega) (by omega), timer]
  have read : gptRead t (Reg.GPTt_CAP t x) s = gptCapPop s t x := by
    simp only [gptRead, beq_eq_false_iff_ne.mpr count, Bool.false_and, cond_false]
    obtain hx | hx : x.val = 0 ∨ x.val = 1 := by omega
    · rw [hx]
      simp only [beq_self_eq_true, cond_true]
    · have other : Reg.GPTt_CAP t 1 ≠ Reg.GPTt_CAP t 0 := by unfold Reg.GPTt_CAP; omega
      rw [hx]
      simp only [beq_eq_false_iff_ne.mpr other, beq_self_eq_true, cond_true, cond_false]
  rw [read]

/-- RES_READ: NEW clears (R215). -/
theorem busRead_HADC_RES (j : Fin 32) (g : Granted s mid (Reg.HADC_RES j) false) :
    (busRead mid (Reg.HADC_RES j) .word s).2 = respond mid (s.rd (Reg.HADC_RES j)) (s.set (HADC_RES_NEW j) 0) := by
  have base : Reg.HADC_RES j = 0x40050180 + j * 4 := rfl
  have new : s.wrn (Reg.HADC_RES j) (s.rdn (Reg.HADC_RES j) % 2 ^ 31) = s.set (HADC_RES_NEW j) 0 := by
    have top : s.rdn (Reg.HADC_RES j) / 2 ^ 32 = 0 := Nat.div_eq_of_lt (s.rd (Reg.HADC_RES j)).isLt
    have bits : putBits (s.rdn (Reg.HADC_RES j)) 31 1 0 = s.rdn (Reg.HADC_RES j) % 2 ^ 31 := by rw [putBits_eq, top]; omega
    rw [← bits]
    rfl
  rw [busRead_register (registerAt_HADC_RES j) (present_timers (by omega) (by omega) s) g,
    regRead_hadc (by omega) (by omega), plainRead_clears (k := 31) (by rw [rc_HADC_RES]; rfl) (by rw [rc_HADC_RES]; decide), new]

end

/-! ### Pops of the capture queues of the timers -/

section
variable {s : State} {t x : Nat} {v : Word} {rest : List Word}

theorem gptCapPop_keeps (hq : ((s.gpt t).chan x).queue = v :: rest)
    (h : ∀ d, ((s.gpt t).chan x).lateDrop = some d → d.tb ≠ s.now) :
    gptCapPop s t x = (v, s.putGpt t ((s.gpt t).putChan x { (s.gpt t).chan x with queue := rest })) := by
  have none_late : (((s.gpt t).chan x).lateDrop.filter fun d => d.tb == s.now) = none := by
    rw [Option.filter_eq_none_iff]
    exact fun d hd e => h d hd (beq_iff_eq.mp e)
  simp only [gptCapPop, hq, none_late]

/-- What the full queue has dropped in this tk is stored after all, and its overflow undone (R199). -/
theorem gptCapPop_late {d : GptDrop} (hq : ((s.gpt t).chan x).queue = v :: rest)
    (hd : ((s.gpt t).chan x).lateDrop = some d) (ht : d.tb = s.now) :
    gptCapPop s t x = (v, ((s.putGpt t ((s.gpt t).putChan x
        { (s.gpt t).chan x with queue := rest ++ [d.val], lateDrop := none })).setb (GPTt_CSTAT_OVR t x) d.ovr).set
      (GPTt_CSTAT_DROP t x) d.count) := by
  simp only [gptCapPop, hq, hd, Option.filter_some, ht, beq_self_eq_true, if_true]

@[simp] theorem gptChan_putChan (g : Gpt) (x : Nat) (c : GptChan) : (g.putChan x c).chan x = c := by
  unfold Gpt.putChan Gpt.chan
  cases x == 0 <;> rfl

end

/-! ### The commands that read -/

section
variable (mid : Fin 64) (s : State)

theorem exec_rcFieldRead (addr : Word) : exec (.rcFieldRead mid addr) s = done (busRead mid addr.toNat .word s).2 := rfl
theorem exec_lowWordRead (addr : Word) : exec (.lowWordRead mid addr) s = done (busRead mid addr.toNat .word s).2 := rfl
theorem exec_capTslRead (n : Fin 16) : exec (.capTslRead mid n) s = done (busRead mid (Reg.CAP_TSL n) .word s).2 := rfl
theorem exec_gptCaptureRead (t : Fin 32) (x : Fin 2) :
    exec (.gptCaptureRead mid t x) s = done (busRead mid (Reg.GPTt_CAP t x) .word s).2 := rfl
theorem exec_resRead (j : Fin 32) : exec (.resRead mid j) s = done (busRead mid (Reg.HADC_RES j) .word s).2 := rfl

end

/-- An address of 32 bits as a word is that address. -/
theorem toNat_address {a : Nat} (h : a < 2 ^ 32) : (BitVec.ofNat 32 a).toNat = a := by
  rw [BitVec.toNat_ofNat, Nat.mod_eq_of_lt h]

/-- CAP_TSL_READ: the entry leaves, its other two words are kept, and the push that the full queue dropped in this tk is made. -/
theorem capTslRead_effect {s : State} {mid : Fin 64} {n : Fin 16} {e : CapEntry} {rest : List CapEntry}
    (g : Granted s mid (Reg.CAP_TSL n) false) (hdest : s.get (TI_CFG_DEST n) = 0) (hq : (s.inp n).queue = e :: rest) :
    ∃ t, exec (.capTslRead mid n) s = .next t ∧ t.resp = { mid := mid, data := BitVec.ofNat 32 e.ts, err := false } ∧
      (∀ m, m ≠ n.val → t.inp m = s.inp m) ∧
      findAt (fun _ => none) (holdKey mid (Reg.CAP_TSH n)) t.hold = some (BitVec.ofNat 32 (e.ts / 2 ^ 32)) ∧
      findAt (fun _ => none) (holdKey mid (Reg.CAP_INFO n)) t.hold = some (infoWord e) ∧
      (∀ r, r ≠ Reg.CAP_STAT n → notPending r = true → t.rd r = s.rd r) ∧ t.mem = s.mem ∧
      ((∀ d, (s.inp n).lateDrop = some d → d.tb ≠ s.now) → (t.inp n).queue = rest ∧ t.rd (Reg.CAP_STAT n) = s.rd (Reg.CAP_STAT n)) ∧
      ∀ d, (s.inp n).lateDrop = some d → d.tb = s.now → (t.inp n).queue = rest ++ [{ d.entry with ovrb := d.dropped }] ∧
        (d.more = 0 → t.flag (CAP_STAT_OVR n) = d.ovr) := by
  have stat : notPending (Reg.CAP_STAT n) = true := notPending_above (by unfold Reg.CAP_STAT; omega)
  have keys : holdKey mid (Reg.CAP_TSH n) ≠ holdKey mid (Reg.CAP_INFO n) := by unfold holdKey Reg.CAP_TSH Reg.CAP_INFO; omega
  rw [exec_capTslRead, busRead_CAP_TSL n g hdest hq]
  generalize hu : s.putInp n { s.inp n with queue := rest } = u
  have taken : (u.inp n).queue = rest ∧ (u.inp n).lateDrop = (s.inp n).lateDrop := by rw [← hu, inp_putInp_self]; exact ⟨rfl, rfl⟩
  have same : (∀ m, m ≠ n.val → u.inp m = s.inp m) ∧ (∀ r, u.rd r = s.rd r) ∧ u.mem = s.mem ∧ u.now = s.now := by
    rw [← hu]
    exact ⟨fun m hm => inp_putInp_ne s _ hm, fun _ => rfl, rfl, rfl⟩
  obtain ⟨queue, late⟩ := taken
  obtain ⟨inputs, regs, mem, now⟩ := same
  obtain ⟨inputs', regs', -, mem'⟩ := capPopped_frame n u
  refine ⟨_, rfl, by simp, fun m hm => by simp [inputs' m hm, inputs m hm], ?_, ?_, fun r hr hp => ?_, by simp [mem', mem], fun h => ?_,
    fun d hd ht => ?_⟩
  · rw [settle_hold, respond_hold]
    simp only [putHold]
    rw [findAt_putAt_ne _ _ _ keys, findAt_putAt_self]
  · rw [settle_hold, respond_hold]
    simp only [putHold, findAt_putAt_self]
  · rw [settle_rd _ hp, respond_rd, putHold_rd, putHold_rd, regs' r hr, regs r]
  · rw [settle_rd _ stat, capPopped_keeps (late ▸ now ▸ h)]
    simp [queue, regs]
  · have hd' := late.trans hd
    have ht' := ht.trans now.symm
    refine ⟨?_, fun hm => ?_⟩
    · rw [settle_inp_of, respond_inp_of, putHold_inp_of, putHold_inp_of, capPopped_late hd' ht', set_inp_of, setb_eq, set_inp_of,
        inp_putInp_self, queue]
    · rw [settle_flag _ stat, respond_flag, putHold_flag, putHold_flag, capPopped_flag hd' ht' hm]

/-- GPT_CAPTURE_READ on a queue that has dropped a value in this tk. -/
theorem gptCaptureRead_late {s : State} {mid : Fin 64} {t : Fin 32} {x : Fin 2} {v : Word} {rest : List Word} {d : GptDrop}
    (g : Granted s mid (Reg.GPTt_CAP t x) false) (hq : ((s.gpt t).chan x).queue = v :: rest)
    (hd : ((s.gpt t).chan x).lateDrop = some d) (ht : d.tb = s.now) :
    ∃ u, exec (.gptCaptureRead mid t x) s = .next u ∧
      u.resp = { mid := mid, data := v, err := false } ∧ ((u.gpt t).chan x).queue = rest ++ [d.val] ∧
      u.flag (GPTt_CSTAT_OVR t x) = d.ovr ∧ u.get (GPTt_CSTAT_DROP t x) = d.count % 2 ^ 16 ∧
      (∀ r, r ≠ Reg.GPTt_CSTAT t x → notPending r = true → u.rd r = s.rd r) ∧ u.mem = s.mem := by
  have stat : notPending (Reg.GPTt_CSTAT t x) = true := notPending_above (by unfold Reg.GPTt_CSTAT; omega)
  rw [exec_gptCaptureRead, busRead_GPTt_CAP t x g, gptCapPop_late hq hd ht]
  refine ⟨_, rfl, ?_, ?_, ?_, ?_, fun r hr hp => ?_, ?_⟩
  · rw [settle_resp, respond_resp]
  · rw [settle_gpt_of, respond_gpt_of, set_gpt_of, setb_eq, set_gpt_of, gpt_putGpt_self, gptChan_putChan]
  · rw [settle_flag _ stat, respond_flag, State.flag,
      get_set_ne _ _ _ _ (show 16 + 16 ≤ 32 by decide) (.inr (.inl (show 3 + 1 ≤ 16 by decide))), setb_eq,
      get_set_self _ _ _ (show 3 + 1 ≤ 32 by decide)]
    cases d.ovr <;> rfl
  · rw [settle_get _ stat, respond_get, get_set_self _ _ _ (show 16 + 16 ≤ 32 by decide)]
    rfl
  · rw [settle_rd _ hp, respond_rd, rd_set_ne _ _ _ hr, setb_eq, rd_set_ne _ _ _ hr, putGpt_rd]
  · rw [settle_mem, respond_mem, set_mem, setb_eq, set_mem, putGpt_mem]

/-- Settles O12: each read reaches its register, and the register's read gives value and effect. -/
theorem readsWithEffect : Obligations.ReadsWithEffect := by
  unfold Obligations.ReadsWithEffect
  refine ⟨fun s mid n g => ?_, fun s mid n g => ?_, fun s mid n e rest g hdest hq => capTslRead_effect g hdest hq,
    fun s mid t x v rest g hq => ⟨fun h => ?_, fun d hd ht => gptCaptureRead_late g hq hd ht⟩, fun s mid j g => ?_⟩
  · have small : Reg.TI_STAT n < 2 ^ 32 := by unfold Reg.TI_STAT; omega
    rw [exec_rcFieldRead, toNat_address small, busRead_TI_STAT n g, done_eq, respond]
  · have small : Reg.AT_PHASEL n < 2 ^ 32 := by unfold Reg.AT_PHASEL; omega
    simp only [exec_lowWordRead, toNat_address small, busRead_AT_PHASEL n g, done_eq, respond]
  · rw [exec_gptCaptureRead, busRead_GPTt_CAP t x g, gptCapPop_keeps hq h, done_eq, respond]
  · rw [exec_resRead, busRead_HADC_RES j g, done_eq, respond]

end Sys2Proof.Machine
end

section
/-! The opcodes of trackers, wheels and timed inputs: what each handler answers, and the replies that follow (R240, R252 to R256). -/

namespace Sys2Proof.Machine

open Fields

/-! ### From handlers to replies -/

section
variable {c : Instr} {q : Req} {s u : State}

/-- An accepted request is given the answer of its operation (R228, R247). -/
theorem replies_runReq (hc : exec c s = done (request q s)) (h : Accepted q s u) : Replies c q s (runReq q u).1 (runReq q u).2 := by
  simp only [Replies, hc, request_accepted h, done_eq]

theorem allAnswered_of_requests {r : Req} {l : List (Instr × BitVec 8)}
    (hl : ∀ p ∈ l, exec p.1 s = done (request { r with opc := p.2 } s)) : AllAnswered r s u l :=
  fun p hp h => replies_runReq (hl p hp) h

/-- An opcode whose handler writes images (R253). -/
theorem repliesWrites_of_handler {i : Nat} {imgs : List (Nat × Nat)} {reply : List Nat} {st : Nat → Nat}
    (hc : exec c s = done (request q s)) (h : Accepted q s u) (e : handlerOf q.opc.toNat q u = imageOpAt st i imgs reply u) :
    RepliesWrites c q s u i imgs reply st := by
  unfold RepliesWrites
  cases hw : writeImages u i imgs u with
  | inl k => exact replies_of_handler hc h (by simp only [e, imageOpAt, hw])
  | inr t => exact replies_of_handler hc h (by simp only [e, imageOpAt, hw, okWith])

/-- An opcode whose handler starts a job (R252). -/
theorem repliesJob_of_handler {go : Nat → State → State} (hc : exec c s = done (request q s)) (h : Accepted q s u)
    (e : handlerOf q.opc.toNat q u = startLong q go u) : RepliesJob c q s u go :=
  ⟨fun j hj => replies_of_handler hc h (by rw [e, startLong, hj]), fun hn => replies_of_handler hc h (by rw [e, startLong, hn, failWith])⟩

end

/-- A one-bit field that reads 1, or 0. -/
theorem flag_of_one {s : State} {f : Fld} (h : s.get f = 1) : s.flag f = true := by rw [State.flag, h]; rfl
theorem flag_of_zero {s : State} {f : Fld} (h : s.get f = 0) : s.flag f = false := by rw [State.flag, h]; rfl

/-! ### TRK_CFG, TRK_EN -/

section
variable {r : Req} {s : State}

/-- The registers that TRK_CFG writes. -/
def trackerRegs (n : Nat) : List Nat :=
  [Reg.AT_SCFG n, Reg.AT_CAMCFG n, Reg.AT_PCFG n, Reg.AT_GSPD n, Reg.AT_WIN0 n, Reg.AT_WIN1 n, Reg.AT_WIN2 n, Reg.AT_RVOFS n,
    Reg.AT_LCFG n, Reg.AT_FF n, Reg.AT_WREF n]

/-- The status of word `i` that TRK_CFG finds refused: of the tracker's state where it changes what an enabled tracker keeps, else of a
parameter (R240, R253). -/
def trackerStatus (r : Req) (s : State) (i : Nat) : Nat :=
  if i = 0 ∧ s.flag (AT_CTL_EN r.u) = true ∧ changes s [AT_SCFG_DIRSRC r.u, AT_SCFG_DIRTRK r.u] (r.word 0) = true ∨
    i = 1 ∧ s.flag (AT_CTL_EN r.u) = true ∧ changes s [AT_CAMCFG_CAMSRC r.u] (r.word 1) = true then 0x0210 else 0x0105

theorem opTrkCfg_parameter {k : Nat × State}
    (h : writeImages s 0 (r.images 0 (trackerRegs r.u)) (s.setb (AT_CTL_EN r.u) false) = .inl k) :
    opTrkCfg r s = ({ status := 0x0105, detail := k.1 }, k.2) := by
  rw [trackerRegs] at h
  simp only [opTrkCfg, h]

theorem opTrkCfg_writes {t : State} (h : writeImages s 0 (r.images 0 (trackerRegs r.u)) (s.setb (AT_CTL_EN r.u) false) = .inr t) :
    opTrkCfg r s = imageOpAt (trackerStatus r s) 0 (r.images 0 (trackerRegs r.u)) (trackerRegs r.u) s := by
  have status : (fun i => bif (i == 0 && (s.flag (AT_CTL_EN r.u) && changes s [AT_SCFG_DIRSRC r.u, AT_SCFG_DIRTRK r.u] (r.word 0))) ||
      (i == 1 && (s.flag (AT_CTL_EN r.u) && changes s [AT_CAMCFG_CAMSRC r.u] (r.word 1))) then 0x0210 else 0x0105) = trackerStatus r s := by
    funext i
    simp only [trackerStatus, cond_eq_ite, Bool.or_eq_true, Bool.and_eq_true, beq_iff_eq]
  rw [trackerRegs] at h ⊢
  simp only [opTrkCfg, h, status]

theorem opTrkEn_enables (h : bitAt (r.word 0) 0 = true)
    (ok : s.flag (AT_CTL_EN r.u) = true ∨ wheelRefusal s r.u (s.get (AT_WCFG_ACTSEL r.u)) = 0) :
    opTrkEn r s = (let t := ownTracking r.u (trackerEnable r.u) s
      ({ status := 0, words := [peek t (Reg.AT_SSTAT r.u)] }, t)) := by
  have good : (bif true && !s.flag (AT_CTL_EN r.u) then wheelRefusal s r.u (s.get (AT_WCFG_ACTSEL r.u)) else 0) = 0 := by
    rcases ok with on | fit
    · rw [on]; rfl
    · rw [fit, cond_eq_ite, ite_self]
  simp only [opTrkEn, h, good, bne_self_eq_false, cond_false, cond_true, okWith]

theorem opTrkEn_refused (h : bitAt (r.word 0) 0 = true) (off : s.flag (AT_CTL_EN r.u) = false)
    (bad : wheelRefusal s r.u (s.get (AT_WCFG_ACTSEL r.u)) ≠ 0) :
    opTrkEn r s = ({ status := wheelRefusal s r.u (s.get (AT_WCFG_ACTSEL r.u)) }, s.setb (AT_ERRINFO_PARAM r.u) true) := by
  simp only [opTrkEn, h, off, Bool.not_false, Bool.and_self, cond_true, bne_iff_ne.mpr bad, wheelFail, failWith]

theorem opTrkEn_disables (h : bitAt (r.word 0) 0 = false) :
    opTrkEn r s = (let t := ownTracking r.u (trackerDisable r.u) s
      ({ status := 0, words := [peek t (Reg.AT_SSTAT r.u)] }, t)) := by
  simp only [opTrkEn, h, Bool.false_and, bne_self_eq_false, cond_false, okWith]

/-! ### WHEEL_STAGE -/

/-- The first entry and the number of entries that WHEEL_STAGE stages lie in the buffer. -/
def stageFits (r : Req) : Bool :=
  Nat.ble 1 (bitsAt (r.word 0) 16 13) && Nat.ble (bitsAt (r.word 0) 16 13) 124 &&
    Nat.ble (bitsAt (r.word 0) 0 12 + bitsAt (r.word 0) 16 13) 4096

theorem stageFits_iff : stageFits r = true ↔ 1 ≤ bitsAt (r.word 0) 16 13 ∧ bitsAt (r.word 0) 16 13 ≤ 124 ∧
    bitsAt (r.word 0) 0 12 + bitsAt (r.word 0) 16 13 ≤ 4096 := by
  simp only [stageFits, Bool.and_eq_true, Nat.ble_eq, and_assoc]

theorem stageFits_eq_false : stageFits r = false ↔ bitsAt (r.word 0) 16 13 = 0 ∨ 124 < bitsAt (r.word 0) 16 13 ∨
    4096 < bitsAt (r.word 0) 0 12 + bitsAt (r.word 0) 16 13 := by
  rw [← Bool.not_eq_true, stageFits_iff]
  omega

/-- The staging buffer after WHEEL_STAGE. -/
def staged (r : Req) (s : State) : Staging :=
  { owner := some r.src, lastTb := s.time,
    words := (List.range (2 * bitsAt (r.word 0) 16 13)).foldl
      (fun l i => putAt (2 * bitsAt (r.word 0) 0 12 + i) (r.params.getD (1 + i) 0) l) s.gnorum.staging.words }

theorem opWheelStage_stages (fits : stageFits r = true) (free : stagingHeld s r.src = false) :
    opWheelStage r s = ({ status := 0, words := [] }, s.modStaging fun _ => staged r s) := by
  rw [stageFits] at fits
  simp only [opWheelStage, fits, free, Bool.not_true, cond_false, okWith, State.modStaging, staged]

theorem opWheelStage_held (fits : stageFits r = true) (held : stagingHeld s r.src = true) :
    opWheelStage r s = ({ status := 0x0206 }, s) := by
  rw [stageFits] at fits
  simp only [opWheelStage, fits, held, Bool.not_true, cond_false, cond_true, failWith]

theorem opWheelStage_range (out : stageFits r = false) : opWheelStage r s = ({ status := 0x0105 }, s) := by
  rw [stageFits] at out
  simp only [opWheelStage, out, Bool.not_false, cond_true, failWith]

/-- Words put one after the other from `b` on are found where they were put. -/
theorem findAt_putAt_run (d f : Nat → Word) (b m : Nat) (l : List (Nat × Word)) {j : Nat} (h : j < m) :
    findAt d (b + j) ((List.range m).foldl (fun l i => putAt (b + i) (f i) l) l) = f j := by
  induction m with
  | zero => omega
  | succ m ih =>
    rw [List.range_succ, List.foldl_append, List.foldl_cons, List.foldl_nil]
    by_cases e : j = m
    · rw [e, findAt_putAt_self]
    · rw [findAt_putAt_ne _ _ _ (by omega), ih (by omega)]

/-- Each staged entry is a pair of parameter words (R256). -/
theorem stagedEntry_staged {i : Nat} (h : i < bitsAt (r.word 0) 16 13) :
    stagedEntry (s.modStaging fun _ => staged r s) (bitsAt (r.word 0) 0 12 + i) =
      (r.params.getD (1 + 2 * i) 0, r.params.getD (2 + 2 * i) 0) := by
  have even : 2 * (bitsAt (r.word 0) 0 12 + i) = 2 * bitsAt (r.word 0) 0 12 + 2 * i := by omega
  have odd : 2 * (bitsAt (r.word 0) 0 12 + i) + 1 = 2 * bitsAt (r.word 0) 0 12 + (2 * i + 1) := by omega
  have next : 2 + 2 * i = 1 + (2 * i + 1) := by omega
  have put {j : Nat} (hj : j < 2 * bitsAt (r.word 0) 16 13) :=
    findAt_putAt_run (fun _ => 0) (fun i => r.params.getD (1 + i) 0) (2 * bitsAt (r.word 0) 0 12) _ s.gnorum.staging.words hj
  simp only [stagedEntry, State.modStaging, staged]
  rw [odd, even, next, put (by omega), put (by omega)]

/-! ### WHEEL_LOAD -/

/-- The wheel that WHEEL_LOAD describes. -/
def loadWheel (r : Req) : Wheel :=
  { base := bitsAt (r.word 0) 0 13, cnt := bitsAt (r.word 0) 16 13, span720 := bitAt (r.word 0) 31, ngap := r.word 1 }

/-- The staged entries that WHEEL_LOAD takes. -/
def loadEntries (r : Req) (s : State) : List (Word × Word) := (List.range (loadWheel r).cnt).map (stagedEntry s)

/-- The staging buffer let go by its owner. -/
def letGo (s : State) : State := { s with gnorum := { s.gnorum with staging := { s.gnorum.staging with owner := none } } }

/-- The field that bars a load: SWREQ for the pending descriptor, EN for the active one. -/
def loadBar (r : Req) (s : State) : Nat := if bitAt (r.word 0) 30 then s.get (AT_WCFG_SWREQ r.u) else s.get (AT_CTL_EN r.u)

/-- The check of the staged wheel that WHEEL_LOAD makes. -/
def loadCheck (r : Req) (s : State) : Option Nat := checkWheel (loadWheel r).span720 (s.flag (AT_WCFG_CYCLE r.u)) (loadEntries r s)

theorem opWheelLoad_held (held : stagingHeld s r.src = true) : opWheelLoad r s = ({ status := 0x0206 }, s) := by
  simp only [opWheelLoad, held, cond_true, failWith]

/-- The descriptor that WHEEL_LOAD writes: the pending one or the active one (R43, R256). -/
def loadSlot (r : Req) (s : State) : Nat :=
  if bitAt (r.word 0) 30 then 1 - s.get (AT_WCFG_ACTSEL r.u) else s.get (AT_WCFG_ACTSEL r.u)

section
variable (free : stagingHeld s r.src = false)
include free

theorem opWheelLoad_badEntry {i : Nat} (h : loadCheck r s = some i) : opWheelLoad r s = ({ status := 0x0120, detail := i }, letGo s) := by
  have check : checkWheel (loadWheel r).span720 ((letGo s).flag (AT_WCFG_CYCLE r.u)) (loadEntries r s) = some i := h
  rw [loadEntries, loadWheel, letGo] at check
  simp only [opWheelLoad, free, cond_false, State.modStaging, check, letGo]

variable (h : loadCheck r s = none)
include h

/-- A wheel without a bad entry is loaded where its range and the state of the tracker allow it (R40, R41, R43). -/
theorem opWheelLoad_checked :
    opWheelLoad r s =
      bif loadConflict (letGo s) r.u (loadWheel r) (bitAt (r.word 0) 30) then failWith 0x0121 (letGo s)
      else bif loadBar r s != 0 then wheelFail r.u 0x0210 (letGo s)
      else putWheel r.u (loadSlot r s) (r.word 0) (r.word 1) (loadEntries r s) (letGo s) := by
  have check : checkWheel (loadWheel r).span720 ((letGo s).flag (AT_WCFG_CYCLE r.u)) (loadEntries r s) = none := h
  have bar : (bif bitAt (r.word 0) 30 then (letGo s).flag (AT_WCFG_SWREQ r.u) else (letGo s).flag (AT_CTL_EN r.u)) = (loadBar r s != 0) := by
    unfold loadBar
    cases bitAt (r.word 0) 30 <;> rfl
  rw [letGo] at bar
  rw [loadEntries, loadWheel, letGo] at check
  simp only [opWheelLoad, free, cond_false, State.modStaging, check, bar, cond_eq_ite (bitAt (r.word 0) 30), letGo, loadWheel, loadSlot,
    loadEntries]

theorem opWheelLoad_conflict (bad : loadConflict (letGo s) r.u (loadWheel r) (bitAt (r.word 0) 30) = true) :
    opWheelLoad r s = ({ status := 0x0121 }, letGo s) := by
  rw [opWheelLoad_checked free h, bad, cond_true, failWith]

variable (fits : loadConflict (letGo s) r.u (loadWheel r) (bitAt (r.word 0) 30) = false)
include fits

theorem opWheelLoad_inUse (bar : loadBar r s = 1) :
    opWheelLoad r s = ({ status := 0x0210 }, (letGo s).setb (AT_ERRINFO_PARAM r.u) true) := by
  have barred : (loadBar r s != 0) = true := bne_iff_ne.mpr (by omega)
  rw [opWheelLoad_checked free h, fits, barred, cond_false, cond_true, wheelFail, failWith]

theorem opWheelLoad_writes (bar : loadBar r s = 0) :
    opWheelLoad r s = putWheel r.u (loadSlot r s) (r.word 0) (r.word 1) (loadEntries r s) (letGo s) := by
  rw [opWheelLoad_checked free h, fits, bar, cond_false, bne_self_eq_false, cond_false]

end

/-! ### WHEEL_SWITCH, SYNC_CTL -/

theorem opWheelSwitch_starts (ok : wheelRefusal s r.u (1 - s.get (AT_WCFG_ACTSEL r.u)) = 0) (free : s.flag (AT_WCFG_SWREQ r.u) = false) :
    opWheelSwitch r s = startLong r (fun j v =>
      ownTracking r.u (fun w => switchRequest r.u (w.putTrk r.u { w.trk r.u with switchJob := j })) v) s := by
  simp only [opWheelSwitch, ok, free, bne_self_eq_false, cond_false, State.modTrk]

theorem opWheelSwitch_refused (bad : wheelRefusal s r.u (1 - s.get (AT_WCFG_ACTSEL r.u)) ≠ 0) :
    opWheelSwitch r s = ({ status := wheelRefusal s r.u (1 - s.get (AT_WCFG_ACTSEL r.u)) }, s.setb (AT_ERRINFO_PARAM r.u) true) := by
  simp only [opWheelSwitch, bne_iff_ne.mpr bad, cond_true, wheelFail, failWith]

theorem opWheelSwitch_busy (ok : wheelRefusal s r.u (1 - s.get (AT_WCFG_ACTSEL r.u)) = 0) (busy : s.flag (AT_WCFG_SWREQ r.u) = true) :
    opWheelSwitch r s = ({ status := 0x0206 }, s) := by
  simp only [opWheelSwitch, ok, busy, bne_self_eq_false, cond_false, cond_true, failWith]

/-- The four commands of SCTL (R64). -/
theorem syncCommand_iff (v : Nat) : (v == 1 || v == 2 || v == 4 || v == 8) = true ↔ ∃ k : Fin 4, v = 2 ^ k.val := by
  simp only [Bool.or_eq_true, beq_iff_eq]
  constructor
  · rintro (((h | h) | h) | h)
    · exact ⟨0, h⟩
    · exact ⟨1, h⟩
    · exact ⟨2, h⟩
    · exact ⟨3, h⟩
  · rintro ⟨k, rfl⟩
    revert k
    decide

theorem opSyncCtl_writes {k : Fin 4} (hv : r.word 0 = 2 ^ k.val) (ok : k.val < 2 ∨ syncState s r.u = 3) :
    opSyncCtl r s = imageOpAt (fun _ => 0x0105) 0 [(Reg.AT_SCTL r.u, 2 ^ k.val)] [Reg.AT_SSTAT r.u] s := by
  have command : (r.word 0 == 1 || r.word 0 == 2 || r.word 0 == 4 || r.word 0 == 8) = true := (syncCommand_iff _).mpr ⟨k, hv⟩
  have phase : (Nat.ble 4 (r.word 0) && syncState s r.u != 3) = false := by
    rcases ok with low | sync
    · have : 2 ^ k.val ≤ 2 ^ 1 := Nat.pow_le_pow_right (by decide) (by omega)
      rw [hv, ble_false (by omega), Bool.false_and]
    · rw [sync, bne_self_eq_false, Bool.and_false]
  simp only [opSyncCtl, command, phase, Bool.not_true, cond_false, imageOp]
  rw [hv]

theorem opSyncCtl_unsynced {k : Fin 4} (hv : r.word 0 = 2 ^ k.val) (high : 2 ≤ k.val) (hs : syncState s r.u ≠ 3) :
    opSyncCtl r s = ({ status := 0x0201 }, s) := by
  have command : (r.word 0 == 1 || r.word 0 == 2 || r.word 0 == 4 || r.word 0 == 8) = true := (syncCommand_iff _).mpr ⟨k, hv⟩
  have phase : (Nat.ble 4 (r.word 0) && syncState s r.u != 3) = true := by
    have : 2 ^ 2 ≤ 2 ^ k.val := Nat.pow_le_pow_right (by decide) high
    rw [hv, Nat.ble_eq_true_of_le (by omega), bne_iff_ne.mpr hs, Bool.and_self]
  simp only [opSyncCtl, command, phase, Bool.not_true, cond_false, cond_true, failWith]

theorem opSyncCtl_reserved (hv : ∀ k : Fin 4, r.word 0 ≠ 2 ^ k.val) : opSyncCtl r s = ({ status := 0x0105 }, s) := by
  have command : (r.word 0 == 1 || r.word 0 == 2 || r.word 0 == 4 || r.word 0 == 8) = false := by
    rw [← Bool.not_eq_true, syncCommand_iff]
    exact fun ⟨k, hk⟩ => hv k hk
  simp only [opSyncCtl, command, Bool.not_false, cond_true, failWith]

/-! ### CORR_LOAD, PROF_LOAD -/

/-- The check of a first number and a count passes: at least one, at most `m`, all below `w`. -/
theorem count_fits {f k m w : Nat} (least : 1 ≤ k) (most : k ≤ m) (fits : f + k ≤ w) :
    (Nat.ble 1 k && Nat.ble k m && Nat.ble (f + k) w) = true := by
  rw [Nat.ble_eq_true_of_le least, Nat.ble_eq_true_of_le most, Nat.ble_eq_true_of_le fits, Bool.and_self, Bool.and_self]

/-- The tooth whose correction is word `i` of CORR_LOAD takes it, where the table has it (R97). -/
def corrTooth (r : Req) (s : State) (i : Nat) (v : State) : State :=
  let e := (activeWheel s r.u).base + bitsAt (r.word 0) 0 12 + i
  let c := bitsAt (r.word (1 + i / 2)) (16 * (i % 2)) 16
  if e < 8192 then (toothWrite e true (c * 65536 + v.rdn (toothAddr e + 4) % 65536) v).2 else v

theorem opCorrLoad_writes (least : 1 ≤ bitsAt (r.word 0) 16 9) (most : bitsAt (r.word 0) 16 9 ≤ 496)
    (fits : bitsAt (r.word 0) 0 12 + bitsAt (r.word 0) 16 9 ≤ (activeWheel s r.u).cnt) :
    opCorrLoad r s = ({ status := 0, words := [] }, learnRestart r.u (upTo (bitsAt (r.word 0) 16 9) (corrTooth r s) s)) := by
  have one : (fun (i : Nat) (u : State) =>
      bif Nat.blt ((activeWheel s r.u).base + bitsAt (r.word 0) 0 12 + i) 8192 then
        (toothWrite ((activeWheel s r.u).base + bitsAt (r.word 0) 0 12 + i) true (bitsAt (r.word (1 + i / 2)) (16 * (i % 2)) 16 * 65536 +
          u.rdn (toothAddr ((activeWheel s r.u).base + bitsAt (r.word 0) 0 12 + i) + 4) % 65536) u).2
      else u) = corrTooth r s := by
    funext i u
    simp only [corrTooth, cond_eq_ite, Nat.blt_eq]
  simp only [opCorrLoad, count_fits least most fits, Bool.not_true, cond_false, one, okWith]

/-- The words of the slots that PROF_LOAD writes. -/
def profSlots (r : Req) : List Nat :=
  wordAddrs (0x50000000 + r.u * 0x10000 + 0x4000 + 8 * bitsAt (r.word 0) 0 11) (2 * bitsAt (r.word 0) 16 7)

/-- The first word of PROF_LOAD that names a cylinder which the variant lacks (R3). -/
def profAbsent (r : Req) (s : State) : Option Nat :=
  (r.images 1 (profSlots r)).findIdx? fun x => x.1 % 8 == 4 && Nat.ble s.counts.maxCyl (x.2 % 32) && Nat.blt (x.2 % 32) 24

section
variable (least : 1 ≤ bitsAt (r.word 0) 16 7) (most : bitsAt (r.word 0) 16 7 ≤ 124)
  (fits : bitsAt (r.word 0) 0 11 + bitsAt (r.word 0) 16 7 ≤ 2048)
include least most fits

theorem opProfLoad_present (h : profAbsent r s = none) :
    opProfLoad r s = imageOpAt (fun _ => 0x0105) 1 (r.images 1 (profSlots r)) [] s := by
  rw [profAbsent, profSlots] at h
  simp only [opProfLoad, count_fits least most fits, Bool.not_true, cond_false, h, imageOp, profSlots]

variable {i : Nat} (h : profAbsent r s = some i)
include h

theorem opProfLoad_refused {k : Nat × State} (hw : writeImages s 1 ((r.images 1 (profSlots r)).take i) s = .inl k) :
    opProfLoad r s = ({ status := 0x0105, detail := k.1 }, k.2) := by
  rw [profAbsent, profSlots] at h
  rw [profSlots] at hw
  simp only [opProfLoad, count_fits least most fits, Bool.not_true, cond_false, h, imageOp, imageOpAt, hw]
  rfl

theorem opProfLoad_absent {t : State} (hw : writeImages s 1 ((r.images 1 (profSlots r)).take i) s = .inr t) :
    opProfLoad r s = ({ status := 0x0105, detail := 1 + i }, s) := by
  rw [profAbsent, profSlots] at h
  rw [profSlots] at hw
  simp only [opProfLoad, count_fits least most fits, Bool.not_true, cond_false, h, imageOp, imageOpAt, hw]
  rfl

end

/-! ### PSTORE_READ, TI_CFG -/

/-- The words of the period store that PSTORE_READ reads. -/
def storeWords (r : Req) : List Nat := wordAddrs (0x50050000 + r.u * 0x4000 + 4 * bitsAt (r.word 0) 0 12) (bitsAt (r.word 0) 16 8)

theorem opPstoreRead_reads (least : 1 ≤ bitsAt (r.word 0) 16 8) (most : bitsAt (r.word 0) 16 8 ≤ 248)
    (fits : bitsAt (r.word 0) 0 12 + bitsAt (r.word 0) 16 8 ≤ 4096) (good : s.ecc = []) :
    opPstoreRead r s = ({ status := 0, words := peeks s (storeWords r) }, s) := by
  have sound (l : List Nat) : (l.any fun a => angleMemory a && wordBad s a) = false := by
    simp only [wordBad, good, List.contains_nil, Bool.and_false, List.any_eq_false, Bool.false_eq_true, not_false_eq_true, implies_true]
  simp only [opPstoreRead, count_fits least most fits, Bool.not_true, cond_false, readOp, sound, okWith, storeWords]

section
variable (free : s.flag (TI_CFG_LOCK r.u) = false)
include free

/-- With LOCK = 0 no field of an input is held (R46). -/
theorem inputHeld_none : ((r.images 0 (inputRegs r.u)).findIdx? fun x =>
    s.flag (TI_CFG_LOCK r.u) && (s.rdn x.1 ^^^ x.2) &&& (regAt x.1).rwl != 0) = none := by
  rw [List.findIdx?_eq_none_iff]
  intro x _
  rw [free, Bool.false_and]

theorem opTiCfg_refused {k : Nat × State} (hw : writeImages s 1 ((r.images 0 (inputRegs r.u)).drop 1) s = .inl k) :
    opTiCfg r s = ({ status := 0x0105, detail := k.1 }, k.2) := by
  simp only [opTiCfg, inputHeld_none free, hw]

variable {v : State} (hw : writeImages s 1 ((r.images 0 (inputRegs r.u)).drop 1) s = .inr v)
include hw

theorem opTiCfg_refusedCfg {k : Nat × State} (hc : writeImages v 0 [(Reg.TI_CFG r.u, r.word 0)] v = .inl k) :
    opTiCfg r s = ({ status := 0x0105, detail := k.1 }, reportInput r.u (inWord (TI_CFG_DEST r.u) (r.word 0)) k.2 s) := by
  have cfg : writeImages v 0 ((r.images 0 (inputRegs r.u)).take 1) v = .inl k := hc
  simp only [opTiCfg, inputHeld_none free, hw, imageOp, imageOpAt, cfg]
  rfl

theorem opTiCfg_writes {t : State} (hc : writeImages v 0 [(Reg.TI_CFG r.u, r.word 0)] v = .inr t) :
    opTiCfg r s = ({ status := 0, words := peeks t (inputRegs r.u) }, t) := by
  have cfg : writeImages v 0 ((r.images 0 (inputRegs r.u)).take 1) v = .inr t := hc
  simp only [opTiCfg, inputHeld_none free, hw, imageOp, imageOpAt, cfg, okWith, beq_self_eq_true, cond_true]

end

theorem opTiCfg_locked {i : Nat} (locked : s.flag (TI_CFG_LOCK r.u) = true)
    (h : ((r.images 0 (inputRegs r.u)).findIdx? fun x => (s.rdn x.1 ^^^ x.2) &&& (regAt x.1).rwl != 0) = some i) :
    opTiCfg r s = ({ status := 0x0124, detail := i }, s) := by
  simp only [opTiCfg, locked, Bool.true_and, h]

end

/-- The twelve commands are requests with their opcodes. -/
theorem trackerOpcodes_requests (r : Req) (s : State) :
    ∀ p ∈ ([(.trkCfg r, 0x10), (.trkEn r, 0x11), (.wheelStage r, 0x12), (.wheelLoad r, 0x13), (.wheelSwitch r, 0x14), (.syncCtl r, 0x15),
        (.corrLoad r, 0x16), (.profLoad r, 0x17), (.trkRead r, 0x18), (.pstoreRead r, 0x19), (.tiCfg r, 0x1A), (.tiRead r, 0x1B)] :
        List (Instr × BitVec 8)),
      exec p.1 s = done (request { r with opc := p.2 } s) := by
  simp only [List.forall_mem_cons]
  exact ⟨rfl, rfl, rfl, rfl, rfl, rfl, rfl, rfl, rfl, rfl, rfl, rfl, List.forall_mem_nil _⟩

/-- Settles O40: each handler's answer is the reply of its accepted request. -/
theorem trackerOpcodes : Obligations.TrackerOpcodes := by
  unfold Obligations.TrackerOpcodes
  intro r s u q n act param cfg on
  refine ⟨allAnswered_of_requests (trackerOpcodes_requests r s), ?trkCfgParameter, ?trkCfg, ?trkEn, ?trkEnRefused, ?trkEnOff,
    ?stage, ?stageHeld, ?stageRange, ?loadHeld, ?load, ?switch, ?switchRefused, ?switchBusy, ?sync, ?syncPhase, ?syncReserved, ?corr,
    ?prof, ?trkRead, ?pstoreRead, ?tiCfg, ?tiCfgLocked, ?tiRead⟩
  case trkCfgParameter => exact fun k h hw => replies_of_handler rfl h (opTrkCfg_parameter hw)
  case trkCfg => exact fun t h hw => repliesWrites_of_handler rfl h (opTrkCfg_writes hw)
  case trkEn => exact fun h hb ok => replies_of_handler rfl h (opTrkEn_enables hb ok)
  case trkEnRefused => exact fun h hb off bad => replies_of_handler rfl h (opTrkEn_refused hb off bad)
  case trkEnOff => exact fun h hb => replies_of_handler rfl h (opTrkEn_disables hb)
  case stage =>
    exact fun h least most fits free => ⟨_, replies_of_handler rfl h (opWheelStage_stages (stageFits_iff.mpr ⟨least, most, fits⟩) free),
      rfl, rfl, fun i hi => stagedEntry_staged hi, rfl⟩
  case stageHeld =>
    exact fun h least most fits held => replies_of_handler rfl h (opWheelStage_held (stageFits_iff.mpr ⟨least, most, fits⟩) held)
  case stageRange => exact fun h out => replies_of_handler rfl h (opWheelStage_range (stageFits_eq_false.mpr out))
  case loadHeld => exact fun h held => replies_of_handler rfl h (opWheelLoad_held held)
  case load =>
    exact fun h free => ⟨fun i hi => replies_of_handler rfl h (opWheelLoad_badEntry free hi),
      fun hn bad => replies_of_handler rfl h (opWheelLoad_conflict free hn bad),
      fun hn fits bar => replies_of_handler rfl h (opWheelLoad_inUse free hn fits bar),
      fun hn fits bar => replies_of_handler rfl h (opWheelLoad_writes free hn fits bar)⟩
  case switch => exact fun h ok free => repliesJob_of_handler rfl h (opWheelSwitch_starts ok (flag_of_zero free))
  case switchRefused => exact fun h bad => replies_of_handler rfl h (opWheelSwitch_refused bad)
  case switchBusy => exact fun h ok busy => replies_of_handler rfl h (opWheelSwitch_busy ok (flag_of_one busy))
  case sync => exact fun k h hv ok => repliesWrites_of_handler rfl h (opSyncCtl_writes hv ok)
  case syncPhase => exact fun k h hv high hs => replies_of_handler rfl h (opSyncCtl_unsynced hv high hs)
  case syncReserved => exact fun h hv => replies_of_handler rfl h (opSyncCtl_reserved hv)
  case corr => exact fun h least most fits => replies_of_handler rfl h (opCorrLoad_writes least most fits)
  case prof =>
    exact fun h least most fits => ⟨fun hn => repliesWrites_of_handler rfl h (opProfLoad_present least most fits hn),
      fun i hi => ⟨fun k hw => replies_of_handler rfl h (opProfLoad_refused least most fits hi hw),
        fun t hw => replies_of_handler rfl h (opProfLoad_absent least most fits hi hw)⟩⟩
  case trkRead => exact fun h => replies_of_handler rfl h rfl
  case pstoreRead => exact fun h least most fits good => replies_of_handler rfl h (opPstoreRead_reads least most fits good)
  case tiCfg =>
    exact fun h free => ⟨fun k hw => replies_of_handler rfl h (opTiCfg_refused (flag_of_zero free) hw),
      fun v hw => ⟨fun k hc => replies_of_handler rfl h (opTiCfg_refusedCfg (flag_of_zero free) hw hc),
        fun t hc => replies_of_handler rfl h (opTiCfg_writes (flag_of_zero free) hw hc)⟩⟩
  case tiCfgLocked => exact fun i h locked hi => replies_of_handler rfl h (opTiCfg_locked (flag_of_one locked) hi)
  case tiRead => exact fun h => replies_of_handler rfl h rfl

end Sys2Proof.Machine
end

section
/-! Requests to trackers that act on their own input (R40, R43, R64, R390). -/

namespace Sys2Proof.Machine

open Fields

/-- An operation of a tracker that follows no ring master acts on the state itself (R390). -/
theorem ownTracking_own {s : State} {n : Nat} (h : s.ring.follows.find? (fun p => p.1 == n) = none) (f : State → State) :
    ownTracking n f s = f s := by simp only [ownTracking, h]

theorem inAngle_ownTracking {s : State} {n : Nat} (h : TrackerRuns s n) (f : State → State) : inAngle s (ownTracking n f) = f s := by
  obtain ⟨runs, own⟩ := h
  rw [inAngle_runs s _ runs, ownTracking_own own]

theorem exec_trackerEnable {s : State} {n : Fin 4} (h : TrackerRuns s n) :
    exec (.trackerEnable n) s = .next (trackerEnable n s).settle :=
  congrArg done (inAngle_ownTracking h _)

theorem exec_wheelSwitchRequest {s : State} {n : Fin 4} (h : TrackerRuns s n) :
    exec (.wheelSwitchRequest n) s = .next (switchRequest n s).settle :=
  congrArg done (inAngle_ownTracking h _)

section
variable {s : State} {n : Nat}

/-- CTL.EN is set, and the finder starts with an empty window (R64). -/
theorem trackerEnable_enables (off : s.flag (AT_CTL_EN n) = false) (fits : rangeRefused s n (s.get (AT_WCFG_ACTSEL n)) = false)
    (src : s.get (AT_SCFG_DIRSRC n) ≠ 2) :
    trackerEnable n s = (s.setb (AT_CTL_EN n) true).putTrk n { s.trk n with edgeSeen := false, window := [] } := by
  simp only [trackerEnable, off, fits, beq_false_of_ne src, Bool.false_and, Bool.or_self, cond_false, State.modTrk, setb_eq, set_trk_of]

theorem trackerEnable_refused (off : s.flag (AT_CTL_EN n) = false) (bad : rangeRefused s n (s.get (AT_WCFG_ACTSEL n)) = true) :
    trackerEnable n s = s.setb (AT_ERRINFO_PARAM n) true := by
  simp only [trackerEnable, off, bad, Bool.true_or, cond_false, cond_true]

/-- WCFG.SWREQ is set, and the TB of the request kept (R43). -/
theorem switchRequest_requests (free : s.flag (AT_WCFG_SWREQ n) = false)
    (fits : rangeRefused s n (1 - s.get (AT_WCFG_ACTSEL n)) = false) (src : s.get (AT_SCFG_DIRSRC n) ≠ 2) :
    switchRequest n s = (s.setb (AT_WCFG_SWREQ n) true).putTrk n { s.trk n with swreqTb := s.now } := by
  simp only [switchRequest, free, fits, beq_false_of_ne src, Bool.false_and, Bool.or_self, cond_false, State.modTrk, setb_eq, set_trk_of]

theorem switchRequest_refused (free : s.flag (AT_WCFG_SWREQ n) = false)
    (bad : rangeRefused s n (1 - s.get (AT_WCFG_ACTSEL n)) = true) : switchRequest n s = s.setb (AT_ERRINFO_PARAM n) true := by
  simp only [switchRequest, free, bad, Bool.true_or, cond_false, cond_true]

end

/-- Settles O17: on a tracker of its own input each command is its request, taken or refused by the range. -/
theorem trackerRequests : Obligations.TrackerRequests := by
  unfold Obligations.TrackerRequests
  refine ⟨fun s n runs off fits src => ?_, fun s n runs off bad => ?_, fun s n runs free fits src => ?_, fun s n runs free bad => ?_⟩
  · rw [exec_trackerEnable runs, trackerEnable_enables (flag_of_zero off) fits src]
  · rw [exec_trackerEnable runs, trackerEnable_refused (flag_of_zero off) bad]
  · rw [exec_wheelSwitchRequest runs, switchRequest_requests (flag_of_zero free) fits src]
  · rw [exec_wheelSwitchRequest runs, switchRequest_refused (flag_of_zero free) bad]

end Sys2Proof.Machine
end

section
/-! Granted writes of words: the tooth table and the registers of the trackers (R11, R41, R100, R407). -/

namespace Sys2Proof.Machine

open Fields

section
variable {s t : State} {mid a : Nat} {v : Word}

/-- A granted access to an aligned word passes. -/
theorem judge_words {write : Bool} (place : placeOf mid a = .words) (aligned : a % 4 = 0) (g : Granted s mid a write) :
    judge s mid a .word write = .pass := by
  obtain ⟨issued, allowed, _⟩ := g
  simp only [judge, issued, place, allowed, aligned, AccSize.bytes]
  rfl

/-- A granted write of a word that ends well has the word's own effect. -/
theorem busWrite_stores (place : placeOf mid a = .words) (aligned : a % 4 = 0) (g : Granted s mid a true)
    (h : wordWrite mid a v.toNat s = (none, t)) : busWrite mid a .word v s = (true, t) := by
  simp only [busWrite, busAddr_words place, judge_words place aligned g, place, h]

/-- One that ends in a bus error is recorded with its cause (R295). -/
theorem busWrite_fails {c : Nat} (place : placeOf mid a = .words) (aligned : a % 4 = 0) (g : Granted s mid a true)
    (h : wordWrite mid a v.toNat s = (some c, t)) : busWrite mid a .word v s = (false, recordError mid a c true t) := by
  simp only [busWrite, busAddr_words place, judge_words place aligned g, place, h]

theorem angleHeld_runs (h : s.angleRuns = true) : angleHeld s a = false := by rw [angleHeld, h, Bool.not_true, Bool.and_false]

end

/-! ### The tooth table -/

section
variable {s : State} {mid e : Nat} (word1 : Bool) (he : e < 8192)
include he

/-- Both words of an entry stand in the tooth table. -/
theorem tooth_inside : 0x50040000 ≤ toothAddr e + 4 * word1.toNat ∧ toothAddr e + 4 * word1.toNat < 0x50050000 := by
  have := Bool.toNat_le word1
  unfold toothAddr
  omega

theorem placeOf_tooth : placeOf mid (toothAddr e + 4 * word1.toNat) = .words := by
  obtain ⟨low, high⟩ := tooth_inside word1 he
  have memory : angleMemory (toothAddr e + 4 * word1.toNat) = true := by
    rw [angleMemory, within_inside low (by omega)]
    simp only [Bool.true_or]
  simp (disch := omega) only [placeOf, within_outside, tcmWindow, sramBank, memory, Bool.false_and, Bool.and_false, cond_false,
    Option.isSome_none, Bool.or_self, Bool.true_or, cond_true]

/-- In the running angle domain the tooth table takes the write, or refuses it with cause 5 (R41). -/
theorem wordWrite_tooth (runs : s.angleRuns = true) (v : Nat) :
    wordWrite mid (toothAddr e + 4 * word1.toNat) v s =
      (bif (toothWrite e word1 v s).1 then some 5 else none, (toothWrite e word1 v s).2) := by
  obtain ⟨low, high⟩ := tooth_inside word1 he
  have register : Nat.blt (toothAddr e + 4 * word1.toNat) 0x40000000 = false := blt_false (by omega)
  have present : absentAt s (toothAddr e + 4 * word1.toNat) = false := by
    simp (disch := omega) only [absentAt, register, within_outside, cond_false, Bool.or_self]
  have table : within 0x50040000 0x10000 (toothAddr e + 4 * word1.toNat) = true := within_inside low (by omega)
  have entry : (toothAddr e + 4 * word1.toNat - 0x50040000) / 8 = e := by
    have := Bool.toNat_le word1
    unfold toothAddr
    omega
  have second : bitAt (toothAddr e + 4 * word1.toNat) 2 = word1 := by
    unfold bitAt toothAddr
    cases word1
    · exact beq_eq_false_iff_ne.mpr (by simp only [Bool.toNat_false]; omega)
    · exact beq_iff_eq.mpr (by simp only [Bool.toNat_true]; omega)
  simp only [wordWrite, present, angleHeld_runs runs, table, entry, second, Bool.or_self, cond_false, cond_true]

end

/-- Word 1 of an entry in no range in use is stored whole, with a good code (R41). -/
theorem toothWrite_free {s : State} {e : Nat} (h : entryInUse s e = false) (v : Word) :
    toothWrite e true v.toNat s = (false, { s.wr (toothAddr e + 4) v with ecc := s.ecc.filter (· != toothAddr e + 4) }) := by
  simp only [toothWrite, h, Bool.not_false, cond_true, Bool.toNat_true, Nat.mul_one, State.wrn, BitVec.ofNat_toNat, BitVec.setWidth_eq,
    wr_ecc]

theorem toothWrite_held {s : State} {e : Nat} (h : entryInUse s e = true) (v : Nat) : toothWrite e false v s = (true, s) := by
  simp only [toothWrite, h, Bool.not_true, Bool.not_false, cond_true, cond_false]

theorem exec_toothEntryWrite (mid : Fin 64) (e : Fin 8192) (word1 : Bool) (v : Word) (s : State) :
    exec (.toothEntryWrite mid e word1 v) s = done (busWrite mid (toothAddr e + 4 * word1.toNat) .word v s).2 := rfl

theorem toothEntryWrite_stores {s : State} {mid : Fin 64} {e : Fin 8192} (v : Word) (runs : s.angleRuns = true)
    (g : Granted s mid (toothAddr e + 4) true) (free : entryInUse s e = false) :
    exec (.toothEntryWrite mid e true v) s = .next (State.settle
      { s.wr (toothAddr e + 4) v with ecc := s.ecc.filter (· != toothAddr e + 4) }) := by
  have stored := wordWrite_tooth (mid := mid) true e.isLt runs v.toNat
  rw [toothWrite_free free] at stored
  rw [exec_toothEntryWrite, busWrite_stores (placeOf_tooth true e.isLt) (by unfold toothAddr; omega) g stored, done_eq]

theorem toothEntryWrite_refused {s : State} {mid : Fin 64} {e : Fin 8192} (v : Word) (runs : s.angleRuns = true)
    (g : Granted s mid (toothAddr e) true) (held : entryInUse s e = true) :
    exec (.toothEntryWrite mid e false v) s = .next (State.settle (recordError mid (toothAddr e) 5 true s)) := by
  have refused := wordWrite_tooth (mid := mid) false e.isLt runs v.toNat
  rw [toothWrite_held held] at refused
  rw [exec_toothEntryWrite, busWrite_fails (placeOf_tooth false e.isLt) (by unfold toothAddr; omega) g refused, done_eq]
  rfl

/-! ### Registers of the trackers -/

theorem regWrite_trackers {mid n a v : Nat} (low : 0x50000000 ≤ a) (high : a < 0x50040000) (off : a % 0x10000 < 0x4000)
    (hn : (a - 0x50000000) / 0x10000 = n) (s : State) : regWrite mid a v s = ownTracking n (atWrite n a v) s := by
  have profile : Nat.ble 0x4000 (a % 0x10000) = false := ble_false off
  simp (disch := omega) only [regWrite, blt_false, blt_true, within_outside, profile, hn, cond_eq_ite, Bool.false_eq_true, if_true, if_false]

/-- PERC and the FCP write every field of a register of a tracker that follows no ring master (R18, R390). -/
theorem wordWrite_trackers {s : State} {mid n a : Nat} (v : Nat) (runs : s.angleRuns = true) (engine : mid = 15 ∨ mid = 16)
    (own : s.ring.follows.find? (fun p => p.1 == n) = none) (low : 0x50000000 ≤ a) (high : a < 0x50040000) (off : a % 0x10000 < 0x4000)
    (hn : (a - 0x50000000) / 0x10000 = n) : wordWrite mid a v s = (none, atWrite n a v s) := by
  have free : writeHeld s mid a = false := by simp (disch := omega) only [writeHeld, within_outside, Bool.false_and, cond_false]
  have whole : flagOnly mid a = false := by
    rcases engine with rfl | rfl <;> simp only [flagOnly, bne_self_eq_false, Bool.false_and, Bool.and_false]
  simp (disch := omega) only [wordWrite, present_trackers low high (by omega) s, angleHeld_runs runs, within_outside, free, whole,
    regWrite_trackers low high off hn s, ownTracking_own own, Bool.or_self, Bool.false_and, cond_false]

/-- A write of WCYL is a work value of its cylinder (R100): no register with a rule of its own stands among the work values. -/
theorem atWrite_AT_WCYL {n c : Nat} (hc : c < 24) (v : Word) (s : State) :
    atWrite n (Reg.AT_WCYL n c) v.toNat s = percWorkWrite n c v s := by
  have work : within (Reg.AT_WCYL n 0) 96 (Reg.AT_WCYL n c) = true := by
    unfold Reg.AT_WCYL
    exact within_inside (by omega) (by omega)
  have cyl : (Reg.AT_WCYL n c - Reg.AT_WCYL n 0) / 4 = c := by unfold Reg.AT_WCYL; omega
  simp (disch := (simp only [Reg.AT_WCYL, Reg.AT_CTL, Reg.AT_SCTL, Reg.AT_WCFG, Reg.AT_WDESC0, Reg.AT_NGAP0, Reg.AT_WDESC1, Reg.AT_NGAP1,
      Reg.AT_SCFG, Reg.AT_CAMCFG, Reg.AT_PCFG, Reg.AT_WIN0, Reg.AT_WIN1, Reg.AT_WIN2, Reg.AT_FF, Reg.AT_LCFG, Reg.AT_PSCFG]; omega)) only
    [atWrite, beq_false_of_ne, work, cyl, cond_eq_ite, Bool.or_self, Bool.false_eq_true, if_true, if_false, BitVec.ofNat_toNat,
      BitVec.setWidth_eq]

/-! ### Work values -/

theorem bitAt_putBits_self (x i : Nat) : bitAt (putBits x i 1 1) i = true := beq_iff_eq.mpr (bitsAt_putBits_self x i 1 1)

theorem bitAt_putBits_ne (x v : Nat) {i j : Nat} (h : j ≠ i) : bitAt (putBits x i 1 v) j = bitAt x j := by
  have same : bitsAt (putBits x i 1 v) j 1 = bitsAt x j 1 := by
    rcases Nat.lt_or_gt_of_ne h with below | above
    · exact bitsAt_putBits_below x i 1 v below
    · exact bitsAt_putBits_above x i 1 v above
  exact congrArg (· == 1) same

/-- A field reads below the power of its width. -/
theorem get_lt (s : State) (f : Fld) : s.get f < 2 ^ f.width := Nat.mod_lt _ (Nat.two_pow_pos _)

section
variable {n c : Nat} (hc : c < 24) (v : Word) (s : State)
include hc

/-- The register takes the work value (R100). -/
theorem percWorkWrite_rd_self : (percWorkWrite n c v s).rd (Reg.AT_WCYL n c) = v := by
  have other : Reg.AT_WCYL n c ≠ Reg.AT_WVAL n := by unfold Reg.AT_WCYL Reg.AT_WVAL; omega
  rw [percWorkWrite, workWrite, State.modTrk, State.modTrk, putTrk_rd, putTrk_rd, rd_set_ne _ _ _ other, rd_wr_self]

/-- Its bit of WVAL is set, and the bits of the other cylinders stay (R100). -/
theorem percWorkWrite_valid :
    (percWorkWrite n c v s).get (AT_WVAL_VALID n) = putBits (s.get (AT_WVAL_VALID n)) c 1 1 := by
  have small : putBits (s.get (AT_WVAL_VALID n)) c 1 1 < 2 ^ (AT_WVAL_VALID n).width :=
    putBits_lt _ _ _ _ _ (get_lt s _) hc
  rw [percWorkWrite, workWrite, State.modTrk, State.modTrk, putTrk_get, putTrk_get, get_set_self _ _ _ (show 0 + 24 ≤ 32 by decide),
    Nat.mod_eq_of_lt small]

end

section
variable (n c : Nat) (v : Word) (s : State)

/-- The work value is of age zero (R100). -/
theorem percWorkWrite_age : findAt (fun _ => 0) c ((percWorkWrite n c v s).trk n).ages = 0 := by
  rw [percWorkWrite, workWrite, State.modTrk, State.modTrk, trk_putTrk_self, trk_putTrk_self, findAt_putAt_self]

theorem percWorkWrite_rd {r : Nat} (work : r ≠ Reg.AT_WCYL n c) (valid : r ≠ Reg.AT_WVAL n) : (percWorkWrite n c v s).rd r = s.rd r := by
  rw [percWorkWrite, workWrite, State.modTrk, State.modTrk, putTrk_rd, putTrk_rd, rd_set_ne _ _ _ valid, rd_wr_ne _ _ work]

theorem percWorkWrite_mem : (percWorkWrite n c v s).mem = s.mem := rfl

end

theorem registerAt_AT_WCYL : ∀ (n : Fin 4) (c : Fin 24), registerAt (Reg.AT_WCYL n c) = true := by decide

theorem exec_wcylWrite (mid : Fin 64) (n : Fin 4) (c : Fin 24) (v : Word) (s : State) :
    exec (.wcylWrite mid n c v) s = done (busWrite mid (Reg.AT_WCYL n c) .word v s).2 := rfl

/-- WCYL_WRITE by PERC or the FCP is the work value's write (R100). -/
theorem wcylWrite_works {s : State} {mid : Fin 64} {n : Fin 4} {c : Fin 24} (v : Word) (runs : s.angleRuns = true)
    (own : s.ring.follows = []) (engine : mid = 15 ∨ mid = 16) (g : Granted s mid (Reg.AT_WCYL n c) true) :
    exec (.wcylWrite mid n c v) s = .next (percWorkWrite n c v s).settle := by
  have base : Reg.AT_WCYL n c = 0x50000380 + n * 0x10000 + c * 4 := rfl
  have number : mid.val = 15 ∨ mid.val = 16 := engine.imp (congrArg Fin.val) (congrArg Fin.val)
  have alone : s.ring.follows.find? (fun p => p.1 == n.val) = none := by rw [own, List.find?_nil]
  have stored := wordWrite_trackers (a := Reg.AT_WCYL n c) (n := n) v.toNat runs number alone (by omega) (by omega) (by omega) (by omega)
  rw [atWrite_AT_WCYL c.isLt] at stored
  rw [exec_wcylWrite, busWrite_stores (placeOf_register (registerAt_AT_WCYL n c)) (by omega) g stored, done_eq]

/-- What the state after WCYL_WRITE holds (R100). -/
theorem wcylWrite_effect {s : State} {mid : Fin 64} {n : Fin 4} {c : Fin 24} {v : Word} (runs : s.angleRuns = true)
    (own : s.ring.follows = []) (engine : mid = 15 ∨ mid = 16) (g : Granted s mid (Reg.AT_WCYL n c) true) :
    ∃ t, exec (.wcylWrite mid n c v) s = .next t ∧ t.rd (Reg.AT_WCYL n c) = v ∧
      bitAt (t.get (AT_WVAL_VALID n)) c = true ∧ findAt (fun _ => 0) c (t.trk n).ages = 0 ∧
      (∀ d : Fin 24, d ≠ c → t.rd (Reg.AT_WCYL n d) = s.rd (Reg.AT_WCYL n d) ∧
        bitAt (t.get (AT_WVAL_VALID n)) d = bitAt (s.get (AT_WVAL_VALID n)) d) ∧
      (∀ r, r ≠ Reg.AT_WCYL n c → r ≠ Reg.AT_WVAL n → notPending r = true → t.rd r = s.rd r) ∧ t.mem = s.mem := by
  have work (d : Nat) : notPending (Reg.AT_WCYL n d) = true := notPending_above (by unfold Reg.AT_WCYL; omega)
  have valid : notPending (AT_WVAL_VALID n).reg = true := notPending_above (show 0x40010000 ≤ Reg.AT_WVAL n by unfold Reg.AT_WVAL; omega)
  refine ⟨_, wcylWrite_works v runs own engine g, ?_, ?_, ?_, fun d hd => ⟨?_, ?_⟩, fun r hw hv hp => ?_, ?_⟩
  · rw [settle_rd _ (work c), percWorkWrite_rd_self c.isLt]
  · rw [settle_get _ valid, percWorkWrite_valid c.isLt, bitAt_putBits_self]
  · rw [settle_trk_of, percWorkWrite_age]
  · have other : d.val ≠ c.val := Fin.val_ne_of_ne hd
    rw [settle_rd _ (work d), percWorkWrite_rd _ _ _ _ (by unfold Reg.AT_WCYL; omega) (by unfold Reg.AT_WCYL Reg.AT_WVAL; omega)]
  · rw [settle_get _ valid, percWorkWrite_valid c.isLt, bitAt_putBits_ne _ _ (Fin.val_ne_of_ne hd)]
  · rw [settle_rd _ hp, percWorkWrite_rd _ _ _ _ hw hv]
  · rw [settle_mem, percWorkWrite_mem]

end Sys2Proof.Machine
end

section
/-! Errors that arise in protected words: of a memory, of an item of a queue, of a line of an instruction cache (R44, R276, R296, R329). -/

namespace Sys2Proof.Machine

section
variable {s : State}

/-- An uncorrectable error marks every word that the code covers (R44, R296). -/
theorem bitError_uncorrectable {a : Nat} (h : ∀ w ∈ eccWords (a / 4 * 4), s.ecc.contains w = false) :
    bitError a true s = { s with ecc := s.ecc ++ eccWords (a / 4 * 4) } := by
  have fresh : (eccWords (a / 4 * 4)).filter (fun x => !s.ecc.contains x) = eccWords (a / 4 * 4) :=
    List.filter_eq_self.mpr fun w hw => by rw [h w hw, Bool.not_false]
  simp only [bitError, fresh, cond_true]

/-- A single-bit error is kept where such errors are counted, in SRAM and TCM (R276, R296). -/
theorem bitError_single {a : Nat} (counted : (sramBank (a / 4 * 4)).isSome = true ∨ (tcmWindow (a / 4 * 4)).isSome = true)
    (h : s.soft.contains (a / 4 * 4) = false) : bitError a false s = { s with soft := s.soft ++ [a / 4 * 4] } := by
  have counts : ((sramBank (a / 4 * 4)).isSome || (tcmWindow (a / 4 * 4)).isSome) = true := Bool.or_eq_true_iff.mpr counted
  simp only [bitError, counts, h, Bool.not_false, Bool.and_self, cond_true, cond_false]

/-- An error in an item poisons it in class L, and elsewhere marks it by its kind (R329). -/
theorem itemError_marks {q i : Nat} {x : QItem} (u : Bool) (h : (s.queue q).items[i]? = some x) :
    ((itemError q i u s).queue q).items[i]? = some
      (if queueLarge s q = true then { x with poison := true } else if u = true then { x with ue := true } else { x with ce := true }) := by
  obtain ⟨inside, _⟩ := List.getElem?_eq_some_iff.mp h
  simp only [itemError, h, queue_putQueue_self, List.getElem?_set_self inside, cond_eq_ite]

theorem itemError_mem (q i : Nat) (u : Bool) : (itemError q i u s).mem = s.mem := by
  cases h : (s.queue q).items[i]? with
  | none => simp only [itemError, h]
  | some x => simp only [itemError, h, putQueue_mem]

/-- An error in a cached line marks the word of the cache, and the memory behind it stays (R276). -/
theorem errorAt_icache {n : Fin 4} {a : Word} (u : Bool) (h : (s.core n).ilines.contains (a.toNat / 4 * 4 / 64) = true) :
    ((errorAt (.icache n a) u s).core n).ibad.contains (a.toNat / 4 * 4) = true ∧ (errorAt (.icache n a) u s).mem = s.mem := by
  simp only [errorAt, h, whenS_true, State.modCore, core_putCore_self, List.contains_cons, beq_self_eq_true, Bool.true_or, putCore_mem,
    and_self]

end

theorem exec_memoryBitError (site : ErrorSite) (u : Bool) (s : State) :
    exec (.memoryBitError site u) s = .next (errorAt site u s).settle := rfl

/-- Settles O13: each write reaches its word, and each error its memory, item or cache. -/
theorem angleTableWrites : Obligations.AngleTableWrites := by
  unfold Obligations.AngleTableWrites
  refine ⟨fun s mid e v runs g free => toothEntryWrite_stores v runs g free,
    fun s mid e v runs g held => toothEntryWrite_refused v runs g held,
    fun s mid n c v runs own engine g => wcylWrite_effect runs own engine g, fun s addr fresh => ?memory, fun s addr counted fresh => ?single,
    fun s q i x u hx => ⟨_, exec_memoryBitError .., ?item, ?itemMemory⟩, fun s n addr hl => ⟨_, exec_memoryBitError .., ?line, ?lineMemory⟩⟩
  case memory => rw [exec_memoryBitError, errorAt, bitError_uncorrectable fresh]
  case single => rw [exec_memoryBitError, errorAt, bitError_single counted fresh]
  case item => rw [settle_queue_of, errorAt, itemError_marks u hx]
  case itemMemory => rw [settle_mem, errorAt, itemError_mem]
  case line => rw [settle_core_of, (errorAt_icache true hl).left]
  case lineMemory => rw [settle_mem, (errorAt_icache true hl).right]

end Sys2Proof.Machine
end

section
/-! Edges of timed inputs: the pin, the filtered edge of an EDGE input, a pulse that saturates (R48 to R50, R59 to R61, R198). -/

namespace Sys2Proof.Machine

open Fields

/-- A field reads by its register alone. -/
theorem get_of_rd {s t : State} {f : Fld} (h : t.rd f.reg = s.rd f.reg) : t.get f = s.get f := congrArg (fieldOf f) h

theorem flag_of_rd {s t : State} {f : Fld} (h : t.rd f.reg = s.rd f.reg) : t.flag f = s.flag f := congrArg (· != 0) (get_of_rd h)

theorem reg_TI_CFG_ne_TI_STAT (m n : Nat) : Reg.TI_CFG m ≠ Reg.TI_STAT n := by unfold Reg.TI_CFG Reg.TI_STAT; omega
theorem reg_TI_FLT_ne_TI_STAT (m n : Nat) : Reg.TI_FLT m ≠ Reg.TI_STAT n := by unfold Reg.TI_FLT Reg.TI_STAT; omega

theorem filterRuns_enabled {s : State} {n : Nat} (h : s.flag (TI_CFG_EN n) = true) : filterRuns s n = true := by
  rw [filterRuns, h, Bool.true_or]

/-- Which settings the filter of an input takes is read from the CFG registers (R57). -/
theorem filterOwner_of_cfg {s t : State} (h : ∀ m, t.rd (Reg.TI_CFG m) = s.rd (Reg.TI_CFG m)) (n : Nat) :
    filterOwner t n = filterOwner s n := by
  have mode (m : Nat) : t.get (TI_CFG_MODE m) = s.get (TI_CFG_MODE m) := get_of_rd (h m)
  simp only [filterOwner, mode]

/-! ### The timers that capture an input -/

/-- Of the inputs, the registers and the memory, `t` differs from `s` in the registers of the timers only. -/
structure TimersOnly (s t : State) : Prop where
  inp : ∀ m, t.inp m = s.inp m
  rd : ∀ r, r < 0x40040000 ∨ 0x40050000 ≤ r → t.rd r = s.rd r
  mem : t.mem = s.mem

section
variable {s t u : State}

theorem TimersOnly.refl (s : State) : TimersOnly s s := ⟨fun _ => rfl, fun _ _ => rfl, rfl⟩

theorem TimersOnly.trans (h : TimersOnly s t) (k : TimersOnly t u) : TimersOnly s u :=
  ⟨fun m => (k.inp m).trans (h.inp m), fun r hr => (k.rd r hr).trans (h.rd r hr), k.mem.trans h.mem⟩

theorem TimersOnly.putGpt (h : TimersOnly s t) (k : Nat) (g : Gpt) : TimersOnly s (t.putGpt k g) := h.trans ⟨fun _ => rfl, fun _ _ => rfl, rfl⟩

theorem TimersOnly.set (h : TimersOnly s t) {f : Fld} (v : Nat) (hf : 0x40040000 ≤ f.reg ∧ f.reg < 0x40050000) :
    TimersOnly s (t.set f v) :=
  h.trans ⟨fun _ => rfl, fun _ hr => rd_set_ne t f v (by omega), rfl⟩

end

section
variable {k x : Nat} (hk : k < 32) (hx : x < 2)
include hk hx

theorem cstat_inside : 0x40040000 ≤ Reg.GPTt_CSTAT k x ∧ Reg.GPTt_CSTAT k x < 0x40050000 := by
  unfold Reg.GPTt_CSTAT
  omega

theorem gptPush_timersOnly (s : State) (v : Word) : TimersOnly s (gptPush s k x v) := by
  have inside := cstat_inside hk hx
  simp only [gptPush, cond_eq_ite]
  split
  · exact ((TimersOnly.refl s).set _ inside).putGpt _ _
  · exact ((((TimersOnly.refl s).set _ inside).putGpt _ _).set _ inside).set _ inside

theorem gptWidthEnd_timersOnly (s : State) (start : Nat) : TimersOnly s (gptWidthEnd s k x start) := by
  simp only [gptWidthEnd, cond_eq_ite]
  split
  · exact ((TimersOnly.refl s).putGpt _ _).trans (gptPush_timersOnly hk hx _ _)
  · exact (((TimersOnly.refl s).putGpt _ _).set _ (cstat_inside hk hx)).trans (gptPush_timersOnly hk hx _ _)

theorem gptEdge_timersOnly (s : State) (src : Nat) (rising : Bool) : TimersOnly s (gptEdge s src rising k x) := by
  have same := TimersOnly.refl s
  simp only [gptEdge, cond_eq_ite]
  split
  · exact same
  · split
    case h_1 =>
      split
      · exact gptPush_timersOnly hk hx s _
      · exact same
    case h_2 =>
      split
      · split
        · exact same
        · exact gptWidthEnd_timersOnly hk hx s _
      · split
        · exact same.putGpt _ _
        · exact same
    case h_3 => exact same

end

/-- What holds at the start, and is kept by every call, holds at the end. -/
theorem upTo_keeps {P : State → Prop} {k : Nat} {f : Nat → State → State} {s : State} (start : P s)
    (step : ∀ i < k, ∀ u, P u → P (f i u)) : P (upTo k f s) :=
  List.foldlRecOn (motive := P) (List.range k) (fun t i => f i t) start fun u hu i hi => step i (List.mem_range.mp hi) u hu

/-- The edge of an input is offered to every channel, and reaches timers only (R198). -/
theorem gptCapture_timersOnly (src : Nat) (rising : Bool) (s : State) : TimersOnly s (gptCapture src rising s) := by
  unfold gptCapture
  exact upTo_keeps (.refl s) fun t ht u hu =>
    (hu.trans (gptEdge_timersOnly ht (by decide) u src rising)).trans (gptEdge_timersOnly ht (by decide) _ src rising)

/-! ### What a filtered edge does -/

section
variable {s : State} {n ts : Nat} {level : Bool} {rest : List (Nat × Bool)}

theorem dueEdge_due (hp : (s.inp n).passed = (ts, level) :: rest) (due : ts + captureDelay s n ≤ s.now) :
    dueEdge s n = some (ts, level, { s.inp n with passed := rest }) := by
  simp only [dueEdge, hp, List.isEmpty_cons, cond_false, Nat.ble_eq_true_of_le due, cond_true]

/-- An EDGE input counts the edges that POL selects (R50). -/
theorem countedEdge_selected (mode : s.get (TI_CFG_MODE n) = 0)
    (pol : s.get (TI_CFG_POL n) = 2 ∨ (s.get (TI_CFG_POL n) = 0 ↔ level = true)) : countedEdge s n level = true := by
  simp only [countedEdge, mode, Bool.or_eq_true, beq_iff_eq]
  exact pol.imp_right fun h => Bool.eq_iff_iff.mpr (beq_iff_eq.trans h)

/-- An edge that lies BLNK or more after the last that passed is not blanked (R50). -/
theorem blanked_late (h : ∀ t0, (s.inp n).lastPass = some t0 → t0 + s.get (TI_FLT_BLNK (filterOwner s n)) ≤ ts) :
    blanked s n ts = false := by
  cases e : (s.inp n).lastPass with
  | none => simp only [blanked, e]
  | some t0 => simp only [blanked, e, blt_false (h t0 e)]

/-- The queue takes an entry while it has room, with the mark of a drop before it (R61). -/
theorem capPush_room (e : CapEntry) (room : (s.inp n).queue.length < 4) :
    capPush s n e = s.putInp n { s.inp n with
      queue := (s.inp n).queue ++ [{ e with ovrb := (s.inp n).dropped }],
      stored := some { e with ovrb := (s.inp n).dropped }, dropped := false } := by
  simp only [capPush, blt_true room, cond_true]

/-- An EDGE input without INDEX pushes the edge's TS and level (R60). -/
theorem pushEdge_edge (mode : s.get (TI_CFG_MODE n) = 0) (index : s.get (TI_CFG_IDXEN n) = 0) :
    pushEdge s n ts level = capPush s n
      { ts := ts, ovrb := false, index := false, dir := false, dirv := false, level := level, wsat := false, width := 0 } := by
  simp only [pushEdge, mode, indexTag, flag_of_zero index, Bool.false_and]

variable (s n ts level rest)

/-- The oldest passed edge has left the filter: it is recorded, and its level published (R49, R58). -/
def edgeSeen : State := (s.putInp n (({ s.inp n with passed := rest }).remember ts level)).setb (TI_STAT_LVL n) level

/-- It has passed blanking too, and is the reference of the next (R50). -/
def edgePassed : State :=
  (edgeSeen s n ts level rest).putInp n { ({ s.inp n with passed := rest }).remember ts level with lastPass := some ts }

theorem edgeSeen_inp : (edgeSeen s n ts level rest).inp n = ({ s.inp n with passed := rest }).remember ts level := by
  rw [edgeSeen, setb_eq, set_inp_of, inp_putInp_self]

theorem edgeSeen_rd {r : Nat} (h : r ≠ Reg.TI_STAT n) : (edgeSeen s n ts level rest).rd r = s.rd r := by
  rw [edgeSeen, setb_eq, rd_set_ne _ _ _ h, putInp_rd]

theorem edgePassed_inp : (edgePassed s n ts level rest).inp n =
    { ({ s.inp n with passed := rest }).remember ts level with lastPass := some ts } := by rw [edgePassed, inp_putInp_self]

theorem edgePassed_inp_ne {m : Nat} (h : m ≠ n) : (edgePassed s n ts level rest).inp m = s.inp m := by
  rw [edgePassed, inp_putInp_ne _ _ h, edgeSeen, setb_eq, set_inp_of, inp_putInp_ne _ _ h]

theorem edgePassed_rd {r : Nat} (h : r ≠ Reg.TI_STAT n) : (edgePassed s n ts level rest).rd r = s.rd r := by
  rw [edgePassed, putInp_rd, edgeSeen_rd _ _ _ _ _ h]

theorem edgePassed_level : (edgePassed s n ts level rest).get (TI_STAT_LVL n) = level.toNat := by
  rw [edgePassed, putInp_get, edgeSeen, setb_eq, get_set_self _ _ _ (show 0 + 1 ≤ 32 by decide)]
  cases level <;> rfl

theorem edgePassed_mem : (edgePassed s n ts level rest).mem = s.mem := rfl

variable {s n ts level rest}

/-- A due edge that is counted and not blanked is offered to the timers, and pushed (R49, R50, R198). -/
theorem filteredEdge_passes (on : s.get (TI_CFG_EN n) = 1) (mode : s.get (TI_CFG_MODE n) ≠ 3)
    (hp : (s.inp n).passed = (ts, level) :: rest) (due : ts + captureDelay s n ≤ s.now) (counted : countedEdge s n level = true)
    (late : ∀ t0, (s.inp n).lastPass = some t0 → t0 + s.get (TI_FLT_BLNK (filterOwner s n)) ≤ ts) :
    filteredEdge s n = pushEdge (gptCapture n level (edgePassed s n ts level rest)) n ts level := by
  have owner : filterOwner (edgeSeen s n ts level rest) n = filterOwner s n :=
    filterOwner_of_cfg (fun m => edgeSeen_rd _ _ _ _ _ (reg_TI_CFG_ne_TI_STAT m n)) n
  have clear : blanked (edgeSeen s n ts level rest) n ts = false := by
    refine blanked_late fun t0 h => ?_
    rw [edgeSeen_inp] at h
    rw [owner, get_of_rd (edgeSeen_rd _ _ _ _ _ (reg_TI_FLT_ne_TI_STAT _ n))]
    exact late t0 h
  simp only [edgeSeen, setb_eq] at clear
  simp only [filteredEdge, filterRuns_enabled (flag_of_one on), dueEdge_due hp due, counted, clear, beq_false_of_ne mode, Bool.not_true,
    cond_false, edgePassed, edgeSeen, setb_eq, set_inp_of, inp_putInp_self]

/-- A pulse of an enabled DIRPW input that has lasted 0xFFFF tk is pushed as saturated (R59). -/
theorem dirpwSaturateDue_saturates (mode : s.get (TI_CFG_MODE n) = 3) (on : s.get (TI_CFG_EN n) = 1)
    (pulse : (s.inp n).pulse = some ts) (fresh : (s.inp n).pulseSat = false) (due : ts + 0xFFFF + captureDelay s n ≤ s.now) :
    dirpwSaturateDue s n = dirpwSaturate s n ts := by
  simp only [dirpwSaturateDue, pulse, mode, flag_of_one on, fresh, Nat.ble_eq_true_of_le due, beq_self_eq_true, Bool.not_false,
    Bool.and_self, cond_true]

/-- A new level at the pin of an enabled input that is no VR front end reaches its filter now (R48). -/
theorem pinEdge_changes (on : s.flag (TI_CFG_EN n) = true) (mode : s.get (TI_CFG_MODE n) ≠ 1) (change : (s.inp n).pin ≠ level) :
    pinEdge s n level = s.putInp n { filterAt s n s.now with pin := level, pinTb := s.now } := by
  simp only [pinEdge, beq_false_of_ne mode, filterRuns_enabled on, beq_false_of_ne (Ne.symm change), Bool.false_and, Bool.not_true,
    cond_false, pinLevel]

end

/-! ### The commands -/

section
variable {s : State} {n : Fin 16} (runs : s.angleRuns = true)
include runs

theorem exec_tiPinEdge (level : Bool) : exec (.tiPinEdge n level) s = .next (pinEdge s n level).settle :=
  congrArg done (inAngle_runs s _ runs)

theorem exec_filteredEdge : exec (.filteredEdge n) s = .next (filteredEdge s n).settle := congrArg done (inAngle_runs s _ runs)

theorem exec_dirpwWidthSaturate : exec (.dirpwWidthSaturate n) s = .next (dirpwSaturateDue s n).settle :=
  congrArg done (inAngle_runs s _ runs)

end

/-- FILTERED_EDGE of an EDGE input whose queue has room. -/
theorem filteredEdge_effect {s : State} {n : Fin 16} {ts : Nat} {level : Bool} {rest : List (Nat × Bool)}
    (runs : s.angleRuns = true) (on : s.get (TI_CFG_EN n) = 1) (mode : s.get (TI_CFG_MODE n) = 0)
    (pol : s.get (TI_CFG_POL n) = 2 ∨ (s.get (TI_CFG_POL n) = 0 ↔ level = true)) (hp : (s.inp n).passed = (ts, level) :: rest)
    (due : ts + captureDelay s n ≤ s.now)
    (late : ∀ t0, (s.inp n).lastPass = some t0 → t0 + s.get (TI_FLT_BLNK (filterOwner s n)) ≤ ts)
    (room : (s.inp n).queue.length < 4) (index : s.get (TI_CFG_IDXEN n) = 0) :
    let e : CapEntry := { ts := ts, ovrb := (s.inp n).dropped, index := false, dir := false, dirv := false, level := level, wsat := false,
                          width := 0 }
    ∃ t, exec (.filteredEdge n) s = .next t ∧
      t.inp n = { ({ s.inp n with passed := rest }).remember ts level with
        lastPass := some ts, queue := (s.inp n).queue ++ [e], stored := some e, dropped := false } ∧
      (∀ m, m ≠ n.val → t.inp m = s.inp m) ∧ t.get (TI_STAT_LVL n) = level.toNat ∧
      (∀ r, r ≠ Reg.TI_STAT n → notPending r = true → (r < 0x40040000 ∨ 0x40050000 ≤ r) → t.rd r = s.rd r) ∧ t.mem = s.mem := by
  intro e
  have frame := gptCapture_timersOnly n level (edgePassed s n ts level rest)
  have passes := filteredEdge_passes on (by omega) hp due (countedEdge_selected mode pol) late
  generalize gptCapture n level (edgePassed s n ts level rest) = u at frame passes
  have input : u.inp n = { ({ s.inp n with passed := rest }).remember ts level with lastPass := some ts } :=
    (frame.inp n).trans (edgePassed_inp ..)
  have above : 0x40050000 ≤ Reg.TI_CFG n ∧ 0x40050000 ≤ Reg.TI_STAT n := by unfold Reg.TI_CFG Reg.TI_STAT; omega
  have cfg : u.rd (Reg.TI_CFG n) = s.rd (Reg.TI_CFG n) :=
    (frame.rd _ (.inr above.left)).trans (edgePassed_rd _ _ _ _ _ (reg_TI_CFG_ne_TI_STAT n n))
  have pushed : filteredEdge s n = u.putInp n { ({ s.inp n with passed := rest }).remember ts level with
      lastPass := some ts, queue := (s.inp n).queue ++ [e], stored := some e, dropped := false } := by
    rw [passes, pushEdge_edge ((get_of_rd cfg).trans mode) ((get_of_rd cfg).trans index), capPush_room _ (by rw [input]; exact room), input]
    rfl
  refine ⟨_, exec_filteredEdge runs, ?_, fun m hm => ?_, ?_, fun r hr hs hg => ?_, ?_⟩
  · rw [settle_inp_of, pushed, inp_putInp_self]
  · rw [settle_inp_of, pushed, inp_putInp_ne _ _ hm, frame.inp, edgePassed_inp_ne _ _ _ _ _ hm]
  · rw [settle_get _ (notPending_above (show 0x40010000 ≤ Reg.TI_STAT n by omega)), pushed, putInp_get,
      get_of_rd (frame.rd _ (.inr above.right)), edgePassed_level]
  · rw [settle_rd _ hs, pushed, putInp_rd, frame.rd r hg, edgePassed_rd _ _ _ _ _ hr]
  · rw [settle_mem, pushed, putInp_mem, frame.mem, edgePassed_mem]

/-- Settles O14: each command is its edge, and a queue with room takes the entry. -/
theorem inputEdges : Obligations.InputEdges := by
  unfold Obligations.InputEdges
  refine ⟨fun s n level runs on mode change => ?pin,
    fun s n ts level rest runs on mode pol hp due late room index => filteredEdge_effect runs on mode pol hp due late room index,
    fun s n ts runs mode on pulse fresh due room => ?saturated⟩
  case pin => rw [exec_tiPinEdge runs, pinEdge_changes on mode change]
  case saturated =>
    refine ⟨_, { ts := ts, ovrb := (s.inp n).dropped, index := indexTag s n ts, dir := false, dirv := false,
                 level := s.get (TI_CFG_POL n) == 0, wsat := true, width := 0xFFFF },
      exec_dirpwWidthSaturate runs, rfl, rfl, rfl, rfl, rfl, ?_⟩
    rw [dirpwSaturateDue_saturates mode on pulse fresh due, dirpwSaturate, capPush_room _ (by rw [inp_putInp_self]; exact room)]
    refine ⟨?_, fun m hm => ?_, fun r hr => ?_, ?_⟩
    · rw [settle_inp_of, inp_putInp_self, inp_putInp_self]
    · rw [settle_inp_of, inp_putInp_ne _ _ hm, inp_putInp_ne _ _ hm]
    · rw [settle_rd _ hr, putInp_rd, putInp_rd]
    · rw [settle_mem, putInp_mem, putInp_mem]

end Sys2Proof.Machine
end

section
/-! The VR front ends: crossings of the arming comparator, the timed zero crossing, the timeout (R52 to R55, R219). -/

namespace Sys2Proof.Machine

open Fields

/-- A bit that was written reads as the value. -/
theorem flag_setb_self (s : State) {f : Fld} (b : Bool) (h : f.lo + f.width ≤ 32) (bit : f.width = 1) : (s.setb f b).flag f = b := by
  rw [State.flag, setb_eq, get_set_self _ _ _ h, bit]
  cases b <;> rfl

/-! ### What a front end reaches -/

/-- Of the inputs, the registers, the memory, the power state and TB, `t` differs from `s` in input `n` and in the status registers of
its front end and its comparator only; words that are pending aside. -/
structure FrontEndOnly (n : Nat) (s t : State) : Prop where
  inp : ∀ m, m ≠ n → t.inp m = s.inp m
  rd : ∀ r, r ≠ Reg.TI_VRSTAT n → r ≠ Reg.CMP_STAT n → notPending r = true → t.rd r = s.rd r
  mem : t.mem = s.mem
  power : t.power = s.power
  now : t.now = s.now

section
variable {n : Nat} {s t u : State}

theorem FrontEndOnly.refl (n : Nat) (s : State) : FrontEndOnly n s s := ⟨fun _ _ => rfl, fun _ _ _ _ => rfl, rfl, rfl, rfl⟩

theorem FrontEndOnly.trans (h : FrontEndOnly n s t) (k : FrontEndOnly n t u) : FrontEndOnly n s u where
  inp m hm := (k.inp m hm).trans (h.inp m hm)
  rd r h1 h2 h3 := (k.rd r h1 h2 h3).trans (h.rd r h1 h2 h3)
  mem := k.mem.trans h.mem
  power := k.power.trans h.power
  now := k.now.trans h.now

theorem FrontEndOnly.putInp (h : FrontEndOnly n s t) (i : Input) : FrontEndOnly n s (t.putInp n i) :=
  h.trans ⟨fun _ hm => inp_putInp_ne t i hm, fun _ _ _ _ => rfl, rfl, rfl, rfl⟩

theorem FrontEndOnly.putCmp (h : FrontEndOnly n s t) (c : Cmp) : FrontEndOnly n s (t.putCmp n c) :=
  h.trans ⟨fun _ _ => rfl, fun _ _ _ _ => rfl, rfl, rfl, rfl⟩

theorem FrontEndOnly.wr (h : FrontEndOnly n s t) {a : Nat} (v : Word) (ha : a = Reg.TI_VRSTAT n ∨ a = Reg.CMP_STAT n) :
    FrontEndOnly n s (t.wr a v) :=
  h.trans ⟨fun _ _ => rfl, fun _ h1 h2 _ => rd_wr_ne t v (by rintro rfl; exact ha.elim h1 h2), rfl, rfl, rfl⟩

theorem FrontEndOnly.set (h : FrontEndOnly n s t) {f : Fld} (v : Nat) (hf : f.reg = Reg.TI_VRSTAT n ∨ f.reg = Reg.CMP_STAT n) :
    FrontEndOnly n s (t.set f v) := h.wr _ hf

theorem FrontEndOnly.settle (h : FrontEndOnly n s t) : FrontEndOnly n s t.settle :=
  h.trans ⟨fun _ _ => settle_inp_of .., fun _ _ _ hp => settle_rd t hp, settle_mem t, settle_power t, settle_now t⟩

theorem reg_CMP_STAT_ne_TI_VRSTAT (m n : Nat) (hm : m < 4) : Reg.CMP_STAT m ≠ Reg.TI_VRSTAT n := by
  unfold Reg.CMP_STAT Reg.TI_VRSTAT
  omega

/-- The settings of the input, of its comparator and the power state are none of the two. -/
theorem FrontEndOnly.setting (h : FrontEndOnly n s t) (hn : n < 4) {r : Nat}
    (hr : r = Reg.TI_CFG n ∨ r = Reg.TI_VRCFG n ∨ r = Reg.TI_VRTO n ∨ r = Reg.CMP_CFG n ∨ r = Reg.CPR_PWRSTAT) : t.rd r = s.rd r := by
  unfold Reg.TI_CFG Reg.TI_VRCFG Reg.TI_VRTO Reg.CMP_CFG Reg.CPR_PWRSTAT at hr
  refine h.rd r ?_ ?_ (notPending_above (by omega))
  · unfold Reg.TI_VRSTAT; omega
  · unfold Reg.CMP_STAT; omega

theorem FrontEndOnly.powerState (h : FrontEndOnly n s t) (hn : n < 4) : t.get CPR_PWRSTAT_STATE = s.get CPR_PWRSTAT_STATE :=
  get_of_rd (h.setting hn (.inr (.inr (.inr (.inr rfl)))))

theorem FrontEndOnly.angleRuns (h : FrontEndOnly n s t) (hn : n < 4) : t.angleRuns = s.angleRuns := by
  rw [State.angleRuns, State.angleRuns, h.powerState hn, h.power]

theorem FrontEndOnly.cmpVr (h : FrontEndOnly n s t) (hn : n < 4) : cmpVr t n = cmpVr s n := by
  have mode : t.get (TI_CFG_MODE n) = s.get (TI_CFG_MODE n) := get_of_rd (h.setting hn (.inl rfl))
  rw [Machine.cmpVr, Machine.cmpVr, h.powerState hn, mode]

/-- No loop drives the comparators of the VR inputs, and none of them is absent (R3, R149). -/
theorem cmpPowered_input (s : State) (hn : n < 4) :
    cmpPowered s n = (s.flag (CMP_CFG_EN n) && (Nat.blt (s.get CPR_PWRSTAT_STATE) 3 || s.flag (CMP_CFG_AON n))) := by
  simp only [cmpPowered, cmpPresent, cmpLoop, ble_false hn, Bool.false_and, Bool.not_false, Bool.true_or, Bool.true_and, Bool.or_false]

theorem FrontEndOnly.cmpPowered (h : FrontEndOnly n s t) (hn : n < 4) : cmpPowered t n = cmpPowered s n := by
  have en : t.flag (CMP_CFG_EN n) = s.flag (CMP_CFG_EN n) := flag_of_rd (h.setting hn (.inr (.inr (.inr (.inl rfl)))))
  have aon : t.flag (CMP_CFG_AON n) = s.flag (CMP_CFG_AON n) := flag_of_rd (h.setting hn (.inr (.inr (.inr (.inl rfl)))))
  rw [cmpPowered_input t hn, cmpPowered_input s hn, h.powerState hn, en, aon]

/-- A comparator without power resolves nothing (R225). -/
theorem cmpResolve_unpowered (h : cmpPowered s n = false) : cmpResolve n s = s := by
  simp only [cmpResolve, h, Bool.not_false, cond_true]

end

/-! ### A crossing of the arming comparator -/

section
variable (s : State) (n : Nat) (b : Bool)

/-- The state in which a crossing is judged: a rise above ZHYS has re-armed a timing comparator of INV = 0 (R53). -/
def afterRise : State :=
  if b = true ∧ (s.inp n).rearmed = false ∧ s.get (TI_VRCFG_INV n) = 0 ∧ s.get (TI_VRCFG_ZHYS n) ≤ 2 * s.get (TI_VRSTAT_THR n)
  then vrRearm s n else s

theorem whenS_rise : whenS (b && !(s.inp n).rearmed && !s.flag (TI_VRCFG_INV n) &&
    Nat.ble (s.get (TI_VRCFG_ZHYS n)) (2 * s.get (TI_VRSTAT_THR n))) (vrRearm · n) s = afterRise s n b := by
  simp only [whenS, afterRise, cond_eq_ite, Bool.and_eq_true, Bool.not_eq_true', State.flag, bne_eq_false_iff_eq, Nat.ble_eq, and_assoc]

theorem afterRise_rd (r : Nat) : (afterRise s n b).rd r = s.rd r := by
  unfold afterRise
  split <;> rfl

theorem afterRise_get (f : Fld) : (afterRise s n b).get f = s.get f := get_of_rd (afterRise_rd ..)

theorem afterRise_cmp (m : Nat) : (afterRise s n b).cmp m = s.cmp m := by
  unfold afterRise
  split <;> rfl

theorem afterRise_frontEndOnly : FrontEndOnly n s (afterRise s n b) := by
  unfold afterRise
  split
  · exact ((FrontEndOnly.refl n s).putInp _).putInp _
  · exact .refl n s

/-- A crossing reaches the front end alone, and leaves the comparator's status as it is (R54). -/
theorem vrCrossing_frame (hn : n < 4) :
    FrontEndOnly n s (vrCrossing s n b) ∧ (vrCrossing s n b).rd (Reg.CMP_STAT n) = s.rd (Reg.CMP_STAT n) := by
  have same := FrontEndOnly.refl n s
  have other := reg_CMP_STAT_ne_TI_VRSTAT n n hn
  simp only [vrCrossing, cond_eq_ite]
  split
  · split
    · exact ⟨same.set _ (.inl rfl), rd_set_ne _ _ _ other⟩
    · have state : Reg.CMP_STAT n ≠ (TI_VRSTAT_STATE n).reg := other
      have count : Reg.CMP_STAT n ≠ (TI_VRSTAT_PCNT n).reg := other
      exact ⟨((same.set _ (.inl rfl)).set _ (.inl rfl)).putInp _, by rw [putInp_rd, rd_set_ne _ _ _ state, rd_set_ne _ _ _ count]⟩
  · split
    · exact ⟨same.putInp _, rfl⟩
    · exact ⟨same, rfl⟩
  · exact ⟨same, rfl⟩

end

section
variable {s : State} {n : Nat} {b : Bool}

/-- The first crossing of PRIME counts 1 (R54). -/
theorem vrCrossing_first (prime : s.get (TI_VRSTAT_STATE n) = 1) (first : s.get (TI_VRSTAT_PCNT n) = 0) :
    vrCrossing s n b = s.set (TI_VRSTAT_PCNT n) 1 := by
  simp only [vrCrossing, prime, first, beq_self_eq_true, cond_true]

/-- The second takes the front end to RUN, unarmed (R54). -/
theorem vrCrossing_second (prime : s.get (TI_VRSTAT_STATE n) = 1) (second : s.get (TI_VRSTAT_PCNT n) ≠ 0) :
    vrCrossing s n b =
      ((s.set (TI_VRSTAT_PCNT n) 2).set (TI_VRSTAT_STATE n) 2).putInp n { s.inp n with armed := false } := by
  simp only [vrCrossing, prime, beq_false_of_ne second, cond_false]
  rw [set_inp_of, set_inp_of]

/-- A rise in RUN arms the front end (R54). -/
theorem vrCrossing_rise (run : s.get (TI_VRSTAT_STATE n) = 2) (rise : b = true) :
    vrCrossing s n b = s.putInp n { s.inp n with armed := true } := by
  simp only [vrCrossing, run, rise, cond_true]

/-- What a crossing that finds the front end as in `s` leaves in its status and its armed flag (R54). -/
structure Crossed (s : State) (n : Nat) (b : Bool) (t : State) : Prop where
  first : s.get (TI_VRSTAT_STATE n) = 1 → s.get (TI_VRSTAT_PCNT n) = 0 → t.get (TI_VRSTAT_PCNT n) = 1 ∧ t.get (TI_VRSTAT_STATE n) = 1
  second : s.get (TI_VRSTAT_STATE n) = 1 → s.get (TI_VRSTAT_PCNT n) ≠ 0 →
    t.get (TI_VRSTAT_PCNT n) = 2 ∧ t.get (TI_VRSTAT_STATE n) = 2 ∧ (t.inp n).armed = false
  rise : s.get (TI_VRSTAT_STATE n) = 2 → b = true → (t.inp n).armed = true

/-- It says nothing of either state but the front end's status and input. -/
theorem Crossed.of_status {s' t t' : State} (h : Crossed s n b t) (hs : s'.rd (Reg.TI_VRSTAT n) = s.rd (Reg.TI_VRSTAT n))
    (ht : t'.rd (Reg.TI_VRSTAT n) = t.rd (Reg.TI_VRSTAT n)) (hi : t'.inp n = t.inp n) : Crossed s' n b t' := by
  have state : s'.get (TI_VRSTAT_STATE n) = s.get (TI_VRSTAT_STATE n) := get_of_rd hs
  have count : s'.get (TI_VRSTAT_PCNT n) = s.get (TI_VRSTAT_PCNT n) := get_of_rd hs
  have state' : t'.get (TI_VRSTAT_STATE n) = t.get (TI_VRSTAT_STATE n) := get_of_rd ht
  have count' : t'.get (TI_VRSTAT_PCNT n) = t.get (TI_VRSTAT_PCNT n) := get_of_rd ht
  refine ⟨?first, ?second, ?rise⟩ <;> rw [state]
  case first => rw [count, count', state']; exact h.first
  case second => rw [count, count', state', hi]; exact h.second
  case rise => rw [hi]; exact h.rise

theorem vrCrossing_crossed (s : State) (n : Nat) (b : Bool) : Crossed s n b (vrCrossing s n b) where
  first prime none := by
    rw [vrCrossing_first prime none, get_set_self _ _ _ (show 18 + 2 ≤ 32 by decide),
      get_set_ne _ _ _ _ (show 18 + 2 ≤ 32 by decide) (.inr (.inl (show 16 + 2 ≤ 18 by decide))), prime]
    exact ⟨rfl, rfl⟩
  second prime some := by
    rw [vrCrossing_second prime some, putInp_get, putInp_get, get_set_self _ _ _ (show 16 + 2 ≤ 32 by decide),
      get_set_ne _ _ _ _ (show 16 + 2 ≤ 32 by decide) (.inr (.inr (show 16 + 2 ≤ 18 by decide))),
      get_set_self _ _ _ (show 18 + 2 ≤ 32 by decide), inp_putInp_self]
    exact ⟨rfl, rfl, rfl⟩
  rise run up := by rw [vrCrossing_rise run up, inp_putInp_self]

/-- Without a powered comparator the crossing is taken as it comes (R54). -/
theorem vrGenuine_unpowered (h : cmpPowered s n = false ∨ cmpVr s n = false) :
    vrGenuine n b s = vrCrossing (afterRise s n b) n b := by
  have off : (cmpPowered s n && cmpVr s n) = false := Bool.and_eq_false_iff.mpr h
  simp only [vrGenuine, off, whenS_rise, Bool.not_false, cond_true]

/-- A crossing to the side on which OUT stands is none (R54, R219). -/
theorem vrGenuine_again (powered : cmpPowered s n = true) (vr : cmpVr s n = true) (resolved : (s.cmp n).fresh = false)
    (out : s.flag (CMP_STAT_OUT n) = b) (side : s.get (CMP_STAT_INBAND n) = 0) : vrGenuine n b s = afterRise s n b := by
  have same (f : Fld) : (afterRise s n b).flag f = s.flag f := flag_of_rd (afterRise_rd ..)
  simp only [vrGenuine, powered, vr, whenS_rise, afterRise_cmp, resolved, same, out, flag_of_zero side, Bool.and_self, Bool.not_true,
    Bool.not_false, beq_self_eq_true, cond_false, cond_true]

end

/-! ### A powered comparator takes the crossing -/

section
variable {s : State} {n : Nat} {b : Bool}

/-- A front end drives its comparator with THR above and half of it below (R52). -/
theorem cmpHigh_vr (vr : cmpVr s n = true) : cmpHigh s n = s.get (TI_VRSTAT_THR n) := by simp only [cmpHigh, cmpThr, vr, cond_true]
theorem cmpLow_vr (vr : cmpVr s n = true) : cmpLow s n = s.get (TI_VRSTAT_THR n) / 2 := by simp only [cmpLow, cmpThr, vr, cond_true]

/-- An input just beyond the threshold of side `b`, in codes. -/
def beyond (s : State) (n : Nat) (b : Bool) : Int := bif b then (cmpHigh s n : Int) + 1 else (cmpLow s n : Int) - 1

theorem beyond_putCmp (vr : cmpVr s n = true) (c : Cmp) : beyond (s.putCmp n c) n b = beyond s n b := by
  have vr' : cmpVr (s.putCmp n c) n = true := vr
  rw [beyond, beyond, cmpHigh_vr vr, cmpHigh_vr vr', cmpLow_vr vr, cmpLow_vr vr', putCmp_get]

/-- The input of a VR front end's comparator is its own, and stands in no window pair (R52, R224). -/
theorem cmpInput_input (hn : n < 4) (x : Int) : cmpInput n x s = cmpJudge n (s.putCmp n { s.cmp n with input := x }) := by
  have own : cmpShared s n = [n] := by simp only [cmpShared, blt_true hn, cond_true]
  have alone : Nat.blt n 28 = true := blt_true (by omega)
  simp only [cmpInput, cmpWatch, own, List.foldl_cons, List.foldl_nil, windowUpdate, alone, cond_true]

/-- The input stands beyond the threshold of side `b`, on which OUT does not yet stand for good: the front end sees the crossing, and OUT
takes the side (R54, R219). -/
theorem cmpJudge_crosses (powered : cmpPowered s n = true) (vr : cmpVr s n = true) (resolved : (s.cmp n).fresh = false)
    (input : (s.cmp n).input = beyond s n b) (genuine : s.flag (CMP_STAT_OUT n) ≠ b ∨ s.flag (CMP_STAT_INBAND n) = true) :
    cmpJudge n s =
      let z := vrCrossing (s.setb (CMP_STAT_INBAND n) false) n b
      bif b == s.flag (CMP_STAT_OUT n) then z else cmpEdge n b (z.setb (CMP_STAT_OUT n) b) := by
  have band : cmpLow s n ≤ cmpHigh s n := by
    rw [cmpLow_vr vr, cmpHigh_vr vr]
    omega
  have sides : decide ((s.cmp n).input > (cmpHigh s n : Int)) = b ∧ decide ((s.cmp n).input < (cmpLow s n : Int)) = !b := by
    rw [input, beyond]
    cases b with
    | false => exact ⟨decide_eq_false (by rw [cond_false]; omega), decide_eq_true (by rw [cond_false]; omega)⟩
    | true => exact ⟨decide_eq_true (by rw [cond_true]; omega), decide_eq_false (by rw [cond_true]; omega)⟩
  obtain ⟨above, below⟩ := sides
  have taken : (b != s.flag (CMP_STAT_OUT n) || s.flag (CMP_STAT_INBAND n)) = true := by
    rw [Bool.or_eq_true, bne_iff_ne]
    exact genuine.imp_left Ne.symm
  have out : (bif b then true else bif !b then false else s.flag (CMP_STAT_OUT n)) = b := by cases b <;> rfl
  simp only [cmpJudge, powered, resolved, above, below, vr, out, taken, Bool.or_not_self, Bool.and_true, Bool.not_true, cond_false,
    whenS_true]

/-- An edge of OUT is noted in the comparator, where CFG.EDGE selects it (R222). -/
theorem cmpEdge_eq (n : Nat) (rising : Bool) (s : State) : cmpEdge n rising s = s ∨ ∃ c, cmpEdge n rising s = s.putCmp n c := by
  simp only [cmpEdge, cond_eq_ite]
  split
  · exact .inl rfl
  · exact .inr ⟨_, rfl⟩

/-- What the comparator and the front end hold after the crossing (R54, R219). -/
theorem cmpJudge_crossed (hn : n < 4) (powered : cmpPowered s n = true) (vr : cmpVr s n = true) (resolved : (s.cmp n).fresh = false)
    (input : (s.cmp n).input = beyond s n b) (genuine : s.flag (CMP_STAT_OUT n) ≠ b ∨ s.flag (CMP_STAT_INBAND n) = true) :
    FrontEndOnly n s (cmpJudge n s) ∧ Crossed s n b (cmpJudge n s) ∧ (cmpJudge n s).flag (CMP_STAT_OUT n) = b := by
  have other := reg_CMP_STAT_ne_TI_VRSTAT n n hn
  have inside : FrontEndOnly n s (s.setb (CMP_STAT_INBAND n) false) := (FrontEndOnly.refl n s).set _ (.inr rfl)
  obtain ⟨frame, status⟩ := vrCrossing_frame (s.setb (CMP_STAT_INBAND n) false) n b hn
  have crossed := (vrCrossing_crossed (s.setb (CMP_STAT_INBAND n) false) n b).of_status (rd_set_ne _ _ _ other.symm).symm rfl rfl
  have stands : (vrCrossing (s.setb (CMP_STAT_INBAND n) false) n b).flag (CMP_STAT_OUT n) = s.flag (CMP_STAT_OUT n) := by
    rw [flag_of_rd status, State.flag, setb_eq,
      get_set_ne _ _ _ _ (show 1 + 1 ≤ 32 by decide) (.inr (.inl (show 0 + 1 ≤ 1 by decide))), State.flag]
  rw [cmpJudge_crosses powered vr resolved input genuine]
  generalize vrCrossing (s.setb (CMP_STAT_INBAND n) false) n b = z at frame crossed stands
  cases h : b == s.flag (CMP_STAT_OUT n) with
  | true => exact ⟨inside.trans frame, crossed, stands.trans (beq_iff_eq.mp h).symm⟩
  | false =>
    have moved : FrontEndOnly n s (z.setb (CMP_STAT_OUT n) b) := (inside.trans frame).set _ (.inr rfl)
    have crossed' : Crossed s n b (z.setb (CMP_STAT_OUT n) b) := crossed.of_status rfl (rd_set_ne _ _ _ other.symm) rfl
    have out : (z.setb (CMP_STAT_OUT n) b).flag (CMP_STAT_OUT n) = b := flag_setb_self _ _ (show 0 + 1 ≤ 32 by decide) rfl
    simp only [cond_false]
    rcases cmpEdge_eq n b (z.setb (CMP_STAT_OUT n) b) with e | ⟨c, e⟩
    · rw [e]
      exact ⟨moved, crossed', out⟩
    · rw [e]
      exact ⟨moved.putCmp c, crossed'.of_status rfl rfl rfl, out⟩

variable (s n b)

/-- A comparator that has still to resolve for the first time starts on the other side (R221). -/
def otherSide : State :=
  bif (s.cmp n).fresh then (s.putCmp n { s.cmp n with fresh := false }).setb (CMP_STAT_OUT n) (!b) else s

theorem otherSide_frame (hn : n < 4) : FrontEndOnly n s (otherSide s n b) ∧
    (otherSide s n b).rd (Reg.TI_VRSTAT n) = s.rd (Reg.TI_VRSTAT n) ∧ ((otherSide s n b).cmp n).fresh = false := by
  cases fresh : (s.cmp n).fresh with
  | false => simp only [otherSide, fresh, cond_false, FrontEndOnly.refl, and_self]
  | true =>
    simp only [otherSide, fresh, cond_true, setb_eq, set_cmp_of, cmp_putCmp_self]
    exact ⟨((FrontEndOnly.refl n s).putCmp _).set _ (.inr rfl), rd_set_ne _ _ _ (reg_CMP_STAT_ne_TI_VRSTAT n n hn).symm, trivial⟩

variable {s n b}

/-- Where OUT does not yet stand on side `b` for good, the crossing to it is genuine (R54, R221). -/
theorem otherSide_genuine (h : (s.cmp n).fresh = true ∨ s.flag (CMP_STAT_OUT n) ≠ b ∨ s.get (CMP_STAT_INBAND n) = 1) :
    (otherSide s n b).flag (CMP_STAT_OUT n) ≠ b ∨ (otherSide s n b).flag (CMP_STAT_INBAND n) = true := by
  cases fresh : (s.cmp n).fresh with
  | false =>
    simp only [otherSide, fresh, cond_false]
    exact (h.resolve_left (by simp only [fresh, Bool.false_eq_true, not_false_eq_true])).imp_right flag_of_one
  | true =>
    left
    rw [otherSide, fresh, cond_true, flag_setb_self _ _ (show 0 + 1 ≤ 32 by decide) rfl]
    cases b <;> decide

/-- A powered comparator shows the crossing as its input just beyond the threshold (R54, R219). -/
theorem vrGenuine_shows (powered : cmpPowered s n = true) (vr : cmpVr s n = true)
    (genuine : (otherSide (afterRise s n b) n b).flag (CMP_STAT_OUT n) ≠ b ∨
      (otherSide (afterRise s n b) n b).flag (CMP_STAT_INBAND n) = true) :
    vrGenuine n b s = cmpInput n (beyond (otherSide (afterRise s n b) n b) n b) (otherSide (afterRise s n b) n b) := by
  have crosses : ((otherSide (afterRise s n b) n b).flag (CMP_STAT_OUT n) == b &&
      !(otherSide (afterRise s n b) n b).flag (CMP_STAT_INBAND n)) = false := by
    rw [Bool.and_eq_false_iff, beq_eq_false_iff_ne, Bool.not_eq_false']
    exact genuine
  rw [otherSide] at crosses
  simp only [vrGenuine, powered, vr, whenS_rise, crosses, Bool.and_self, Bool.not_true, cond_false, beyond, otherSide]

/-- What the comparator and the front end hold after VR_GENUINE_CROSSING (R54, R219). -/
theorem vrGenuine_crossed (hn : n < 4) (powered : cmpPowered s n = true) (vr : cmpVr s n = true)
    (h : (s.cmp n).fresh = true ∨ s.flag (CMP_STAT_OUT n) ≠ b ∨ s.get (CMP_STAT_INBAND n) = 1) :
    FrontEndOnly n s (vrGenuine n b s) ∧ Crossed s n b (vrGenuine n b s) ∧ (vrGenuine n b s).flag (CMP_STAT_OUT n) = b := by
  have genuine := otherSide_genuine (s := afterRise s n b) (b := b)
    (by rw [afterRise_cmp, flag_of_rd (afterRise_rd s n b _), afterRise_get]; exact h)
  obtain ⟨frame, status, resolved⟩ := otherSide_frame (afterRise s n b) n b hn
  rw [vrGenuine_shows powered vr genuine, cmpInput_input hn]
  have front := (afterRise_frontEndOnly s n b).trans frame
  have status' := status.trans (afterRise_rd s n b _)
  generalize otherSide (afterRise s n b) n b = u at genuine resolved front status'
  have shown := front.putCmp { u.cmp n with input := beyond u n b }
  obtain ⟨frame', crossed, out⟩ := cmpJudge_crossed (s := u.putCmp n { u.cmp n with input := beyond u n b }) (b := b) hn
    ((shown.cmpPowered hn).trans powered) ((shown.cmpVr hn).trans vr) (by rw [cmp_putCmp_self]; exact resolved)
    (by rw [cmp_putCmp_self, beyond_putCmp ((front.cmpVr hn).trans vr)]) genuine
  exact ⟨shown.trans frame', crossed.of_status status'.symm rfl rfl, out⟩

end

/-! ### The timed zero crossing -/

section
variable (s : State) (n peak : Nat)

/-- The edge is delivered: THR follows the peak, which is published, and the filter sees the timed level (R53, R55). -/
def delivered : State :=
  let pk := min (max (s.inp n).peak peak) 0xFF
  let u := pinLevel ((s.set (TI_VRSTAT_THR n) (vrThreshold s n pk % 256)).set (TI_VRSTAT_PK n) pk) n (s.flag (TI_VRCFG_INV n))
  u.putInp n { u.inp n with armed := false, rearmed := false, peak := 0, vrFrom := some s.now }

theorem delivered_frontEndOnly : FrontEndOnly n s (delivered s n peak) :=
  ((((FrontEndOnly.refl n s).set _ (.inl rfl)).set _ (.inl rfl)).putInp _).putInp _

/-- The new threshold fits THR: no term of it is wider than the peak (R55). -/
theorem vrThreshold_lt {pk : Nat} (h : pk ≤ 255) : vrThreshold s n pk < 256 := by
  have least : s.get (TI_VRCFG_THMIN n) < 256 := get_lt s _
  have old : s.get (TI_VRSTAT_THR n) < 256 := get_lt s _
  have part : s.get (TI_VRCFG_FRAC n) < 16 := get_lt s _
  have product : pk * s.get (TI_VRCFG_FRAC n) ≤ 255 * 15 := Nat.mul_le_mul h (by omega)
  unfold vrThreshold
  omega

theorem delivered_THR : (delivered s n peak).get (TI_VRSTAT_THR n) = vrThreshold s n (min (max (s.inp n).peak peak) 255) := by
  have small := vrThreshold_lt s n (Nat.min_le_right (max (s.inp n).peak peak) 255)
  rw [delivered, putInp_get, pinLevel, putInp_get,
    get_set_ne _ _ _ _ (show 8 + 8 ≤ 32 by decide) (.inr (.inl (show 0 + 8 ≤ 8 by decide))),
    get_set_self _ _ _ (show 0 + 8 ≤ 32 by decide)]
  exact (Nat.mod_mod ..).trans (Nat.mod_eq_of_lt small)

theorem delivered_TOUT : (delivered s n peak).get (TI_VRSTAT_TOUT n) = s.get (TI_VRSTAT_TOUT n) := by
  rw [delivered, putInp_get, pinLevel, putInp_get,
    get_set_ne _ _ _ _ (show 8 + 8 ≤ 32 by decide) (.inr (.inr (show 8 + 8 ≤ 20 by decide))),
    get_set_ne _ _ _ _ (show 0 + 8 ≤ 32 by decide) (.inr (.inr (show 0 + 8 ≤ 20 by decide)))]

variable {s n peak}

/-- A timing comparator that has not re-armed leaves the signal in the peak memory (R53, R55). -/
theorem vrZero_waits (h : (s.inp n).rearmed = false) :
    vrZero s n peak = s.putInp n { s.inp n with peak := max (s.inp n).peak peak } := by
  simp only [vrZero, h, Bool.false_and, Bool.not_false, Bool.true_or, cond_false, cond_true]

/-- An armed front end in RUN whose timing comparator has re-armed delivers the edge, as it stands without a timeout of this tk (R54, R55). -/
theorem vrZero_delivers {back : State} (hb : timeoutBack n s = back) (rearmed : (s.inp n).rearmed = true)
    (rearmed' : (back.inp n).rearmed = true) (armed : (back.inp n).armed = true) (run : back.get (TI_VRSTAT_STATE n) = 2) :
    vrZero s n peak = cmpResolve n (delivered back n peak) := by
  simp only [vrZero, hb, rearmed, rearmed', armed, run, beq_self_eq_true, Bool.and_self, Bool.not_true, Bool.false_or, cond_true,
    show (2 == 0) = false from rfl, cond_false, delivered]

/-- Without a timeout of this tk there is nothing to undo (R54). -/
theorem timeoutBack_none (h : ∀ x, (s.inp n).timedOut = some x → x.tb ≠ s.now) : timeoutBack n s = s := by
  cases e : (s.inp n).timedOut with
  | none => simp only [timeoutBack, e]
  | some x => simp only [timeoutBack, e, bne_iff_ne.mpr (h x e), cond_true]

/-- A timeout of this tk is undone: status, comparator and peak memory are those before it (R54). -/
theorem timeoutBack_undoes {x : VrUndo} (h : (s.inp n).timedOut = some x) (now : x.tb = s.now) :
    timeoutBack n s = (((s.wr (Reg.TI_VRSTAT n) x.vrstat).wr (Reg.CMP_STAT n) x.cmpstat).putInp n
      { s.inp n with armed := (s.inp n).armed || x.armed, peak := max (s.inp n).peak x.peak, timedOut := none }).putCmp n
        { s.cmp n with edges := x.edges } := by
  simp only [timeoutBack, h, now, bne_self_eq_false, cond_false]

end

/-! ### The timeout -/

section
variable (s : State) (n : Nat)

/-- What an edge of the same tk takes back (R54). -/
def undoOf : VrUndo :=
  { tb := s.now, vrstat := s.rd (Reg.TI_VRSTAT n), cmpstat := s.rd (Reg.CMP_STAT n), armed := (s.inp n).armed, peak := (s.inp n).peak,
    edges := (s.cmp n).edges }

/-- THR has returned to ARM, with TOUT set and the peak memory cleared (R54). -/
def expired : State :=
  ((s.set (TI_VRSTAT_THR n) (s.get (TI_VRCFG_ARM n))).setb (TI_VRSTAT_TOUT n) true).putInp n
    { s.inp n with vrFrom := none, peak := 0, timedOut := some (undoOf s n) }

theorem expired_frontEndOnly : FrontEndOnly n s (expired s n) :=
  (((FrontEndOnly.refl n s).set _ (.inl rfl)).set _ (.inl rfl)).putInp _

theorem vrTimeout_expires {s : State} {n t0 : Nat} (run : s.get (TI_VRSTAT_STATE n) = 2) (from_ : (s.inp n).vrFrom = some t0)
    (on : s.get (TI_VRTO_VRTO n) ≠ 0) (due : t0 + s.get (TI_VRTO_VRTO n) * 4096 ≤ s.now) :
    vrTimeout s n = cmpResolve n (expired s n) := by
  have counts : s.flag (TI_VRTO_VRTO n) = true := bne_iff_ne.mpr on
  simp only [vrTimeout, from_, run, counts, Nat.ble_eq_true_of_le due, beq_self_eq_true, Bool.and_self, cond_true, expired, undoOf]

end

/-- An edge delivered in the tk of the timeout stands instead of it: THR and TOUT follow from before (R54). -/
theorem vrZero_instead {s u : State} {n : Nat} (peak : Nat) (hn : n < 4) (run : s.get (TI_VRSTAT_STATE n) = 2)
    (armed : (s.inp n).armed = true) (rearmed : (s.inp n).rearmed = true) (powered : cmpPowered s n = false)
    (hu : u = (expired s n).settle) :
    (vrZero u n peak).get (TI_VRSTAT_TOUT n) = s.get (TI_VRSTAT_TOUT n) ∧
      (vrZero u n peak).get (TI_VRSTAT_THR n) = vrThreshold s n (min (max (s.inp n).peak peak) 255) := by
  have input : u.inp n = { s.inp n with vrFrom := none, peak := 0, timedOut := some (undoOf s n) } := by
    rw [hu, settle_inp_of, expired, inp_putInp_self]
  have front : FrontEndOnly n s u := hu ▸ (expired_frontEndOnly s n).settle
  have undone := timeoutBack_undoes (s := u) (n := n) (x := undoOf s n) (by rw [input]) front.now.symm
  generalize hb : timeoutBack n u = back at undone
  have frame : FrontEndOnly n s back := by
    rw [undone]
    exact (((front.wr _ (.inl rfl)).wr _ (.inr rfl)).putInp _).putCmp _
  have input' : back.inp n = { s.inp n with vrFrom := none, timedOut := none } := by
    rw [undone, putCmp_inp_of, inp_putInp_self, input]
    simp only [undoOf, Bool.or_self, Nat.zero_max]
  have status : back.rd (Reg.TI_VRSTAT n) = s.rd (Reg.TI_VRSTAT n) := by
    rw [undone, putCmp_rd, putInp_rd, rd_wr_ne _ _ (reg_CMP_STAT_ne_TI_VRSTAT n n hn).symm, rd_wr_self, undoOf]
  have threshold (pk : Nat) : vrThreshold back n pk = vrThreshold s n pk := by
    have config : back.rd (Reg.TI_VRCFG n) = s.rd (Reg.TI_VRCFG n) := frame.setting hn (.inr (.inl rfl))
    have least : back.get (TI_VRCFG_THMIN n) = s.get (TI_VRCFG_THMIN n) := get_of_rd config
    have part : back.get (TI_VRCFG_FRAC n) = s.get (TI_VRCFG_FRAC n) := get_of_rd config
    have old : back.get (TI_VRSTAT_THR n) = s.get (TI_VRSTAT_THR n) := get_of_rd status
    rw [vrThreshold, vrThreshold, least, part, old]
  have after := frame.trans (delivered_frontEndOnly back n peak)
  rw [vrZero_delivers hb (by rw [input, rearmed]) (by rw [input', rearmed]) (by rw [input', armed]) ((get_of_rd status).trans run),
    cmpResolve_unpowered ((after.cmpPowered hn).trans powered)]
  constructor
  · rw [delivered_TOUT, get_of_rd status]
  · rw [delivered_THR, threshold, input']

/-! ### The commands -/

section
variable {s : State} {n : Fin 4} (runs : s.angleRuns = true)
include runs

theorem exec_vrGenuineCrossing (b : Bool) : exec (.vrGenuineCrossing n b) s = .next (vrGenuine n b s).settle :=
  congrArg done (inAngle_runs s _ runs)

theorem exec_vrZeroCrossing (peak : BitVec 16) : exec (.vrZeroCrossing n peak) s = .next (vrZero s n peak.toNat).settle :=
  congrArg done (inAngle_runs s _ runs)

theorem exec_vrTimeout : exec (.vrTimeout n) s = .next (vrTimeout s n).settle := congrArg done (inAngle_runs s _ runs)

end

/-- Settles O16: each command is its part of the front end, taken by the comparator where it is powered. -/
theorem vrFrontEnds : Obligations.VrFrontEnds := by
  unfold Obligations.VrFrontEnds
  refine ⟨fun s n b runs => ⟨fun off => ⟨fun prime first => ?first, fun prime second => ?second, fun run rise => ?rise⟩,
      fun powered vr => ⟨fun crosses => ?crosses, fun resolved out side => ?again⟩⟩,
    fun s n peak runs run armed rearmed fresh => ?delivers, fun s n peak runs rearmed => ?waits,
    fun s n t0 runs run from_ on due => ?expires,
    fun s u n peak t0 runs run armed rearmed from_ on due powered hu => ?instead⟩
  case first =>
    rw [exec_vrGenuineCrossing runs, vrGenuine_unpowered off, vrCrossing_first ((afterRise_get ..).trans prime) ((afterRise_get ..).trans first)]
    rfl
  case second =>
    rw [exec_vrGenuineCrossing runs, vrGenuine_unpowered off,
      vrCrossing_second ((afterRise_get ..).trans prime) (by rw [afterRise_get]; exact second)]
    rfl
  case rise =>
    rw [exec_vrGenuineCrossing runs, vrGenuine_unpowered off, vrCrossing_rise ((afterRise_get ..).trans run) rise]
    rfl
  case crosses =>
    obtain ⟨frame, crossed, out⟩ := vrGenuine_crossed n.isLt powered vr crosses
    have settled := frame.settle
    have status : notPending (Reg.TI_VRSTAT n) = true := notPending_above (by unfold Reg.TI_VRSTAT; omega)
    have comparator : notPending (Reg.CMP_STAT n) = true := notPending_above (by unfold Reg.CMP_STAT; omega)
    obtain ⟨first, second, rise⟩ := crossed.of_status (t' := (vrGenuine n b s).settle) rfl (settle_rd _ status) (settle_inp_of ..)
    exact ⟨_, exec_vrGenuineCrossing runs b, (settle_flag _ comparator).trans out, settled.mem, first, second, rise, settled.inp, settled.rd⟩
  case again =>
    rw [exec_vrGenuineCrossing runs, vrGenuine_again powered vr resolved out side]
    rfl
  case delivers =>
    rw [exec_vrZeroCrossing runs, vrZero_delivers (timeoutBack_none fresh) rearmed rearmed armed run]
    rfl
  case waits => rw [exec_vrZeroCrossing runs, vrZero_waits rearmed]
  case expires => exact ⟨undoOf s n, rfl, by rw [exec_vrTimeout runs, vrTimeout_expires run from_ on due, expired]⟩
  case instead =>
    have unpowered := ((expired_frontEndOnly s n).cmpPowered n.isLt).trans powered
    rw [exec_vrTimeout runs, vrTimeout_expires run from_ on due, cmpResolve_unpowered unpowered] at hu
    have expires := (Host.Outcome.next.inj hu).symm
    obtain ⟨tout, thr⟩ := vrZero_instead peak.toNat n.isLt run armed rearmed powered expires
    have status : notPending (Reg.TI_VRSTAT n) = true := notPending_above (by unfold Reg.TI_VRSTAT; omega)
    have runs' : u.angleRuns = true := by
      rw [expires, (expired_frontEndOnly s n).settle.angleRuns n.isLt, runs]
    refine ⟨_, exec_vrZeroCrossing runs' peak, ?_, ?_⟩
    · rw [settle_get _ status, tout]
    · rw [settle_get _ status, thr]

end Sys2Proof.Machine
end
